-- ==== Sys2Proof/Word.lean ====
section
/-! DEFINITION. The word types of the part: a byte, a 32-bit register word (R61) and a 64-bit word (R61: a 64-bit
register is two words, low word first). Addresses, counts and identifiers are plain `Nat`. -/

namespace Sys2Proof

/-- One byte. -/
abbrev Byte := BitVec 8

/-- A 32-bit register word (R61). -/
abbrev Word := BitVec 32

/-- A 64-bit word: two register words, low word first (R61). -/
abbrev DWord := BitVec 64

end Sys2Proof
end

