-- ==== Sys2Proof/Syntax.lean ====
section
/-! DEFINITION. The commands of the block: one constructor of `Instr` for every row of spec/opcode_table.json, with the
operands a command brings from outside (a requester, a register offset, a die and unit, data). The table gives no
operands and no bits, so the operands are the model's reading of each row's rule (assumption log 3). -/

namespace Sys2Proof

/-- A resident thread group: compute die, physical tile unit, residency slot (R105). -/
structure GRef where
  die : Nat
  unit : Nat
  slot : Nat
deriving DecidableEq, Repr

/-- The two address spaces of a load or store (R123): the scratchpad (26-bit addresses, R131) or virtual memory. -/
inductive Space where
  | scratch | mem
deriving DecidableEq, Repr

/-- The address a memory instruction forms for each thread: base + lane × stride + the values of up to two registers
of the thread, the second counting in units of 2^32. The encodings of vector instructions are the vendor's own; the
model chooses this operand form (assumption log 10). -/
structure AddrForm where
  base : Nat := 0
  stride : Nat := 0
  lo : Option Nat := none
  hi : Option Nat := none
deriving DecidableEq, Repr

/-- A Felt atomic as a kernel issues it (R330, R369, R857): code, operand size in bytes, target address, first
register of the operand and of the compare value, destination of a FETCH, ordering qualifiers, whether it names a
scratchpad address, and for vector operations and LSE the scratchpad offset of the source and the ordered fields of
R334. -/
structure AtomOp where
  code : Nat
  size : Nat := 4
  addr : AddrForm
  src : Nat := 0
  cmp : Nat := 0
  dst : Nat := 0
  fetch : Bool := false
  acq : Bool := false
  rel : Bool := false
  scratch : Bool := false
  source : Nat := 0
  ordered : Bool := false
  cidx : Nat := 0
  ccount : Nat := 1
deriving DecidableEq, Repr

/-- The launch values SREG reads (R493). -/
inductive SregSel where
  | task | tasks | member | group | lane | argVaLo | argVaHi | cmdSeq | stepVaLo | stepVaHi | pinned
deriving DecidableEq, Repr

/-- Vector FP32 arithmetic (R111). -/
inductive FpOp where
  | add | sub | mul | fma | div | sqrt | min | max
deriving DecidableEq, Repr

/-- Special functions (R112). -/
inductive SfOp where
  | rcp | rsqrt | exp2 | log2 | exp | ln
deriving DecidableEq, Repr

/-- Branch and reconvergence instructions (R108): a jump of the whole group; a divergence that keeps the threads
whose register is non-zero (or zero) and saves the mask until `join`; an else that flips to the threads left out; a
reconvergence that restores the saved mask. The forms are the model's (assumption log 10). -/
inductive BranchOp where
  | jump (target : Nat)
  | split (reg : Nat) (join : Nat)
  | other (target : Nat)
  | join
deriving DecidableEq, Repr

/-- Requests to a home (R313, class REQ.H). -/
inductive ReqKind where
  | rdOnce | rdShared | rdOwn | wr | wb | evict | atom | red | lse | flush
deriving DecidableEq, Repr

/-- A request in the Felt (R313, R320, R334): kind, requesting agent and stream, slice-set index, slice charged,
sectors wanted or written, byte data by offset in the line (with a byte listed for every byte written), poisoned
sectors carried (WB), atomic code, operand size in bytes, compare value, fetch; ordered fields; NACK count; whether it
carries the STARVE mark; the sender's agent generation; and what the arrays show as the home serves it: an
uncorrectable directory entry (R347), sectors with an uncorrectable data error (R340);
and the started command (ring, start number) the request is made for, where one is known. -/
structure FReq where
  kind : ReqKind
  agent : Nat
  stream : Nat
  sset : Nat := 0
  slice : Option Nat := none
  sectors : List Nat := []
  data : List (Nat × Byte) := []
  poison : List Nat := []
  code : Nat := 0
  off : Nat := 0
  size : Nat := 0
  operand : List Byte := []
  compare : Nat := 0
  fetch : Bool := false
  ordered : Bool := false
  cidx : Nat := 0
  ccount : Nat := 1
  nacks : Nat := 0
  starve : Bool := false
  streamType : Bool := false
  own : Bool := false
  agen : Nat := 0
  ueDir : Bool := false
  ueData : List Nat := []
  cmd : Option (Nat × Nat) := none
deriving DecidableEq, Repr


/-- A data flit of a link (R539). `idle` is the complement of IDLE_N; LEN is the payload's length. -/
structure Flit where
  dst : Nat
  src : Nat
  vc : Nat
  ord : Bool := false
  first : Bool := false
  last : Bool := false
  shared : Bool := false
  idle : Bool := false
  hops : Nat := 0
  squeue : Nat := 0
  fseq : Nat := 0
  pseq : Nat := 0
  typ : Nat := 0
  payload : List Byte := []
deriving DecidableEq, Repr

/-- A link message (R542). -/
inductive LinkMsg where
  | snapTrig (origin seq : Nat)
  | hold (node : Nat)
  | resume (node : Nat)
  | lambdaReq (lane wavelength atFseq : Nat) (dir : Bool)
  | lambdaAck (lane wavelength atFseq : Nat) (dir : Bool)
  | param (node : Nat) (valid : Bool) (port : Nat) (width4 : Bool) (echo : Nat)
  | paramAck (node : Nat) (valid : Bool) (port : Nat) (width4 : Bool) (echo : Nat)
  | retrainReq (reason : Nat)
deriving DecidableEq, Repr

/-- A control flit (R541): acknowledgement, NAK, the sender's link state and HOLD, credits freed (dedicated by VC, shared)
as cumulative counts, pace word, link messages. -/
structure CtlFlit where
  ackSeq : Nat := 0
  ackV : Bool := false
  nak : Bool := false
  lstate : Nat := 6
  hold : Bool := false
  crDed : List Nat := [0, 0, 0, 0]
  crShared : Nat := 0
  pace : Nat := 0
  msgs : List LinkMsg := []
deriving DecidableEq, Repr

/-- What a part's fuses, straps and detect balls give at power-on (R5, R26 to R28, R790, R854): position and variant
strap of each die in die order, the hub last; active tiles per die; the spare tiles by cluster and spare segment by die;
the detect balls; the hashes of the key slots, those programmed and revoked, the minimum SVN; whether the fuse array and
the NOR can be read. -/
structure Part where
  straps : List (Nat × Nat) := []
  tiles : Nat := 12
  spareTile : List (Nat × List Nat) := []
  spareSeg : List (Nat × Nat) := []
  chiplets : List Bool := [false, false]
  keys : List (BitVec 384) := []
  programmed : Nat := 0
  revoked : Nat := 0
  svn : Nat := 0
  fusesOk : Bool := true
  norOk : Bool := true
deriving DecidableEq, Repr

/-- What the hub measures at a power event (R768): input in mV at the trigger and its lowest of the last 10 ms, peak
current in 0.1 A, mean power in W, the hottest die and its temperature. -/
structure PMeas where
  vin : Nat := 0
  vinMin : Nat := 0
  iinPeak : Nat := 0
  pinAvg : Nat := 0
  tempMax : Nat := 0
  tempDie : Nat := 0
deriving DecidableEq, Repr

/-- What Blocker measures over a control period of 1 ms (R741, R742, R747, R775): input power in W, input current in
0.1 A, input voltage in mV, the rail power of each compute die, of the hub and of the link ports in W, whether the cap
cannot be met with every die at its lowest clocks, and the dies with a far-tier package whose MR4 reports it above its
limit. -/
structure BlkMeas where
  pin : Nat := 0
  iin : Nat := 0
  vin : Nat := 48000
  dies : List Nat := []
  hub : Nat := 0
  links : Nat := 0
  excess : Bool := false
  hot : List Nat := []
deriving DecidableEq, Repr

/-- The rails that a short can hit (R728): those of one LPDDR5X package, of one stack, a core rail, a chiplet site's. -/
inductive Rail where
  | lpddr (pkg : Nat) | stack | core | site
deriving DecidableEq, Repr

/-- What PLDM monitoring covers (R833). -/
inductive PldmSensor where
  | inputVoltage | inputCurrent | inputPower | dieTemp (die : Nat) | coolantInlet | coolantOutlet | coolantFlow
  | leak | efuse | cap
deriving DecidableEq, Repr

/-- A command of the block, one constructor per row of spec/opcode_table.json. -/
inductive Instr where
  /-- REGISTER_WRITE: a naturally aligned 32- or 64-bit register write by requester `req` at BAR0 offset `off`. -/
  | registerWrite (req off : Nat) (data : DWord) (wide : Bool)
  /-- BAD_REG_ACCESS: a register access of `bytes` bytes that is not an aligned 32- or 64-bit one. -/
  | badRegAccess (req off bytes : Nat) (write : Bool)
  /-- LOW_WORD_READ: a 32-bit read of the low word of a 64-bit counter. -/
  | lowWordRead (req off : Nat)
  /-- DIST_DATA_READ: a read of DIST_DATA. -/
  | distDataRead (req : Nat)
  /-- DIST_UPDATE: Holog writes changed DIST entries. -/
  | distUpdate (changes : List (Nat × Word))
  /-- ENABLE: a UNIT_CTRL write that sets ENABLE to `on`, with FORCE_OFF when `forceOff`. -/
  | enable (page : Nat) (on forceOff : Bool)
  /-- DRAIN: a UNIT_CTRL write that sets DRAIN to `on`. -/
  | drain (page : Nat) (on : Bool)
  /-- FORCE_OFF: a UNIT_CTRL write with FORCE_OFF, ENABLE and DRAIN; `unreadable` are the (line, sector) pairs that segments it resets cannot read. -/
  | forceOff (page : Nat) (enable drain : Bool) (unreadable : List (Nat × Nat))
  /-- RESET: a UNIT_CTRL write with RESET. -/
  | reset (page : Nat) (forceOff : Bool) (unreadable : List (Nat × Nat))
  /-- ACCEPTED_WORK_FINISHED: a unit finishes the work it has accepted. -/
  | acceptedWorkFinished (page : Nat)
  /-- UNIT_FAULT: a unit detects an uncontained internal fault, recorded with a class and detail. -/
  | unitFault (page cls detail : Nat)
  /-- EVT_STAT_CLEAR: a W1C write to EVT_STAT, with the bits hardware sets in the same cycle. -/
  | evtStatClear (page : Nat) (bits : Word) (hwSet : Word)
  /-- EVT_FORCE: a write to EVT_FORCE. -/
  | evtForce (page : Nat) (bits : Word)
  /-- ERR_CODE_CLEAR: a write that clears ERR_CODE.VALID. -/
  | errCodeClear (page : Nat)
  /-- SNAP_FIRE: a write of SNAP_FIRE. -/
  | snapFire
  /-- SNAP_RELEASE: a write of SNAP_RELEASE. -/
  | snapRelease
  /-- SNAP_TRIG_ASSERT: the SNAP_TRIG pin is asserted. -/
  | snapTrigAssert
  /-- TASK_START: a tile starts the task issued to it. -/
  | taskStart (die unit : Nat)
  /-- LOAD: a load of 1, 2, 4 or 8 bytes per active thread. -/
  | load (g : GRef) (space : Space) (addr : AddrForm) (dst bytes : Nat)
  /-- STORE: a store of 1, 2, 4 or 8 bytes per active thread. -/
  | store (g : GRef) (space : Space) (addr : AddrForm) (src bytes : Nat)
  /-- LD_BYP: a load that bypasses L1. -/
  | ldByp (g : GRef) (addr : AddrForm) (dst bytes : Nat)
  /-- LD_ACQ: an acquire load, with the range of its L1 invalidation. -/
  | ldAcq (g : GRef) (addr : AddrForm) (dst bytes : Nat) (range : Option (Nat × Nat))
  /-- ST_REL: a release store. -/
  | stRel (g : GRef) (addr : AddrForm) (src bytes : Nat)
  /-- MEMBAR_ORDER: MEMBAR.ORDER. -/
  | membarOrder (g : GRef)
  /-- MEMBAR_COMPLETE: MEMBAR.COMPLETE. -/
  | membarComplete (g : GRef)
  /-- ATOM: a Felt atomic, vector operation or LSE of a kernel. -/
  | atom (g : GRef) (op : AtomOp)
  /-- SREG: SREG. -/
  | sreg (g : GRef) (sel : SregSel) (dst : Nat)
  /-- VECTOR_FP_OP: a vector FP32 instruction. -/
  | vectorFpOp (g : GRef) (op : FpOp) (dst a b c : Nat)
  /-- SPECIAL_FUNCTION: a special-function instruction. -/
  | specialFunction (g : GRef) (op : SfOp) (dst a : Nat)
  /-- BRANCH: a branch or reconvergence instruction. -/
  | branch (g : GRef) (op : BranchOp)
  /-- BANK_CONFLICT_REPLAY: the oldest bank-conflict request of a core's replay queue is retried. -/
  | bankConflictReplay (die unit core : Nat)
  /-- PARTIAL_OVERLAP_REPLAY: a load with a partial overlap is replayed. -/
  | partialOverlapReplay (die unit core slot : Nat)
  /-- STORE_BUFFER_DRAIN: the oldest store-buffer entry of a core drains. -/
  | storeBufferDrain (die unit core : Nat)
  /-- BAR_TILE: BAR.TILE. -/
  | barTile (g : GRef)
  /-- BAR_CLUSTER: BAR.CLUSTER with scope MEM or SCRATCH. -/
  | barCluster (g : GRef) (mem : Bool)
  /-- CLUSTER_BARRIER_RELEASE: a barrier phase of a cluster releases. -/
  | clusterBarrierRelease (die cluster inst : Nat)
  /-- GROUP_RETIRE: a thread group retires. -/
  | groupRetire (g : GRef)
  /-- TASK_RETIRE: a tile's task retires. -/
  | taskRetire (die unit : Nat)
  /-- PARK_ENTRY_WRITE: the tile writes the oldest park entry it holds. -/
  | parkEntryWrite (die unit : Nat)
  /-- PARK_REPLAY: a PARK_CTRL write with action REPLAY. -/
  | parkReplay (die unit slot tag : Nat)
  /-- PARK_DISCARD: a PARK_CTRL write with action DISCARD. -/
  | parkDiscard (die unit slot tag : Nat)
  /-- PARK_RING_CONFIG_WRITE: a write of PARK_BASE (0x200) or PARK_SIZE (0x208). -/
  | parkRingConfigWrite (die off : Nat) (data : DWord) (wide : Bool)
  /-- MX_ISSUE: MX.ISSUE of the descriptor at the address the lowest active thread forms. -/
  | mxIssue (g : GRef) (addr : AddrForm) (quad : Option Nat) (dst : Nat)
  /-- MX_WAIT: MX.WAIT for the sequence number in register `src`. -/
  | mxWait (g : GRef) (queue src : Nat)
  /-- MX_MODE_CHANGE: the array changes between full and split mode. -/
  | mxModeChange (die unit : Nat)
  /-- NOP: the oldest operation of a queue ends as a NOP, or as one whose descriptor cannot be run. -/
  | nop (die unit queue : Nat)
  /-- MMA: the oldest operation of a queue, an MMA, runs. -/
  | mma (die unit queue : Nat)
  /-- ACC_LOAD: the oldest operation of a queue, an ACC_LOAD, runs. -/
  | accLoad (die unit queue : Nat)
  /-- ACC_STORE: the oldest operation of a queue, an ACC_STORE, runs. -/
  | accStore (die unit queue : Nat)
  /-- ATTN_FUSED: the oldest operation of a queue, an ATTN_FUSED, runs. -/
  | attnFused (die unit queue : Nat)
  /-- ATTN_APPEND: the oldest operation of a queue, an ATTN_APPEND, runs. -/
  | attnAppend (die unit queue : Nat)
  /-- ATTN_DECODE: the oldest operation of a queue, an ATTN_DECODE, runs. -/
  | attnDecode (die unit queue : Nat)
  /-- ATTN_NORM: the oldest operation of a queue, an ATTN_NORM, runs. -/
  | attnNorm (die unit queue : Nat)
  /-- STEP: the steward checks a STEP, runs its allocation phase, writes the results and issues its tasks. -/
  | step (ring seq : Nat)
  /-- STEP_RELEASE: at stage 5, after every task has retired, the steward applies leaves and trims and pushes the freed pages. -/
  | stepRelease (ring seq : Nat)
  /-- PAGES_GROW: PAGES GROW pushes COUNT buffer entries onto a lane, all or none. -/
  | pagesGrow (ring seq : Nat)
  /-- PAGES_TRIM: PAGES TRIM pops up to COUNT free entries of a lane into the buffer and writes DONE. -/
  | pagesTrim (ring seq : Nat)
  /-- PAGES_RESET: PAGES RESET deactivates every sequence of the slice and empties every lane and the slice's fallback records. -/
  | pagesReset (ring seq : Nat)
  /-- RD_ONCE: RD_ONCE reaches home segment `seg` for line `line`. -/
  | rdOnce (seg line : Nat) (r : FReq)
  /-- RD_SHARED: RD_SHARED reaches the home. -/
  | rdShared (seg line : Nat) (r : FReq)
  /-- RD_OWN: RD_OWN reaches the home. -/
  | rdOwn (seg line : Nat) (r : FReq)
  /-- WR: WR reaches the home. -/
  | wr (seg line : Nat) (r : FReq)
  /-- WB: WB reaches the home. -/
  | wb (seg line : Nat) (r : FReq)
  /-- EVICT: EVICT reaches the home. -/
  | evict (seg line : Nat) (r : FReq)
  /-- RED: RED reaches the home. -/
  | red (seg line : Nat) (r : FReq)
  /-- LSE: LSE reaches the home. -/
  | lse (seg line : Nat) (r : FReq)
  /-- FELT_ATOMIC: ATOM reaches the home. -/
  | feltAtomic (seg line : Nat) (r : FReq)
  /-- FLUSH: FLUSH reaches the home. -/
  | flush (seg line : Nat) (r : FReq)
  /-- MEMRD: the memory controller serves the MEMRD in flight of a line; `ue` are the sectors it finds uncorrectable, `ce` the codewords it corrects. -/
  | memrd (seg line : Nat) (ue : List Nat) (ce : Nat)
  /-- MEMWR: the memory controller takes the MEMWR in flight of a line. -/
  | memwr (seg line : Nat)
  /-- SNP_INV: an agent takes SNP_INV. -/
  | snpInv (seg line agent : Nat)
  /-- SNP_FWD: an agent takes SNP_FWD. -/
  | snpFwd (seg line agent : Nat)
  /-- SNP_MKF: an agent takes SNP_MKF. -/
  | snpMkf (seg line agent : Nat)
  /-- SNP_INV_HOME: an agent takes SNP_INV_HOME. -/
  | snpInvHome (seg agent : Nat)
  /-- HSNP: a host snoop of a host-memory line, relayed by the hub; `inv` for one that takes the line away. -/
  | hsnp (seg line : Nat) (inv : Bool)
  /-- ACK: the home takes ACK. -/
  | ack (seg line agent : Nat)
  /-- ACK_CLEAN: the home takes ACK_CLEAN. -/
  | ackClean (seg line agent : Nat)
  /-- ACK_FWD: the home takes ACK_FWD. -/
  | ackFwd (seg line agent : Nat)
  /-- MISS: the home takes MISS. -/
  | miss (seg line agent : Nat)
  /-- NACK: a requester takes NACK. -/
  | nack (seg line agent stream : Nat)
  /-- NACK_RETRY: a NACKed request is sent again. -/
  | nackRetry (seg line agent stream : Nat)
  /-- GO: a requester takes GO. -/
  | go (seg line agent stream : Nat)
  /-- ABORT: a requester takes ABORT. -/
  | abort (seg line agent stream : Nat)
  /-- DONE: the home takes DONE. -/
  | done (seg line agent : Nat)
  /-- FILL: a requester takes FILL. -/
  | fill (seg line agent stream : Nat)
  /-- FWD_DATA: a requester takes FWD_DATA. -/
  | fwdData (seg line agent stream : Nat)
  /-- WB_DATA: the home takes WB_DATA. -/
  | wbData (seg line agent : Nat)
  /-- MEM_DATA: the home takes MEM_DATA. -/
  | memData (seg line : Nat)
  /-- ATOM_DATA: a requester takes ATOM_DATA. -/
  | atomData (seg line agent stream : Nat)
  /-- DATA_WAY_EVICTION: a home evicts a line from its data ways. -/
  | dataWayEviction (seg line : Nat)
  /-- DIRECTORY_ENTRY_EVICTION: a home reuses a line's directory entry. -/
  | directoryEntryEviction (seg line : Nat)
  /-- SILENT_EVICTION: an agent drops an S or F copy. -/
  | silentEviction (agent line : Nat)
  /-- AGENT_EVICTION: a hub or chiplet gives up an E or M line. -/
  | agentEviction (agent line : Nat)
  /-- RESERVATION_LAPSE: a reservation lapses. -/
  | reservationLapse (seg line : Nat)
  /-- AGENT_DEAD: the AGENT_DEAD broadcast. -/
  | agentDead (agent : Nat)
  /-- RECLAIM_DONE: a home ends its scan for a dead agent. -/
  | reclaimDone (seg agent : Nat)
  /-- AGENT_REVIVE: the hub revives an agent. -/
  | agentRevive (agent : Nat)
  /-- SEGMENT_RESET: a segment resets; `unreadable` are the (line, sector) pairs it cannot read. -/
  | segmentReset (seg : Nat) (unreadable : List (Nat × Nat))
  /-- SEG_MIGRATE: Holog writes SEG_MIGRATE with START = 1. -/
  | segMigrate (die unit target : Nat)
  /-- SEGMENT_MIGRATE_DONE: set 511 has moved and every die has rebound the logical ID. -/
  | segmentMigrateDone (die unit : Nat)
  /-- SEG_CFG_WRITE: a write of SEG_CFG. -/
  | segCfgWrite (die unit : Nat) (data : Word)
  /-- WAY_CHANGE_DONE: the ways that change use are empty. -/
  | wayChangeDone (die unit : Nat)
  /-- REP_FLUSH: a write of REP_FLUSH. -/
  | repFlush (die unit : Nat)
  /-- SD_THERM_EVAL: the stacked-DRAM controller of a die evaluates the die temperature, `temp` °C (0 for a lower one). -/
  | sdThermEval (die : Nat) (temp : Nat)
  /-- REFRESH: a refresh interval of a die's near or far tier expires. -/
  | refresh (die : Nat) (far : Bool)
  /-- SCRUB: a controller scrubs the next codeword of its tier and finds it correct, corrected or uncorrectable. -/
  | scrub (die : Nat) (far : Bool) (corrected ue : Bool)
  /-- WCK_RETRAIN: a subchannel is paused for WCK oscillator retraining. -/
  | wckRetrain (die pkg sub : Nat)
  /-- MEM_HOT: MR4 of a package reports a temperature above its limit, with its refresh-rate code. -/
  | memHot (die pkg code : Nat)
  /-- REPAIR_ROW: RP_CMD with OP ROW; `ue` are the codewords (physical address / 64) found uncorrectable by the copy. -/
  | repairRow (die channel bank row : Nat) (ue : List Nat)
  /-- REPAIR_BANK: RP_CMD with OP BANK. -/
  | repairBank (die channel bank row : Nat)
  /-- BANK_REPAIR_COMMIT: the bank copy of a die ends. -/
  | bankRepairCommit (die : Nat) (ue : List Nat)
  /-- SPPR: CH_PPR_CMD without HARD; `ok` says whether the package had a spare row. -/
  | sppr (die pkg : Nat) (cmd : Word) (ok : Bool)
  /-- HPPR_RECORD: CH_PPR_CMD with HARD. -/
  | hpprRecord (die pkg : Nat) (cmd : Word)
  /-- EPOCH_END: an access-counter epoch of a die ends. -/
  | epochEnd (die : Nat)
  /-- NOTIFY_CONFIG_WRITE: a write of NOTIFY_BASE (0x110, 0x114) or NOTIFY_SIZE (0x118). -/
  | notifyConfigWrite (die off : Nat) (data : DWord) (wide : Bool)
  /-- ACCESS_COUNTER_CONFIG_WRITE: a write of AC_CFG (0x100), HWIN_BASE (0x130, 0x134) or HWIN_SIZE (0x138). -/
  | accessCounterConfigWrite (die off : Nat) (data : DWord) (wide : Bool)
  /-- WALK_READ: a walker takes the next entry of a stream's walk. -/
  | walkRead (holder stream : Nat) (ue : Bool)
  /-- INV_GO: a write of INV_GO by a PCIe function. -/
  | invGo (die fn tag : Nat)
  /-- INV_ACK: a holder acknowledges the oldest invalidation of a die that waits for it. -/
  | invAck (die holder : Nat)
  /-- INV_COMPLETE: the invalidation at the front of a die's queue completes. -/
  | invComplete (die : Nat)
  /-- DL_CONFIG_WRITE: a write of DL_BASE (0x108) or DL_CFG (0x110). -/
  | dlConfigWrite (die off : Nat) (data : DWord) (wide : Bool)
  /-- DB_TAIL: A doorbell write of DB_TAIL sets the ring's pending bit, or is ignored when it exceeds the capacity. -/
  | dbTail (fn ring value : Nat)
  /-- DB_CQ_HEAD: A write of DB_CQ_HEAD releases consumed records, or is ignored when invalid. -/
  | dbCqHead (fn ring value : Nat)
  /-- RING_ENABLE: RING_CTRL.ENABLE reads and checks the ring table entry and makes the ring ACTIVE, or is ignored. -/
  | ringEnable (fn : Nat)
  /-- RING_RESET_IDX: RESET_IDX with ENABLE sets the ring's indices to 0 and the expected sequence to SEQ0. -/
  | ringResetIdx (fn : Nat)
  /-- RING_DRAIN: RING_CTRL.DRAIN makes the ring start no command until its started commands complete. -/
  | ringDrain (fn : Nat)
  /-- RING_FORCE_OFF: RING_CTRL.FORCE_OFF raises the ring's GEN and completes its started commands ABORTED. -/
  | ringForceOff (fn : Nat)
  /-- RT_BASE_WRITE: A write of RT_BASE while any ring is not OFF is ignored and sets BAD_RING. -/
  | rtBaseWrite (off : Nat) (data : DWord) (wide : Bool)
  /-- COMMAND_START: the dispatcher reads, checks and starts the next command of a ring once the conditions of R488 hold. -/
  | commandStart (ring : Nat)
  /-- KERNEL: A KERNEL command launches its tile tasks. -/
  | kernel (ring seq : Nat)
  /-- COPY: COPY mode COPY copies LEN bytes from source to destination on the copy engines. -/
  | copy (ring seq : Nat)
  /-- COPY_FLUSH: COPY mode FLUSH issues one FLUSH per 1,024 B line of its range. -/
  | copyFlush (ring seq : Nat)
  /-- COPY_FILL: COPY mode FILL writes PATTERN repeated over the destination. -/
  | copyFill (ring seq : Nat)
  /-- PUT: PUT sends LEN bytes in chunks to an address at a peer. -/
  | put (ring seq : Nat)
  /-- GET: GET requests LEN bytes in chunks from a peer. -/
  | get (ring seq : Nat)
  /-- SIGNAL: SIGNAL writes a 64-bit flag at a peer after the earlier PUTs of its flow. -/
  | signal (ring seq : Nat)
  /-- WAIT: WAIT holds its ring until a memory-word condition or a ring's completion holds. -/
  | wait (ring seq : Nat)
  /-- WAIT_EVAL: the dispatcher evaluates an incomplete WAIT again every 2 µs, or at once when the awaited ring writes a record. -/
  | waitEval (ring : Nat)
  /-- COLLECTIVE: COLLECTIVE runs a plan on a collective engine. -/
  | collective (ring seq : Nat)
  /-- BARRIER_ORDER: BARRIER_ORDER completes once the order of R377 is established. -/
  | barrierOrder (ring seq : Nat)
  /-- BARRIER_COMPLETE: BARRIER_COMPLETE completes after every earlier command has completed and its writes have been accepted. -/
  | barrierComplete (ring seq : Nat)
  /-- PHASE: PHASE sets the ring's current phase tag. -/
  | phase (ring seq : Nat)
  /-- SNAPSHOT: SNAPSHOT optionally fires a trigger and copies the latched windows of the selected dies to memory. -/
  | snapshot (ring seq : Nat)
  /-- DIRTYLOG: DIRTYLOG harvests the dirty bitmaps of the named dies, clearing them when CLEAR = 1. -/
  | dirtylog (ring seq : Nat)
  /-- TASK_ISSUE: when a tile is free, the dispatcher ranks the started commands and places the next task or task set. -/
  | taskIssue
  /-- CLAIM: A command that finds no free tile claims HELD or BUSY tiles it outranks. -/
  | claim (ring seq : Nat)
  /-- SPILL: the save engine spills a context's pinned residency to its save slot. -/
  | spill (lt : Nat)
  /-- RESTORE: the save engine restores a saved slot into the pinned region before the first group issues. -/
  | restore (die unit : Nat)
  /-- PROMOTION: every AGE_MS of its age clock a command gains one promotion, and the fourth makes it URGENT. -/
  | promotion (ring seq : Nat)
  /-- COMPLETION_RECORD: the dispatcher writes a command's record in sequence order, advances DB_CQ_TAIL and sends the interrupt. -/
  | completionRecord (ring : Nat)
  /-- DATA_FLIT: A receiver accepts an in-order data flit with a good CRC, or discards it and sets NAK. -/
  | dataFlit (port : Nat) (f : Flit) (ok : Bool)
  /-- CONTROL_FLIT: A port takes a control flit's acknowledgements, NAK, credits, pace word and link messages. -/
  | controlFlit (port : Nat) (c : CtlFlit) (ok : Bool)
  /-- REPLAY_TIMEOUT: with ACK_SEQ stalled for twice the RTT plus 1 µs, the transmitter replays its unacknowledged flits. -/
  | replayTimeout (port : Nat)
  /-- SNAP_TRIG: A fabric snapshot trigger arrives, and the device latches and forwards it unless it is a duplicate. -/
  | snapTrig (port origin seq : Nat)
  /-- HOLD: A port whose peer sends HOLD sets PEER_HOLD and stops sending data flits. -/
  | linkHold (port : Nat)
  /-- RESUME: the peer's RESUME message leads to a retrain, after which PEER_HOLD is cleared. -/
  | linkResume (port : Nat)
  /-- LAMBDA_REQ: A peer asks to move a lane to another wavelength at a given FSEQ. -/
  | lambdaReq (port lane wl atFseq : Nat) (dir : Bool)
  /-- LAMBDA_ACK: the peer agrees to a wavelength move. -/
  | lambdaAck (port lane wl atFseq : Nat) (dir : Bool)
  /-- LAMBDA_SWITCH: both ends switch the lane to the new wavelength at the flit slot that carries AT_FSEQ. -/
  | lambdaSwitch (port : Nat)
  /-- PARAM: at PARAM a port takes the peer's parameters, measures RTT and accepts or refuses the link. -/
  | param (port node : Nat) (valid : Bool) (peer : Nat) (width4 : Bool) (echo : Nat)
  /-- PARAM_ACK: A port takes the answer to its PARAM, with the echoed timestamp. -/
  | paramAck (port echo fibre : Nat)
  /-- RETRAIN_REQ: A peer's request makes a port in UP enter RETRAIN. -/
  | retrainReq (port reason : Nat)
  /-- LIGHT_DETECT: in DETECT a port sees light, decides any fibre swap and enters LAMBDA. -/
  | lightDetect (port : Nat) (crossed : Bool) (number : Nat)
  /-- LAMBDA_TUNE_DONE: ring tuning of all wavelengths ends and the port enters ALIGN. -/
  | lambdaTuneDone (port : Nat) (txBad rxBad : BitVec 9)
  /-- ALIGN_DONE: codeword lock, deskew and block alignment end and the width is agreed with the width the peer offers. -/
  | alignDone (port width : Nat)
  /-- CREDIT_DONE: initial credits are set and FSEQ is reset, and the link enters UP. -/
  | creditDone (port : Nat)
  /-- TRAINING_TIMEOUT: A training step that overruns its bound returns the port to DETECT. -/
  | trainingTimeout (port : Nat)
  /-- RETRAIN_DONE: A retrain ends in UP, or after three failures in DOWN. -/
  | retrainDone (port : Nat) (ok : Bool)
  /-- LOSS_OF_LIGHT: loss of light on the receive fibre for 10 µs takes the port to DOWN. -/
  | lossOfLight (port : Nat)
  /-- DOWN_HOLDOFF: after DOWN_HOLDOFF ms with AUTO_RETRY set, a DOWN port returns to DETECT. -/
  | downHoldoff (port : Nat)
  /-- BEACON_LOSS: A peer's beacon lost for 100 µs in HOLD takes the port to DOWN. -/
  | beaconLoss (port : Nat)
  /-- LINK_CMD_RETRAIN: LINK_CMD.RETRAIN starts a retrain, or a new DETECT from DOWN. -/
  | linkCmdRetrain (port : Nat)
  /-- LINK_CMD_DOWN: LINK_CMD.DOWN takes the port to DOWN and holds it there. -/
  | linkCmdDown (port : Nat)
  /-- SER_MEASURE: every 1 ms a receiver judges each wavelength's symbol error ratio and tuning headroom. -/
  | serMeasure (port wl errors symbols headroom : Nat)
  /-- LAMBDA_CMD_FAIL: LAMBDA_CMD.FAIL treats a wavelength as failing. -/
  | lambdaCmdFail (port wl : Nat) (rx : Bool)
  /-- LAMBDA_CMD_CLEAR: LAMBDA_CMD.CLEAR takes a wavelength off the failed list for the next retrain. -/
  | lambdaCmdClear (port wl : Nat) (rx : Bool)
  /-- RT_ENTRY_COMMIT: A write of RT_ENTRY_HI, or a 64-bit write, commits one routing entry, in every table when RT_SCOPE.ALL = 1. -/
  | rtEntryCommit (port off : Nat) (data : DWord) (wide : Bool)
  /-- NODE_ID_WRITE: A write of NODE_ID sets the device's node in all 48 ports, or is ignored while any port is not OFF. -/
  | nodeIdWrite (port : Nat) (data : Word)
  /-- CR_CFG_WRITE: A write of CR_CFG while the link is not OFF or DOWN is ignored and sets BAD_CFG. -/
  | crCfgWrite (port : Nat) (data : Word)
  /-- INNER_WAVELENGTH_FAIL: an inner path brings in a spare wavelength, or drops the wavelength once both spares are in use. -/
  | innerWavelengthFail (src dst wl : Nat)
  /-- INNER_PATH_DOWN: an inner path with no usable wavelength goes down, and its traffic is relayed through another die. -/
  | innerPathDown (src dst relay : Nat)
  /-- LASER_FAIL: A laser fails, and every transmitter of its group brings in the spare wavelength. -/
  | laserFail (die group wl : Nat)
  /-- CHUNK_SEND: at a chunk boundary the copy engine chooses the next chunk by weighted round robin and sends it. -/
  | chunkSend (die engine : Nat)
  /-- PUT_DATA: A transfer engine takes a PUT data packet and writes it, or answers REFUSE or BUSY. -/
  | putData (die : Nat)
  /-- SIGNAL_PACKET: A transfer engine takes a SIGNAL packet, whose flag is written when its chunk is counted. -/
  | signalPacket (die : Nat)
  /-- GET_REQ: A responder serves a GET chunk request by sending GET_DATA packets. -/
  | getReq (die : Nat)
  /-- CANCEL: the state die releases the cancelled chunks, treats them as counted with 0 bytes and answers ACK. -/
  | cancel (die : Nat)
  /-- GET_DATA: A requester takes GET_DATA packets and counts the chunks in CSEQ order. -/
  | getData (die : Nat)
  /-- TRANSFER_ACK: A sender takes an ACK for a chunk, which completes the chunk. -/
  | transferAck (die : Nat)
  /-- BUSY: A sender takes BUSY and schedules the chunk to be sent again. -/
  | busy (die : Nat)
  /-- BUSY_RETRY: after 16 × n µs a busied chunk is sent again. -/
  | busyRetry (queue node cseq : Nat)
  /-- REFUSE: A sender takes REFUSE, and the transfer fails FAULT_XLATE or PEER_DOWN. -/
  | refuse (die : Nat)
  /-- HELD: A sender takes HELD for a chunk waiting at a port whose peer is in HOLD. -/
  | held (die : Nat)
  /-- HELD_NOTICE: A packet held over 100 µs at a PEER_HOLD port makes the forwarding device send HELD to its source. -/
  | heldNotice (input : Nat)
  /-- PEER_HOLD_TIMEOUT: A transfer that drew HELD and made no progress for HOLD_WAIT_MS completes PEER_HOLD. -/
  | peerHoldTimeout (msg : Nat)
  /-- UNREACH: A sender takes UNREACH and resends the chunk, up to 3 times, or fails the transfer PEER_DOWN. -/
  | unreach (die : Nat)
  /-- GET_FAIL: A requester takes GET_FAIL and the GET completes PEER_DOWN. -/
  | getFail (die : Nat)
  /-- PACE_PING: A device takes a peer's pace word from PACE_PING. -/
  | pacePing (die : Nat)
  /-- PACE_PING_TIMER: every 20 µs while a plan waits or matching is active, the engine sends PACE_PING to its plans' peers. -/
  | pacePingTimer (die : Nat)
  /-- COLLECTIVE_SEND: A plan's SEND step hands a transfer to its queue's copy engine. -/
  | collectiveSend (die slot : Nat)
  /-- COLLECTIVE_WAIT: A plan's WAIT step holds later steps until the named counter reaches its threshold. -/
  | collectiveWait (die slot : Nat)
  /-- COLLECTIVE_REDUCE: A plan's REDUCE step issues one Felt RED per 256 B sector. -/
  | collectiveReduce (die slot : Nat)
  /-- COLLECTIVE_COPY: A plan's COPY step copies locally. -/
  | collectiveCopy (die slot : Nat)
  /-- COLLECTIVE_SIGNAL: A plan's SIGNAL step writes a flag at the peer. -/
  | collectiveSignal (die slot : Nat)
  /-- PACE_PUBLISH: every 10 µs the device publishes its pace word. -/
  | pacePublish (mean : Option Nat)
  /-- LAG_WINDOW: at the end of each 100 µs window the engine updates every peer's lag and LAGGING state. -/
  | lagWindow (die : Nat)
  /-- PACE_MATCH_EVAL: every 10 µs Holog finds the causes of pace matching and sets or lifts the target. -/
  | paceMatchEval
  /-- XE_FLOW_RESET: A write of XE_FLOW_RESET empties one flow's state, or every flow's, on every die. -/
  | xeFlowReset (data : Word)
  /-- COMMIT: PROT_CTRL.COMMIT snapshots and checks the staged setup, refusing it or sending it to every unit. -/
  | commit
  /-- COMMIT_ACK: A unit adopts the commit at its next transaction boundary and acknowledges; the last acknowledgement advances PROT_EPOCH. -/
  | commitAck (unit : Nat)
  /-- DISCARD: PROT_CTRL.DISCARD copies the committed setup over the staging copy. -/
  | discard
  /-- QUIESCE: SL_CTRL.QUIESCE drains every ring of the slice and blocks their ENABLE. -/
  | quiesce (slice : Nat) (on : Bool)
  /-- SLICE_RESET: SL_CTRL.RESET resets the slice domain, forcing its rings OFF and aborting its work. -/
  | sliceReset (slice : Nat)
  /-- RELEASE: SL_CTRL.RELEASE takes the slice out of CONTAINED and ends redirection. -/
  | release (slice : Nat)
  /-- MIG_LOAD: MIG_CTRL.LOAD sets the indices and expected sequence of an OFF ring, or is ignored. -/
  | migLoad
  /-- BAR4_ACCESS: A host access through BAR4 reaches device memory directly for the PF, or through FN_BAR4_PASID for a VF. -/
  | bar4Access (fn off len : Nat) (write : Option (List Byte))
  /-- CXL_MEM_ACCESS: A host CXL.mem access is served by the hub as agent 8 at the line's home. -/
  | cxlMemAccess (dpa len keep : Nat) (write : Option (List Byte))
  /-- BIRSP: the host's BIRsp lets the hub answer the home's snoop, merging any written-back data. -/
  | birsp (line : Nat) (data : Option (List Byte))
  /-- FLR: A function-level reset resets every slice of the function, or the device for the PF. -/
  | flr (fn : Nat) (unreadable : List (Nat × Nat))
  /-- HEARTBEAT: every 1 ms Holog adds 1 to HB_COUNT. -/
  | heartbeat
  /-- WATCHDOG_SAMPLE: every 1 ms the watchdog samples HB_COUNT and starts a failover after three missed beats. -/
  | watchdogSample
  /-- FAILOVER: the standby dispatcher takes over and rebuilds pending bits, ranks, age clocks and claims. -/
  | failover
  /-- WD_DECLARE: A write of WD_DECLARE makes the oldest incomplete command of the ring GUILTY. -/
  | wdDeclare (ring : Nat)
  /-- RECOVERY_END: after the unit is reset and replaced, the replay sets are sent again, dispatch resumes and RECOVERING is cleared. -/
  | recoveryEnd (lost : List Nat)
  /-- DEVICE_FAULT: the device stops starting commands, writes Hatbox and asserts ALERT_N. -/
  | deviceFault
  /-- TEARDOWN_TIMEOUT: A tile that has not ended an aborted task within 1 ms is reset. -/
  | teardownTimeout (die unit : Nat)
  /-- SPARE_TEST: pounce periodically tests a spare tile or segment, retiring it if it fails. -/
  | spareTest (page : Nat) (ok : Bool)
  /-- PATH_TEST: pounce periodically tests spare wavelengths, lasers and the standby dispatcher. -/
  | pathTest (standbyOk : Bool) (inner : List (Nat × Nat × Nat)) (link : List (Nat × Nat))
  /-- CE_RATE_EVAL: every minute Pounce compares corrected-error rates with their thresholds and orders repairs. -/
  | ceRateEval (page rate : Nat) (left : Bool)
  /-- ARRAY_SCRUB: pounce scrubs the Felt, tile-store and register-file arrays in idle cycles. -/
  | arrayScrub (page loc sector : Nat) (ce ue : Bool)
  /-- SPARE_ROW_FIT: pounce fits a spare SRAM row or column when the array is next idle. -/
  | spareRowFit (page loc : Nat) (column : Bool)
  /-- TILE_SUBSTITUTION: at a command boundary a spare tile takes over a logical tile. -/
  | tileSubstitution (die unit : Nat)
  /-- HATBOX: holog writes the crash-dump image, or counts the trigger in HB_MISSED when an image is already held. -/
  | hatbox
  /-- HB_REQ: A write of HB_REQ triggers a Hatbox image. -/
  | hbReq
  /-- HB_STAT_CLEAR: clearing HB_STAT.VALID frees the Hatbox for the next image. -/
  | hbStatClear
  /-- HATBOX_NOR_COPY: holog copies the image to the NOR Hatbox slot and sets NOR_COPIED. -/
  | hatboxNorCopy
  /-- DEVICE_RESET: A device reset writes Hatbox, writes the Felt back, resets every unit and waits in BOOT. -/
  | deviceReset (unreadable : List (Nat × Nat))
  /-- PERST_N: an assertion of PERST_N resets the device. -/
  | perstN (unreadable : List (Nat × Nat))
  /-- PWR_FAIL_N: an assertion of PWR_FAIL_N causes HOLD. -/
  | pwrFailN
  /-- PWR_FAIL_N_DEASSERT: PWR_FAIL_N deasserted for 1 ms clears the PWR_FAIL cause. -/
  | pwrFailNDeassert
  /-- INPUT_UNDERVOLTAGE: input below the HOLD undervoltage threshold for 10 µs causes HOLD. -/
  | inputUndervoltage (vin : Nat)
  /-- INPUT_OVERVOLTAGE: input above the HOLD overvoltage threshold for 10 µs causes HOLD. -/
  | inputOvervoltage (vin : Nat)
  /-- EFUSE_OV_OPEN: input above the eFuse opening threshold opens the eFuse within 1 µs. -/
  | efuseOvOpen (m : PMeas)
  /-- INPUT_CLEAR: input back within range for 1 ms clears the UV or OV cause. -/
  | inputClear (vin : Nat)
  /-- THERMAL_HOLD: A die at 110 °C causes HOLD. -/
  | thermalHold (die : Nat) (sensors : List Nat)
  /-- THERMAL_CLEAR: every die at or below 95 °C for 1 s clears the THERMAL cause. -/
  | thermalClear (temps : List (List Nat))
  /-- HOLD_TEST: A write of HOLD_TEST enters HOLD with cause TEST for MS ms. -/
  | holdTest (data : Word)
  /-- HOLD_TEST_EXPIRE: HOLD_TEST's time runs out and the TEST cause clears. -/
  | holdTestExpire
  /-- RESUMPTION: when the last cause clears, rails, clocks, DRAM, tiles and ports resume and HOLD_EXIT is sent. -/
  | resumption
  /-- HOLD_LONG: after HOLD_LONG_S seconds in HOLD, EVT_STAT.HOLD_LONG is set. -/
  | holdLong
  /-- FINAL_JOURNAL: on a journal trigger the device sheds its rails and the hub writes the prepared record to the free NOR slot. -/
  | finalJournal (m : PMeas)
  /-- EFUSE_LATCH: an overload lasting the safe-operating-area timer turns the eFuse off and latches it. -/
  | efuseLatch (m : PMeas)
  /-- FAST_TRIP: A current at the fast-trip level turns the eFuse off within 1 µs. -/
  | fastTrip (m : PMeas)
  /-- EFUSE_RETRY: A latched eFuse retries after 1 s with a full gate ramp, at most 3 times. -/
  | efuseRetry
  /-- REVERSE_POLARITY: reverse polarity is blocked and logged by the MMC. -/
  | reversePolarity
  /-- SENSE_OPEN: A regulator with an open sense wire falls back to local sense. -/
  | senseOpen (die rail : Nat)
  /-- RAIL_SHORT: A shorted memory, core or chiplet rail is isolated to its die, controller or site. -/
  | railShort (die : Nat) (rail : Rail)
  /-- VDIFF: an adjacent-domain difference beyond 150 mV for 1 µs isolates the die. -/
  | vdiff (die : Nat)
  /-- THERMAL_TRIP: A die at 120 °C opens the eFuse. -/
  | thermalTrip (die : Nat) (sensors : List Nat) (m : PMeas)
  /-- CLAMP105: A compute die at 105 °C halves its TCLK in hardware until it falls to 102 °C. -/
  | clamp105 (die : Nat) (sensors : List Nat)
  /-- GRADIENT_CHECK: every 100 µs Blocker reads die temperatures and limits the hottest die while the spread exceeds GRAD_WARN. -/
  | gradientCheck (temps : List (List Nat))
  /-- BLOCKER_PERIOD: every 1 ms, or on a bound change, Blocker sets each die's TCLK to the minimum of its bounds. -/
  | blockerPeriod (m : BlkMeas)
  /-- DROOP: A VDD_T droop detection stretches TCLK until the rail recovers. -/
  | droop (die mv cycles : Nat)
  /-- THROTTLE_N: an assertion or deassertion of THROTTLE_N sets or lifts the 1,200 W floor cap. -/
  | throttleN (asserted : Bool)
  /-- THROTTLE_STUCK: THROTTLE_N asserted for 1 s sets STUCK. -/
  | throttleStuck
  /-- PHASE_MODEL_UPDATE: every 100 µs Blocker updates each phase's power and sensitivity model. -/
  | phaseModelUpdate (slice tag power sens : Nat)
  /-- ENERGY_INTERVAL: every 10 µs the interval's input energy is divided among commands. -/
  | energyInterval (total own : Nat) (charges : List (Nat × Nat × Nat)) (dies : List Nat)
  /-- BLK_CAP_WRITE: A write of BLK_CAP sets the cap, or is ignored and sets BAD_CFG when out of range. -/
  | blkCapWrite (data : Word)
  /-- POWER_ON: input in range ramps the eFuse, rails and clocks, and the ROM checks straps, fuses and NOR. -/
  | powerOn (part : Part) (vin : Nat)
  /-- CHIPLET_DISCOVERY: the hub discovers a present chiplet site through the UCIe sideband and chooses its mode. -/
  | chipletDiscovery (site : Nat) (ok cxl raw : Bool) (rates : List Nat) (id : List Word)
  /-- BOOT_WINDOW_WRITE: A PF write to the boot window stores image bytes, or is dropped and counted. -/
  | bootWindowWrite (off : Nat) (data : List Byte)
  /-- RAISE_SVN: BOOT_CMD.RAISE_SVN programs the fused minimum SVN up to the running image's SVN. -/
  | raiseSvn (ok : Bool)
  /-- BRING_UP: in START Holog applies the wear record, brings up memory, sets up storage and the DIST table, and reaches RUN. -/
  | bringUp (nearFail : Option Nat) (pkgs : List (List Bool)) (park : List Nat) (dist : List (Nat × Word))
  /-- START_TIMEOUT: holog not at RUN 2 s after START stops the device. -/
  | startTimeout
  /-- JOURNAL_ERASE_DONE: the free journal slot's erase completes and JR_STAT.ARMED is set. -/
  | journalEraseDone (ok : Bool)
  /-- LOG_ENTRY: holog writes a log entry to its internal ring and, when export applies, to the host ring. -/
  | logEntry (tp sev src : Nat) (args : List Word)
  /-- LOG_BASE_WRITE: A write of LOG_BASE or LOG_SIZE takes effect only while the ring is empty, and exports buffered entries. -/
  | logBaseWrite (off : Nat) (data : DWord) (wide : Bool)
  /-- NOR_DATA_READ: A read of NOR_DATA returns four NOR bytes and advances the address when AUTOINC is set. -/
  | norDataRead (req : Nat)
  /-- GET_VERSION: an SPDM GET_VERSION request over DOE returns the supported versions. -/
  | getVersion
  /-- GET_CAPABILITIES: an SPDM GET_CAPABILITIES request is answered. -/
  | getCapabilities (version : Nat)
  /-- NEGOTIATE_ALGORITHMS: an SPDM NEGOTIATE_ALGORITHMS request selects P-384, SHA-384 and AES-256-GCM. -/
  | negotiateAlgorithms (offered : Bool)
  /-- GET_DIGESTS: an SPDM GET_DIGESTS request returns the certificate digests. -/
  | getDigests
  /-- GET_CERTIFICATE: an SPDM GET_CERTIFICATE request returns the slot 0 chain. -/
  | getCertificate (slot off len : Nat)
  /-- CHALLENGE: an SPDM CHALLENGE is answered with the identity key. -/
  | challenge (slot : Nat)
  /-- GET_MEASUREMENTS: an SPDM GET_MEASUREMENTS request returns the measurement blocks, signed on request. -/
  | getMeasurements (index : Nat) (sign : Bool)
  /-- KEY_EXCHANGE: an SPDM KEY_EXCHANGE begins a secured session. -/
  | keyExchange (id slot : Nat)
  /-- FINISH: an SPDM FINISH completes session establishment. -/
  | finish (id : Nat)
  /-- HEARTBEAT_SPDM: an SPDM HEARTBEAT keeps a session alive. -/
  | heartbeatSpdm (id : Nat)
  /-- KEY_UPDATE: an SPDM KEY_UPDATE rekeys a session. -/
  | keyUpdate (id : Nat)
  /-- END_SESSION: an SPDM END_SESSION closes a session. -/
  | endSession (id : Nat)
  /-- IDE_KM: an IDE_KM message over a secured session manages an IDE stream's keys. -/
  | ideKm (id stream : Nat) (on : Bool)
  /-- IDE_FAIL: an IDE integrity failure drops the TLP or flit and moves the stream to its insecure state. -/
  | ideFail (stream : Nat)
  /-- CHIPLET_REQUEST: A chiplet's CXL request is served inside its aperture, or refused outside it. -/
  | chipletRequest (site pa : Nat) (r : FReq)
  /-- CPL: A raw-mode chiplet completion answers an outstanding request. -/
  | cpl (site tag : Nat) (err poison : Bool) (data : List Byte)
  /-- EVT: A raw-mode chiplet event sets an EVT_STAT bit of the chiplet's unit page. -/
  | evt (site bit : Nat)
  /-- CS_TIMEOUT: A raw request with no CPL within 1 ms is completed as failed. -/
  | csTimeout (site tag : Nat)
  /-- UCIE_LINK_LOST: loss of the UCIe link takes the site to FAULTED and makes its agent dead. -/
  | ucieLinkLost (site : Nat)
  /-- GET_STATUS: the MMC returns PS_STAT, the cap and its source, HOLD_STAT and recent log entries. -/
  | getStatus
  /-- SET_CAP: the MMC sets BLK_CAP_MMC from the management bus. -/
  | setCap (w : Nat)
  /-- CLEAR_EFUSE: the MMC clears a latched eFuse and restarts it. -/
  | clearEfuse
  /-- CLEAR_ALERT: the MMC deasserts ALERT_N. -/
  | clearAlert
  /-- MODULE_RESET: the MMC turns the eFuse off for 1 s, which triggers the journal, then restarts the module. -/
  | moduleReset (m : PMeas)
  /-- READ_LOG: the MMC returns log entries from a given index. -/
  | readLog (start : Nat)
  /-- PLDM_MONITORING: the MMC answers a PLDM platform-monitoring request for sensors and state. -/
  | pldmMonitoring (sensor : PldmSensor) (reading : Nat)
  /-- PLDM_FIRMWARE_UPDATE: the MMC takes a PLDM firmware update into its spare bank. -/
  | pldmFirmwareUpdate (image : List Byte)
  /-- AUX_POWER_UP: 3V3_AUX comes up; the MMC samples MOD_ID, chooses I3C or SMBus and becomes ready. -/
  | auxPowerUp (modId : Nat) (i3c : Bool)
  /-- LEAK: the cold-plate leak sensor reports a leak and ALERT_N is asserted. -/
  | leak
  /-- FLOW_LOW: coolant flow below 6 L/min raises a PLDM event and asserts ALERT_N. -/
  | flowLow (flow : Nat)
  /-- BOOT_CMD_LOAD: A PF write of BOOT_CMD.LOAD makes the ROM check the image and either start Holog in START or stop with a reloadable code. -/
  | bootCmdLoad
  /-- PERST_N_DEASSERT: deassertion of PERST_N starts host link training and samples BIF_N for the lane configuration. -/
  | perstNDeassert (bifLow : Bool)
  /-- HOST_LINK_UP: host link training completes, which lets PHASE move from ROM to WAIT_IMAGE and may set LINK_DEGRADED. -/
  | hostLinkUp (rate width : Nat) (flit cxlIo cxlCache cxlMem below : Bool)
  /-- HOST_LINK_DOWN: the host link goes down, which sets HOSTIF LINK_DOWN, and the host may retrain it. -/
  | hostLinkDown
  /-- EFUSE_LATCH_CLEAR: input held below 10 V for 100 ms clears a latched eFuse that exhausted its retries. -/
  | efuseLatchClear
  /-- PEER_BEACON: A port in UP or RETRAIN whose peer's slots give way to a beacon, with no HOLD message, sets PEER_HOLD and stops sending data flits. -/
  | peerBeacon (port : Nat)
  /-- UCIE_LANE_REPAIR: A UCIe lane fault is repaired onto a redundant lane or degrades the width to x32, and sets the REPAIR event. -/
  | ucieLaneRepair (site : Nat) (repaired : Bool)
deriving DecidableEq, Repr

end Sys2Proof
end

