-- ==== Sys2Proof/Decode.lean ====
section
/-! DEFINITION. The commands that words spell. spec/opcode_table.json gives none of its rows bits, and no command of this block
is encoded in a word, so no word spells a command. -/

namespace Sys2Proof

/-- The command that an instruction word of `nbits` bits spells by the table's bits: the table gives bits to no row. -/
def decodeTableWord (_nbits _w : Nat) : Option Instr := none

end Sys2Proof
end

