-- ==== Sys2Proof/Machine/Fp.lean ====
section
/-! DEFINITION. Floating-point arithmetic: exact dyadic values, one rounding to a binary format, and the operations the
vector cores (R111, R112), the Felt (R330, R332) and the array use. Every operation is computed exactly, or with a
remainder kept as a sticky bit, and rounded once. -/

namespace Sys2Proof.Machine

/-- A decoded floating-point value: NaN (signalling or quiet), infinity, or ± m × 2^e. -/
inductive FV where
  | nan (sig : Bool)
  | inf (neg : Bool)
  | fin (neg : Bool) (m : Nat) (e : Int)
deriving DecidableEq, Repr

/-- An IEEE binary format: precision, least and greatest exponent of a normal number. -/
structure Fmt where
  p : Nat
  emin : Int
  emax : Int
deriving DecidableEq, Repr

def fmt32 : Fmt := ⟨24, -126, 127⟩
def fmtBF16 : Fmt := ⟨8, -126, 127⟩
def fmtF16 : Fmt := ⟨11, -14, 15⟩

/-- Exponent bits of a format. -/
def Fmt.ebits (f : Fmt) : Nat := if f.emax = 15 then 5 else 8

/-- Total width of a format. -/
def Fmt.width (f : Fmt) : Nat := f.p + f.ebits

/-- IEEE exception flags, as VC_FLAGS lays them out (R152). -/
def flInvalid : Nat := 1
def flDivZero : Nat := 2
def flOverflow : Nat := 4
def flUnderflow : Nat := 8
def flInexact : Nat := 16

/-- The value an encoding of the format stands for. -/
def Fmt.decode (f : Fmt) (w : Nat) : FV :=
  let frac := w % 2 ^ (f.p - 1)
  let ex := w / 2 ^ (f.p - 1) % 2 ^ f.ebits
  let neg := w / 2 ^ (f.width - 1) % 2 == 1
  if ex = 2 ^ f.ebits - 1 then
    (if frac = 0 then .inf neg else .nan (frac < 2 ^ (f.p - 2)))
  else if ex = 0 then .fin neg frac (f.emin - (f.p - 1 : Nat))
  else .fin neg (frac + 2 ^ (f.p - 1)) (f.emin - (f.p - 1 : Nat) + (ex - 1 : Nat))

/-- The canonical quiet NaN of the format (R111, R178). -/
def Fmt.qnan (f : Fmt) : Nat := (2 ^ f.ebits - 1) * 2 ^ (f.p - 1) + 2 ^ (f.p - 2)

/-- An infinity of the format. -/
def Fmt.infinity (f : Fmt) (neg : Bool) : Nat :=
  (2 ^ f.ebits - 1) * 2 ^ (f.p - 1) + (if neg then 2 ^ (f.width - 1) else 0)

/-- A zero of the format. -/
def Fmt.zero (f : Fmt) (neg : Bool) : Nat := if neg then 2 ^ (f.width - 1) else 0

/-- Bits needed for a natural number. -/
def bitLen (m : Nat) : Nat := if m = 0 then 0 else Nat.log2 m + 1

/-- Round m × 2^e (with `sticky`: plus something below one unit of m) to precision `p` with least exponent `emin`,
to nearest, ties to even: significand, exponent of its unit, inexact, and whether the exact value is below 2^emin. -/
def rneCore (p : Nat) (emin : Int) (m : Nat) (e : Int) (sticky : Bool) : Nat × Int × Bool × Bool :=
  let top : Int := e + (bitLen m : Int) - 1
  let q : Int := max (top - (p - 1 : Nat)) (emin - (p - 1 : Nat))
  let tiny := decide (top < emin)
  if q ≤ e then (m * 2 ^ (e - q).toNat, q, sticky, tiny)
  else
    let s := (q - e).toNat
    let lo := m / 2 ^ s
    let rem := m % 2 ^ s
    let half := 2 ^ (s - 1)
    let up := decide (half < rem) || (rem == half && (sticky || lo % 2 == 1))
    let m' := if up then lo + 1 else lo
    let inexact := rem != 0 || sticky
    if m' = 2 ^ p then (2 ^ (p - 1), q + 1, inexact, tiny) else (m', q, inexact, tiny)

/-- The encoding of a rounded significand; `none` where it overflows the format. -/
def Fmt.pack (f : Fmt) (neg : Bool) (m : Nat) (q : Int) : Option Nat :=
  let s := if neg then 2 ^ (f.width - 1) else 0
  if m < 2 ^ (f.p - 1) then some (s + m)
  else
    let ex := q + (f.p - 1 : Nat)
    if f.emax < ex then none else some (s + (ex - f.emin + 1).toNat * 2 ^ (f.p - 1) + (m - 2 ^ (f.p - 1)))

/-- Round a non-zero magnitude to the format under round-to-nearest-even: encoding and flags. Underflow is an inexact
result whose exact value is below the least normal magnitude (R187). -/
def Fmt.round (f : Fmt) (neg : Bool) (m : Nat) (e : Int) (sticky : Bool) : Nat × Nat :=
  if m = 0 ∧ !sticky then (f.zero neg, 0)
  else
    let r := rneCore f.p f.emin m e sticky
    match f.pack neg r.1 r.2.1 with
    | none => (f.infinity neg, flOverflow + flInexact)
    | some w => (w, (if r.2.2.1 then flInexact + (if r.2.2.2 then flUnderflow else 0) else 0))

/-- Whether a value is a NaN. -/
def FV.isNan : FV → Bool
  | .nan _ => true
  | _ => false

/-- Whether a value is a signalling NaN. -/
def FV.isSnan : FV → Bool
  | .nan s => s
  | _ => false

/-- A value with the opposite sign. -/
def FV.negate : FV → FV
  | .nan s => .nan s
  | .inf n => .inf !n
  | .fin n m e => .fin (!n) m e

/-- The exact signed sum of two dyadic numbers: sign, magnitude, exponent. An exact zero from opposite signs is +0;
two zeros of one sign keep it (IEEE 754 under round to nearest). -/
def dyAdd (n1 : Bool) (m1 : Nat) (e1 : Int) (n2 : Bool) (m2 : Nat) (e2 : Int) : Bool × Nat × Int :=
  let e := min e1 e2
  let a : Int := (m1 * 2 ^ (e1 - e).toNat : Nat)
  let b : Int := (m2 * 2 ^ (e2 - e).toNat : Nat)
  let v := (if n1 then -a else a) + (if n2 then -b else b)
  if v = 0 then (n1 && n2, 0, e) else (decide (v < 0), v.natAbs, e)

/-- The invalid flag of signalling operands. -/
def snanFlag (l : List FV) : Nat := if l.any FV.isSnan then flInvalid else 0

/-- Sum, rounded once. -/
def Fmt.addV (f : Fmt) (x y : FV) : Nat × Nat :=
  match x, y with
  | .nan _, _ => (f.qnan, snanFlag [x, y])
  | _, .nan _ => (f.qnan, snanFlag [x, y])
  | .inf a, .inf b => if a = b then (f.infinity a, 0) else (f.qnan, flInvalid)
  | .inf a, .fin _ _ _ => (f.infinity a, 0)
  | .fin _ _ _, .inf b => (f.infinity b, 0)
  | .fin n1 m1 e1, .fin n2 m2 e2 =>
    let r := dyAdd n1 m1 e1 n2 m2 e2
    f.round r.1 r.2.1 r.2.2 false

/-- Product, exact, as a value (0 × ∞ is a quiet NaN and raises invalid). -/
def mulV (x y : FV) : FV × Nat :=
  match x, y with
  | .nan _, _ => (.nan false, snanFlag [x, y])
  | _, .nan _ => (.nan false, snanFlag [x, y])
  | .inf a, .inf b => (.inf (a != b), 0)
  | .inf a, .fin n m _ => if m = 0 then (.nan false, flInvalid) else (.inf (a != n), 0)
  | .fin n m _, .inf b => if m = 0 then (.nan false, flInvalid) else (.inf (n != b), 0)
  | .fin n1 m1 e1, .fin n2 m2 e2 => (.fin (n1 != n2) (m1 * m2) (e1 + e2), 0)

/-- A value rounded to the format. -/
def Fmt.ofV (f : Fmt) (x : FV) : Nat × Nat :=
  match x with
  | .nan _ => (f.qnan, 0)
  | .inf n => (f.infinity n, 0)
  | .fin n m e => f.round n m e false

/-- Product, rounded once. -/
def Fmt.mulF (f : Fmt) (x y : FV) : Nat × Nat :=
  let r := mulV x y
  let w := f.ofV r.1
  (w.1, r.2 ||| w.2)

/-- Fused multiply-add, rounded once (R111). -/
def Fmt.fmaF (f : Fmt) (x y z : FV) : Nat × Nat :=
  let r := mulV x y
  let w := f.addV r.1 z
  (w.1, r.2 ||| w.2 ||| snanFlag [z])

/-- Quotient, rounded once. -/
def Fmt.divF (f : Fmt) (x y : FV) : Nat × Nat :=
  match x, y with
  | .nan _, _ => (f.qnan, snanFlag [x, y])
  | _, .nan _ => (f.qnan, snanFlag [x, y])
  | .inf _, .inf _ => (f.qnan, flInvalid)
  | .inf a, .fin n _ _ => (f.infinity (a != n), 0)
  | .fin n _ _, .inf b => (f.zero (n != b), 0)
  | .fin n1 m1 e1, .fin n2 m2 e2 =>
    if m2 = 0 then (if m1 = 0 then (f.qnan, flInvalid) else (f.infinity (n1 != n2), flDivZero))
    else if m1 = 0 then (f.zero (n1 != n2), 0)
    else
      let k := f.p + 3 + bitLen m2
      let q := m1 * 2 ^ k / m2
      f.round (n1 != n2) q (e1 - e2 - (k : Nat)) (m1 * 2 ^ k % m2 != 0)

/-- Integer square root, from the bit `k` − 1 of the result down. -/
def isqrtFrom : Nat → Nat → Nat → Nat
  | 0, _, r => r
  | k + 1, n, r => if (r + 2 ^ k) * (r + 2 ^ k) ≤ n then isqrtFrom k n (r + 2 ^ k) else isqrtFrom k n r

/-- Integer square root. -/
def isqrt (n : Nat) : Nat := isqrtFrom (bitLen n / 2 + 1) n 0

/-- Square root, rounded once. -/
def Fmt.sqrtF (f : Fmt) (x : FV) : Nat × Nat :=
  match x with
  | .nan s => (f.qnan, if s then flInvalid else 0)
  | .inf n => if n then (f.qnan, flInvalid) else (f.infinity false, 0)
  | .fin n m e =>
    if m = 0 then (f.zero n, 0)
    else if n then (f.qnan, flInvalid)
    else
      let k := 2 * (f.p + 3) + (if e % 2 = 0 then 0 else 1)
      let v := m * 2 ^ k
      let r := isqrt v
      f.round false r ((e - (k : Nat)) / 2) (r * r != v)

/-- Maximum with a NaN operand giving NaN, and max(+0, −0) = +0 (R332); `isMin` gives the minimum likewise. -/
def Fmt.maxF (f : Fmt) (isMin : Bool) (a b : Nat) : Nat × Nat :=
  let x := f.decode a
  let y := f.decode b
  if x.isNan || y.isNan then (f.qnan, snanFlag [x, y])
  else
    let key : FV → Int × Int := fun v =>
      match v with
      | .nan _ => (0, 0)
      | .inf n => (if n then -1 else 1, 0)
      | .fin _ _ _ => (0, 0)
    let less : Bool :=
      match x, y with
      | .fin n1 m1 e1, .fin n2 m2 e2 =>
        let r := dyAdd n1 m1 e1 (!n2) m2 e2
        if r.2.1 = 0 then n1 && !n2 else r.1
      | _, _ => decide ((key x).1 < (key y).1)
    if isMin then (if less then (a, 0) else (b, 0)) else (if less then (b, 0) else (a, 0))

/-! ### FP32 words -/

def dec32 (w : Word) : FV := fmt32.decode w.toNat
def enc32 (r : Nat × Nat) : Word × Nat := (BitVec.ofNat 32 r.1, r.2)
/-- The canonical NaN (R111). -/
def nan32 : Word := 0x7FC00000
def fadd32 (a b : Word) : Word × Nat := enc32 (fmt32.addV (dec32 a) (dec32 b))
def fsub32 (a b : Word) : Word × Nat := enc32 (fmt32.addV (dec32 a) (dec32 b).negate)
def fmul32 (a b : Word) : Word × Nat := enc32 (fmt32.mulF (dec32 a) (dec32 b))
def ffma32 (a b c : Word) : Word × Nat := enc32 (fmt32.fmaF (dec32 a) (dec32 b) (dec32 c))
def fdiv32 (a b : Word) : Word × Nat := enc32 (fmt32.divF (dec32 a) (dec32 b))
def fsqrt32 (a : Word) : Word × Nat := enc32 (fmt32.sqrtF (dec32 a))
def fmax32 (a b : Word) : Word × Nat := enc32 (fmt32.maxF false a.toNat b.toNat)
def fmin32 (a b : Word) : Word × Nat := enc32 (fmt32.maxF true a.toNat b.toNat)

/-! ### Special functions (R112), computed with 200 fractional bits and rounded once -/

/-- Fractional bits of the fixed-point series. -/
def fxBits : Nat := 200

/-- 2 × Σ z^(2k+1) / (2k+1) from term `k`, z and its running odd power `t` in fixed point: 2 atanh z. -/
def atanhSum (z2 : Nat) : Nat → Nat → Nat → Nat
  | 0, _, _ => 0
  | n + 1, k, t => 2 * t / (2 * k + 1) + atanhSum z2 n (k + 1) (t * z2 / 2 ^ fxBits)

/-- ln 2 = 2 atanh (1/3) in fixed point. -/
def ln2Fx : Nat :=
  let z := 2 ^ fxBits / 3
  atanhSum (z * z / 2 ^ fxBits) 80 0 z

/-- Σ t^k / k! from term `k`, `u` the running term. -/
def expSum (t : Nat) : Nat → Nat → Nat → Nat
  | 0, _, _ => 0
  | n + 1, k, u => u + expSum t n (k + 1) (u * t / 2 ^ fxBits / (k + 1))

/-- 2^f for f in [0, 1) in fixed point. -/
def exp2Fx (f : Nat) : Nat := expSum (f * ln2Fx / 2 ^ fxBits) 64 0 (2 ^ fxBits)

/-- exp2, correctly rounded (R112). -/
def exp2F32 (a : Word) : Word × Nat :=
  match dec32 a with
  | .nan s => (nan32, if s then flInvalid else 0)
  | .inf n => (if n then 0 else 0x7F800000, 0)
  | .fin n m e =>
    if m = 0 then (0x3F800000, 0)
    else if 8 < e + (bitLen m : Int) then
      (if n then enc32 (fmt32.round false 1 (-300) true) else enc32 (fmt32.round false 1 300 false))
    else
      -- x as a signed fixed-point number with fxBits fractional bits (exact: 2^-149 is the least unit)
      let v : Int := ((m * 2 ^ (e + (fxBits : Nat)).toNat : Nat) : Int)
      let x := if n then -v else v
      let i := x / ((2 ^ fxBits : Nat) : Int)
      let fr := (x % ((2 ^ fxBits : Nat) : Int)).toNat
      if fr = 0 then enc32 (fmt32.round false 1 i false)
      else enc32 (fmt32.round false (exp2Fx fr) (i - (fxBits : Nat)) true)

/-- log2, correctly rounded (R112): log2(0) = −∞ and raises divide by zero, a negative argument is NaN. -/
def log2F32 (a : Word) : Word × Nat :=
  match dec32 a with
  | .nan s => (nan32, if s then flInvalid else 0)
  | .inf n => if n then (nan32, flInvalid) else (0x7F800000, 0)
  | .fin n m e =>
    if m = 0 then (0xFF800000, flDivZero)
    else if n then (nan32, flInvalid)
    else
      let b := bitLen m - 1
      let ex : Int := e + (b : Int)
      if m = 2 ^ b then
        (if ex = 0 then (0, 0) else enc32 (fmt32.round (decide (ex < 0)) ex.natAbs 0 false))
      else
        let y := m * 2 ^ fxBits / 2 ^ b
        let one := 2 ^ fxBits
        let z := (y - one) * one / (y + one)
        let lny := atanhSum (z * z / one) 80 0 z
        let l2 := lny * one / ln2Fx
        let v : Int := ex * ((one : Nat) : Int) + (l2 : Int)
        enc32 (fmt32.round (decide (v < 0)) v.natAbs (-(fxBits : Nat) : Int) true)

/-- rcp, correctly rounded. -/
def rcpF32 (a : Word) : Word × Nat := fdiv32 0x3F800000 a

/-- rsqrt, correctly rounded: rsqrt(−0) = −∞, rsqrt(x < 0) = NaN (R112). -/
def rsqrtF32 (a : Word) : Word × Nat :=
  match dec32 a with
  | .nan s => (nan32, if s then flInvalid else 0)
  | .inf n => if n then (nan32, flInvalid) else (0, 0)
  | .fin n m e =>
    if m = 0 then (if n then 0xFF800000 else 0x7F800000, flDivZero)
    else if n then (nan32, flInvalid)
    else
      -- 1 / sqrt(m 2^e) = sqrt(2^(2k) / m') 2^-(k + e'/2), e' even
      let odd := if e % 2 = 0 then 0 else 1
      let m' := m * 2 ^ odd
      let e' := e - (odd : Nat)
      let num := 2 ^ 160
      let q := num / m'
      let r := isqrt q
      enc32 (fmt32.round false r (-80 - e' / 2) (decide (r * r ≠ q) || decide (num % m' ≠ 0)))

/-- exp, each step rounded to nearest even (R112). -/
def expF32 (a : Word) : Word × Nat :=
  let t := fmul32 a 0x3FB8AA3B
  let r := exp2F32 t.1
  (r.1, t.2 ||| r.2)

/-- ln, each step rounded to nearest even (R112). -/
def lnF32 (a : Word) : Word × Nat :=
  let t := log2F32 a
  let r := fmul32 t.1 0x3F317218
  (r.1, t.2 ||| r.2)

/-! ### BF16 halves -/

def decBF (w : Nat) : FV := fmtBF16.decode w
def faddBF (a b : Nat) : Nat × Nat := fmtBF16.addV (decBF a) (decBF b)
def fmaxBF (a b : Nat) : Nat × Nat := fmtBF16.maxF false a b

end Sys2Proof.Machine
end

