-- ==== Sys2Proof/Config.lean ====
section
/-! DEFINITION. What an implementation fixes and the spec leaves open: the free values, and the published
cryptographic functions the part calls. Every constant here is opaque: no proof can see its value. -/

namespace Sys2Proof.Config

/-- The `n`-th free value: a value the spec leaves open and the machine goes on with. The machine takes the next one
by reading and advancing `State.freeCtr` (assumption log 1). -/
opaque freeValue : Nat → BitVec 64

/-- SHA-384 (R788, R797): a published standard; the model takes it as an uninterpreted function of the message
(assumption log 2). -/
opaque sha384 : List (BitVec 8) → BitVec 384

/-- ECDSA P-384 signature verification (R788): key hash, digest, public key and signature; uninterpreted
(assumption log 2). -/
opaque ecdsaVerify : BitVec 384 → List (BitVec 8) → List (BitVec 8) → Bool

/-- SHA-384 of the part's boot ROM (R806): fixed by the part, value not given (assumption log 2). -/
opaque romDigest : BitVec 384

/-- The certificate chain of slot 0 (R806): fixed by the part, contents not given (assumption log 2). -/
opaque certChain : List (BitVec 8)

end Sys2Proof.Config
end

