-- ==== Sys2Proof/Machine/Pages.lean ====
section
/-! DEFINITION. The register pages of BAR0 (02_register_pages.md R60, R66 to R70): which page holds which kind of unit,
which page is an extension page, and how pages nest in groups. A page is named by its number, the BAR0 offset divided
by 4,096: die × 1,024 + unit × 16 + block. -/

namespace Sys2Proof.Machine

/-- What stands behind a register page (R66 to R69). The first part are member and group pages, which carry the common
header; the second part, from `segDir` on, are extension pages (registers from 0x100 only). -/
inductive PageKind where
  | tile | vc | matrix | gather | smu | codec | tstore | tlb | cluster | segment | port | sdramc | lpddrc | inner
  | path | walkers | collective | copygrp | copyEngine | pwrtherm | die
  | dispatch | standby | hostif | pagealloc | intr | hubprot | snapUnit | boot | journal | watchdog | mmcbox | hubdie
  | ucie | chiplet | site
  | policy | prot | slice | blocker | pace | dist | dev
  | segDir | segRep | segRed | portOptics | portRoute | portCredit | sdRepair | sdCounters | lpChannel | lpCounters
  | dirtyLog | colLag | droop | dspRings | hiPcie | hiCxl | hiIde | hiDoe | paPools | intrWindows | ucieSideband
  | ucieLink | sliceTable | chipletOwn
deriving DecidableEq, Repr

/-- The page number of a die, unit and block (R60). -/
def pageOf (die unit block : Nat) : Nat := die * 1024 + unit * 16 + block

/-- The DIE field of a page (R60). -/
def pageDie (p : Nat) : Nat := p / 1024

/-- The UNIT field of a page (R60). -/
def pageUnit (p : Nat) : Nat := p / 16 % 64

/-- The BLOCK field of a page (R60). -/
def pageBlock (p : Nat) : Nat := p % 16

/-- The kinds of a compute die's pages (R66). -/
def computePageKind (d u b : Nat) : Option PageKind :=
  if u < 15 then
    match b with
    | 0 => some .tile
    | 1 | 2 | 3 | 4 => some .vc
    | 5 => some .matrix
    | 6 => some .gather
    | 7 => some .smu
    | 8 => some .codec
    | 9 => some .tstore
    | 10 => some .tlb
    | _ => none
  else if 16 ≤ u ∧ u ≤ 18 then (if b = 0 then some .cluster else none)
  else if 20 ≤ u ∧ u ≤ 32 then
    match b with
    | 0 => some .segment
    | 1 => some .segDir
    | 2 => some .segRep
    | 3 => some .segRed
    | _ => none
  else if 36 ≤ u ∧ u ≤ 41 then
    match b with
    | 0 => some .port
    | 1 => some .portOptics
    | 2 => some .portRoute
    | 3 => some .portCredit
    | _ => none
  else if u = 44 then
    match b with
    | 0 => some .sdramc
    | 1 => some .sdRepair
    | 2 => some .sdCounters
    | _ => none
  else if u = 45 then
    match b with
    | 0 => some .lpddrc
    | 1 | 2 => some .lpChannel
    | 3 => some .lpCounters
    | _ => none
  else if u = 46 then
    (if b = 0 then some .inner else if b ≤ 9 ∧ b ≠ 1 + d then some .path else none)
  else if u = 47 then
    match b with
    | 0 => some .walkers
    | 1 => some .dirtyLog
    | _ => none
  else if u = 48 then
    match b with
    | 0 => some .collective
    | 1 => some .colLag
    | _ => none
  else if u = 49 then (if b = 0 then some .copygrp else if b ≤ 8 then some .copyEngine else none)
  else if u = 50 then
    match b with
    | 0 => some .pwrtherm
    | 1 => some .droop
    | _ => none
  else if u = 63 then (if b = 0 then some .die else none)
  else none

/-- The kinds of the hub die's pages (R67). -/
def hubPageKind (u b : Nat) : Option PageKind :=
  match u, b with
  | 0, 0 => some .dispatch
  | 0, 1 => some .dspRings
  | 1, 0 => some .standby
  | 2, 0 => some .hostif
  | 2, 1 => some .hiPcie
  | 2, 2 => some .hiCxl
  | 2, 3 => some .hiIde
  | 2, 4 => some .hiDoe
  | 3, 0 => some .pagealloc
  | 3, 1 => some .paPools
  | 4, 0 => some .intr
  | 4, 1 => some .intrWindows
  | 5, 0 => some .hubprot
  | 6, 0 => some .snapUnit
  | 7, 0 => some .boot
  | 8, 0 => some .journal
  | 9, 0 => some .watchdog
  | 10, 0 => some .mmcbox
  | 63, 0 => some .hubdie
  | _, _ => none

/-- The kinds of a chiplet site's pages (R68). Blocks 1 to 15 of the chiplet belong to the chiplet's vendor. -/
def sitePageKind (u b : Nat) : Option PageKind :=
  match u, b with
  | 0, 0 => some .ucie
  | 0, 1 => some .ucieSideband
  | 0, 2 => some .ucieLink
  | 1, 0 => some .chiplet
  | 1, _ => some .chipletOwn
  | 63, 0 => some .site
  | _, _ => none

/-- The kinds of the device-level pages (R69). -/
def devPageKind (u b : Nat) : Option PageKind :=
  match u, b with
  | 0, 0 => some .policy
  | 1, 0 => some .prot
  | 2, 0 => some .slice
  | 2, b' => if b' ≤ 8 then some .sliceTable else none
  | 3, 0 => some .blocker
  | 4, 0 => some .pace
  | 5, 0 => some .dist
  | 63, 0 => some .dev
  | _, _ => none

/-- The kind of the unit behind a page; `none` for a reserved die, unit or block (R64). -/
def pageKind (p : Nat) : Option PageKind :=
  let d := pageDie p
  let u := pageUnit p
  let b := pageBlock p
  if d < 8 then computePageKind d u b
  else if d = 8 then hubPageKind u b
  else if d = 9 ∨ d = 10 then sitePageKind u b
  else if d = 15 then devPageKind u b
  else none

/-- UNIT_ID.KIND of a page with the common header (R66 to R69); 0 for an extension page. -/
def PageKind.code : PageKind → Nat
  | .tile => 0x01 | .vc => 0x02 | .matrix => 0x03 | .gather => 0x04 | .smu => 0x05 | .codec => 0x06
  | .tstore => 0x07 | .tlb => 0x08 | .cluster => 0x10 | .segment => 0x20 | .port => 0x28 | .sdramc => 0x30
  | .lpddrc => 0x31 | .inner => 0x32 | .path => 0x33 | .walkers => 0x34 | .collective => 0x35 | .copygrp => 0x36
  | .copyEngine => 0x37 | .pwrtherm => 0x38 | .die => 0x11 | .dispatch => 0x40 | .standby => 0x40
  | .hostif => 0x42 | .pagealloc => 0x43 | .intr => 0x44 | .hubprot => 0x45 | .snapUnit => 0x46 | .boot => 0x47
  | .journal => 0x48 | .watchdog => 0x49 | .mmcbox => 0x4A | .hubdie => 0x12 | .ucie => 0x50 | .chiplet => 0x51
  | .site => 0x13 | .policy => 0x60 | .prot => 0x61 | .slice => 0x62 | .blocker => 0x63 | .pace => 0x64
  | .dist => 0x65 | .dev => 0x14
  | .segDir | .segRep | .segRed | .portOptics | .portRoute | .portCredit | .sdRepair | .sdCounters | .lpChannel
  | .lpCounters | .dirtyLog | .colLag | .droop | .dspRings | .hiPcie | .hiCxl | .hiIde | .hiDoe | .paPools
  | .intrWindows | .ucieSideband | .ucieLink | .sliceTable | .chipletOwn => 0

/-- Whether the page carries the common header of R71. -/
def PageKind.hasHeader (k : PageKind) : Bool := k.code != 0

/-- Whether a page is a group page (R31, R70). -/
def PageKind.isGroup : PageKind → Bool
  | .tile | .cluster | .inner | .copygrp | .die | .hubdie | .site | .dev => true
  | _ => false

/-- UNIT_CAP.CTRL: the units that honour UNIT_CTRL (R73). -/
def PageKind.honoursCtrl : PageKind → Bool
  | .policy | .prot | .slice | .blocker | .pace | .dist => false
  | k => k.hasHeader

/-- Whether the page has the common header. -/
def hasHeader (p : Nat) : Bool :=
  match pageKind p with
  | some k => k.hasHeader
  | none => false

/-- The group a header page belongs to and its summary bit there (R70); `none` for DEV and for pages without header. -/
def parentOf (p : Nat) : Option (Nat × Nat) :=
  let d := pageDie p
  let u := pageUnit p
  let b := pageBlock p
  match pageKind p with
  | some .vc | some .matrix | some .gather | some .smu | some .codec | some .tstore | some .tlb =>
    some (pageOf d u 0, b - 1)
  | some .tile => some (pageOf d (16 + u / 5) 0, u % 5)
  | some .cluster => some (pageOf d 63 0, u - 16)
  | some .segment => some (pageOf d 63 0, 3 + (u - 20))
  | some .port => some (pageOf d 63 0, 16 + (u - 36))
  | some .sdramc => some (pageOf d 63 0, 22)
  | some .lpddrc => some (pageOf d 63 0, 23)
  | some .inner => some (pageOf d 63 0, 24)
  | some .walkers => some (pageOf d 63 0, 25)
  | some .collective => some (pageOf d 63 0, 26)
  | some .copygrp => some (pageOf d 63 0, 27)
  | some .pwrtherm => some (pageOf d 63 0, 28)
  | some .path => some (pageOf d 46 0, b - 1)
  | some .copyEngine => some (pageOf d 49 0, b - 1)
  | some .die => some (pageOf 15 63 0, d)
  | some .dispatch | some .standby | some .hostif | some .pagealloc | some .intr | some .hubprot | some .snapUnit
  | some .boot | some .journal | some .watchdog | some .mmcbox => some (pageOf 8 63 0, u)
  | some .hubdie => some (pageOf 15 63 0, 8)
  | some .ucie => some (pageOf d 63 0, 0)
  | some .chiplet => some (pageOf d 63 0, 1)
  | some .site => some (pageOf 15 63 0, d)
  | some .policy => some (pageOf 15 63 0, 16)
  | some .prot => some (pageOf 15 63 0, 17)
  | some .slice => some (pageOf 15 63 0, 18)
  | some .blocker => some (pageOf 15 63 0, 19)
  | some .pace => some (pageOf 15 63 0, 20)
  | some .dist => some (pageOf 15 63 0, 21)
  | _ => none

/-- The members of a group page, with their summary bits (R70). -/
def membersOf (p : Nat) : List (Nat × Nat) :=
  let d := pageDie p
  let u := pageUnit p
  match pageKind p with
  | some .tile => (List.range 10).map fun n => (pageOf d u (1 + n), n)
  | some .cluster => (List.range 5).map fun t => (pageOf d (5 * (u - 16) + t) 0, t)
  | some .inner => ((List.range 9).filter fun t => t != d).map fun t => (pageOf d 46 (1 + t), t)
  | some .copygrp => (List.range 8).map fun n => (pageOf d 49 (1 + n), n)
  | some .die =>
    ((List.range 3).map fun c => (pageOf d (16 + c) 0, c)) ++
    ((List.range 13).map fun n => (pageOf d (20 + n) 0, 3 + n)) ++
    ((List.range 6).map fun n => (pageOf d (36 + n) 0, 16 + n)) ++
    [(pageOf d 44 0, 22), (pageOf d 45 0, 23), (pageOf d 46 0, 24), (pageOf d 47 0, 25), (pageOf d 48 0, 26),
     (pageOf d 49 0, 27), (pageOf d 50 0, 28)]
  | some .hubdie => (List.range 11).map fun n => (pageOf 8 n 0, n)
  | some .site => [(pageOf d 0 0, 0), (pageOf d 1 0, 1)]
  | some .dev =>
    ((List.range 8).map fun c => (pageOf c 63 0, c)) ++ [(pageOf 8 63 0, 8), (pageOf 9 63 0, 9), (pageOf 10 63 0, 10)] ++
    ((List.range 6).map fun n => (pageOf 15 n 0, 16 + n))
  | _ => []

/-- The members a UNIT_CTRL write of a group reaches: all of R70's, but the device-level pages of DEV (R70). -/
def ctrlMembersOf (p : Nat) : List Nat :=
  ((membersOf p).filter fun m => !(pageDie m.1 == 15)).map fun m => m.1

/-- The pages from `p` down to its leaves, at most `fuel` levels of group (R31, R32). -/
def pagesUnder : Nat → Nat → List Nat
  | 0, p => [p]
  | fuel + 1, p => p :: (ctrlMembersOf p).flatMap (pagesUnder fuel)

/-- The chain of groups above a page, nearest first (R31). -/
def groupsAbove : Nat → Nat → List Nat
  | 0, _ => []
  | fuel + 1, p =>
    match parentOf p with
    | some (g, _) => g :: groupsAbove fuel g
    | none => []

/-- Every page of the device that carries the common header (R66 to R70). -/
def allHeaderPages : List Nat :=
  pagesUnder 5 (pageOf 15 63 0) ++ (List.range 6).map fun n => pageOf 15 n 0

/-- Named pages the rules refer to. -/
def pDev : Nat := pageOf 15 63 0
def pDist : Nat := pageOf 15 5 0
def pPace : Nat := pageOf 15 4 0
def pBlocker : Nat := pageOf 15 3 0
def pSlice : Nat := pageOf 15 2 0
def pProt : Nat := pageOf 15 1 0
def pPolicy : Nat := pageOf 15 0 0
def pDispatch : Nat := pageOf 8 0 0
def pDspRings : Nat := pageOf 8 0 1
def pStandby : Nat := pageOf 8 1 0
def pHostif : Nat := pageOf 8 2 0
def pPageAlloc : Nat := pageOf 8 3 0
def pPools : Nat := pageOf 8 3 1
def pIntr : Nat := pageOf 8 4 0
def pWindows : Nat := pageOf 8 4 1
def pHubProt : Nat := pageOf 8 5 0
def pSnap : Nat := pageOf 8 6 0
def pBoot : Nat := pageOf 8 7 0
def pJournal : Nat := pageOf 8 8 0
def pWatchdog : Nat := pageOf 8 9 0
def pMmcBox : Nat := pageOf 8 10 0
/-- Tile header, cluster, segment, port, memory controllers, walkers, engines of compute die `d`. -/
def pTile (d u : Nat) : Nat := pageOf d u 0
def pVC (d u n : Nat) : Nat := pageOf d u (1 + n)
def pMatrix (d u : Nat) : Nat := pageOf d u 5
def pGather (d u : Nat) : Nat := pageOf d u 6
def pSmu (d u : Nat) : Nat := pageOf d u 7
def pCodec (d u : Nat) : Nat := pageOf d u 8
def pTstore (d u : Nat) : Nat := pageOf d u 9
def pTlb (d u : Nat) : Nat := pageOf d u 10
def pCluster (d c : Nat) : Nat := pageOf d (16 + c) 0
def pSegment (d n : Nat) : Nat := pageOf d (20 + n) 0
def pPort (k : Nat) : Nat := pageOf (k / 6) (36 + k % 6) 0
def pSdramc (d : Nat) : Nat := pageOf d 44 0
def pLpddrc (d : Nat) : Nat := pageOf d 45 0
def pInner (d : Nat) : Nat := pageOf d 46 0
def pWalkers (d : Nat) : Nat := pageOf d 47 0
def pCollective (d : Nat) : Nat := pageOf d 48 0
def pCopyEngine (d n : Nat) : Nat := pageOf d 49 (1 + n)
def pPwrtherm (d : Nat) : Nat := pageOf d 50 0
def pDie (d : Nat) : Nat := pageOf d 63 0

end Sys2Proof.Machine
end

