-- ==== Sys2Proof/Machine/RegTable.lean ====
section
/-! DEFINITION. The block-specific registers of every page: offset, number of words, access code (R18), writable bits
and reset value, as the register maps of the spec list them. A register the maps give as "hw", "fuse" or "strap" has
the value the machine computes or loads; its entry here says 0 and the assumption log names what stands for it. -/

namespace Sys2Proof.Machine

/-- Access codes (R18). A register whose map says "see meaning" has the code of its writable field; its write-only
fields have rows of their own. -/
inductive Acc where
  | ro | rw | w1c | wo | rws | stg
deriving DecidableEq, Repr

/-- One entry of a register map: offset in the page (or in the slice's 480 bytes, R666), words, access, writable bits
over all its words, reset value. A `wide` entry is one 64-bit register; any other is `words` equal 32-bit ones. -/
structure RegSpec where
  off : Nat
  words : Nat
  acc : Acc
  mask : Nat
  reset : Nat
  wide : Bool
deriving DecidableEq, Repr

/-- Registers of the dist page (R51). -/
def regs_dist : List RegSpec :=
  [
   ⟨0x100, 1, .rw, 0x80003FFF, 0x0, false⟩,  -- DIST_INDEX
   ⟨0x104, 1, .ro, 0xFFFFFFFF, 0x0, false⟩,  -- DIST_DATA
   ⟨0x108, 1, .ro, 0xFFFFFFFF, 0x0, false⟩,  -- DIST_GEN
   ⟨0x10C, 1, .ro, 0xFFFFFF, 0x0, false⟩  -- DIST_SHAPE
  ]

/-- Registers of the snapUnit page (R94). -/
def regs_snapUnit : List RegSpec :=
  [
   ⟨0x100, 1, .rw, 0xFF0F, 0x0, false⟩,  -- SNAP_CFG
   ⟨0x104, 1, .wo, 0x1, 0x0, false⟩,  -- SNAP_FIRE
   ⟨0x108, 1, .wo, 0x1, 0x0, false⟩,  -- SNAP_RELEASE
   ⟨0x10C, 1, .ro, 0xFF0F, 0x0, false⟩,  -- SNAP_STAT
   ⟨0x110, 1, .ro, 0xFFFF, 0x0, false⟩,  -- SNAP_SEQ
   ⟨0x114, 1, .ro, 0xFFFFFFFF, 0x0, false⟩,  -- SNAP_MISSED
   ⟨0x118, 1, .ro, 0xFFFFFFFF, 0x0, false⟩,  -- SNAP_PIN_EXTRA
   ⟨0x120, 2, .ro, 0xFFFFFFFFFFFFFFFF, 0x0, true⟩  -- SNAP_LAST_TS
  ]

/-- Registers of the tile page (R151). -/
def regs_tile : List RegSpec :=
  [
   ⟨0x100, 1, .ro, 0x83FFFFFF, 0x0, false⟩,  -- TILE_CTX
   ⟨0x104, 1, .ro, 0x1FFF, 0x0, false⟩,  -- TILE_RING
   ⟨0x108, 1, .ro, 0xFFFFFFFF, 0x0, false⟩,  -- TILE_SEQ
   ⟨0x10C, 1, .ro, 0x1FFFFFFF, 0x0, false⟩,  -- TILE_CFG
   ⟨0x110, 2, .ro, 0xFFFFFFFFFFFFFFFF, 0x0, true⟩,  -- RESIDENT
   ⟨0x118, 2, .ro, 0xFFFFFFFFFFFFFFFF, 0x0, true⟩,  -- PARK_STAT
   ⟨0x120, 1, .wo, 0xFFFF, 0x0, false⟩,  -- PARK_CTRL
   ⟨0x124, 1, .ro, 0xFFFFFFFF, 0x0, false⟩  -- PARK_IGNORED
  ]

/-- Registers of the vc page (R152). -/
def regs_vc : List RegSpec :=
  [
   ⟨0x100, 1, .ro, 0x3FFF, 0x0, false⟩,  -- VC_RES
   ⟨0x104, 1, .ro, 0x3FFF, 0x0, false⟩,  -- VC_QUEUES
   ⟨0x108, 1, .ro, 0x1F, 0x0, false⟩,  -- VC_FLAGS
   ⟨0x10C, 1, .rw, 0xF, 0x0, false⟩,  -- VC_DBG_SEL
   ⟨0x110, 2, .ro, 0xFFFFFFFFFFFFFFFF, 0x0, true⟩,  -- VC_DBG_PC
   ⟨0x118, 1, .ro, 0xFFFFFFFF, 0x0, false⟩,  -- VC_DBG_MASK
   ⟨0x11C, 1, .ro, 0x7, 0x0, false⟩  -- VC_DBG_STATE
  ]

/-- Registers of the tstore page (R154). -/
def regs_tstore : List RegSpec :=
  [
   ⟨0x100, 1, .ro, 0x3FF, 0x0, false⟩,  -- TS_CFG
   ⟨0x104, 1, .rws, 0xFFFFFFFF, 0x0, false⟩,  -- TS_CE_COUNT
   ⟨0x108, 1, .rws, 0xFFFFFFFF, 0x0, false⟩,  -- TS_UE_COUNT
   ⟨0x10C, 1, .ro, 0xFFFFFFFF, 0x0, false⟩,  -- TS_REPAIR
   ⟨0x110, 1, .ro, 0x8001FFFF, 0x0, false⟩,  -- TS_LAST_UE
   ⟨0x114, 1, .rw, 0xFFFFFFFF, 0x40, false⟩  -- TS_CE_THRESH
  ]

/-- Registers of the cluster page (R155, R157). -/
def regs_cluster : List RegSpec :=
  [
   ⟨0x100, 1, .ro, 0xFFFFFFFF, 0x0, false⟩,  -- CL_BAR0
   ⟨0x104, 1, .ro, 0xFFFFFFFF, 0x0, false⟩,  -- CL_BAR1
   ⟨0x108, 2, .ro, 0xFFFFFFFFFFFFFFFF, 0x0, true⟩,  -- CL_REMOTE
   ⟨0x110, 2, .ro, 0xFFFFFFFFFFFFFFFF, 0x0, true⟩,  -- CL_BAR_DONE
   ⟨0x200, 2, .rw, 0xFFFFFFFFFFFFF000, 0x0, true⟩,  -- PARK_BASE
   ⟨0x208, 1, .rw, 0x1F, 0x6, false⟩,  -- PARK_SIZE
   ⟨0x20C, 1, .ro, 0x1FFFF, 0x0, false⟩,  -- PARK_PROD
   ⟨0x210, 1, .rw, 0x1FFFF, 0x0, false⟩,  -- PARK_CONS
   ⟨0x214, 1, .ro, 0xFFFFFFFF, 0x0, false⟩  -- PARK_HELD_CNT
  ]

/-- Registers of the matrix page (R202). -/
def regs_matrix : List RegSpec :=
  [
   ⟨0x100, 1, .ro, 0x7, 0x0, false⟩,  -- MX_MODE
   ⟨0x104, 1, .ro, 0xFFFFFFFF, 0x0, false⟩,  -- MX_QSTAT0
   ⟨0x108, 1, .ro, 0xFFFFFFFF, 0x0, false⟩,  -- MX_QSTAT1
   ⟨0x10C, 1, .ro, 0xFFFFFFFF, 0x0, false⟩,  -- MX_QSTAT2
   ⟨0x110, 1, .ro, 0xFFFFFFFF, 0x0, false⟩,  -- MX_QSTAT3
   ⟨0x114, 1, .ro, 0xF, 0x0, false⟩,  -- MX_QERR
   ⟨0x118, 1, .ro, 0xFFFFFFFF, 0x0, false⟩,  -- MX_ERRSEQ01
   ⟨0x11C, 1, .ro, 0xFFFFFFFF, 0x0, false⟩,  -- MX_ERRSEQ23
   ⟨0x120, 1, .ro, 0x1F, 0x0, false⟩,  -- MX_FLAGS
   ⟨0x124, 1, .ro, 0x3FF, 0x0, false⟩  -- MX_ERRCODE
  ]

/-- Registers of the gather page (R248). -/
def regs_gather : List RegSpec :=
  [
   ⟨0x100, 1, .rw, 0x1F, 0x8, false⟩,  -- GA_CFG
   ⟨0x104, 1, .ro, 0xFF, 0x0, false⟩,  -- GA_STAT
   ⟨0x108, 2, .ro, 0xFFFFFFFFFFFFFFFF, 0x0, true⟩,  -- GA_HOLD_VA
   ⟨0x110, 1, .ro, 0x3FFFFF, 0x0, false⟩,  -- GA_LAST_E0
   ⟨0x114, 1, .ro, 0xFFFFFFFF, 0x0, false⟩,  -- GA_LAST_E1
   ⟨0x118, 1, .ro, 0xFFFFFFFF, 0x0, false⟩,  -- GA_LAST_E2
   ⟨0x11C, 1, .ro, 0xFFFFFFFF, 0x0, false⟩  -- GA_LAST_E3
  ]

/-- Registers of the smu page (R250). -/
def regs_smu : List RegSpec :=
  [
   ⟨0x100, 1, .ro, 0xF, 0x0, false⟩,  -- SMU_STAT
   ⟨0x104, 1, .rws, 0xFFFFFFFF, 0x0, false⟩,  -- SMU_NAN_ROWS
   ⟨0x108, 1, .rws, 0xFFFFFFFF, 0x0, false⟩,  -- SMU_EMPTY_ROWS
   ⟨0x10C, 1, .ro, 0xFFFFFFFF, 0x0, false⟩  -- SMU_MERGE_OUT
  ]

/-- Registers of the codec page (R252). -/
def regs_codec : List RegSpec :=
  [
   ⟨0x100, 1, .ro, 0xF, 0x0, false⟩,  -- CD_STAT
   ⟨0x104, 1, .rws, 0xFFFFFFFF, 0x0, false⟩,  -- CD_NAN_ENC
   ⟨0x108, 1, .rws, 0xFFFFFFFF, 0x0, false⟩,  -- CD_SAT_ENC
   ⟨0x10C, 1, .rws, 0xFFFFFFFF, 0x0, false⟩  -- CD_NAN_DEC
  ]

/-- Registers of the pagealloc page (R292). -/
def regs_pagealloc : List RegSpec :=
  [
   ⟨0x100, 2, .stg, 0xFFFFFFFFFFF00000, 0x0, true⟩,  -- SEQ_TBL_BASE
   ⟨0x108, 1, .ro, 0xFF, 0x0, false⟩,  -- PA_STAT
   ⟨0x10C, 1, .ro, 0x7FFF, 0x0, false⟩  -- PA_ACTIVE
  ]

/-- Registers of the paPools page (R294). -/
def regs_paPools : List RegSpec :=
  [
   ⟨0x100, 1, .rw, 0x3F, 0x0, false⟩,  -- POOL_SEL
   ⟨0x104, 1, .stg, 0x1FFFFF, 0x0, false⟩,  -- POOL_CFG
   ⟨0x108, 2, .stg, 0xFFFFFFFFFFFFFFFF, 0x0, true⟩,  -- POOL_BASE
   ⟨0x110, 1, .stg, 0xFFFFFF, 0x0, false⟩,  -- POOL_LANE_CAP
   ⟨0x114, 1, .stg, 0x1FFFFFFF, 0x0, false⟩,  -- POOL_SEQ
   ⟨0x118, 1, .rw, 0x7F, 0x0, false⟩,  -- POOL_VEC
   ⟨0x11C, 1, .ro, 0xFFFFFFFF, 0x0, false⟩,  -- POOL_STEP
   ⟨0x120, 8, .ro, 0xFFFFFF, 0x0, false⟩,  -- POOL_FREE0–POOL_FREE7
   ⟨0x140, 8, .rw, 0xFFFFFF, 0x0, false⟩,  -- POOL_LOWWM0–POOL_LOWWM7
   ⟨0x160, 1, .w1c, 0xFF, 0x0, false⟩,  -- POOL_WM_STAT
   ⟨0x164, 1, .ro, 0xFFFFFFFF, 0x0, false⟩,  -- POOL_HELD
   ⟨0x168, 1, .ro, 0xFFFFFFFF, 0x0, false⟩  -- POOL_SHORT
  ]

/-- Registers of the segment page (R351). -/
def regs_segment : List RegSpec :=
  [
   ⟨0x100, 1, .rw, 0x7F, 0x24, false⟩,  -- SEG_CFG
   ⟨0x104, 1, .ro, 0xFF, 0x24, false⟩,  -- SEG_WAYS
   ⟨0x108, 1, .ro, 0x3FFFFFFF, 0x0, false⟩,  -- SEG_STAT
   ⟨0x10C, 1, .rw, 0x7F, 0x0, false⟩,  -- SEG_MIGRATE
   ⟨0x110, 1, .ro, 0x3FF, 0x0, false⟩,  -- SEG_MIG_SET
   ⟨0x114, 1, .rws, 0xFFFFFFFF, 0x0, false⟩,  -- SEG_CE_COUNT
   ⟨0x118, 1, .rws, 0xFFFFFFFF, 0x0, false⟩,  -- SEG_UE_COUNT
   ⟨0x11C, 1, .rw, 0xFFFFFFFF, 0x40, false⟩,  -- SEG_CE_THRESH
   ⟨0x120, 1, .rws, 0xFFFFFFFF, 0x0, false⟩,  -- SEG_POISON_CNT
   ⟨0x124, 1, .rws, 0xFFFFFFFF, 0x0, false⟩,  -- SEG_POISON_READS
   ⟨0x128, 1, .ro, 0xFFFFFFFF, 0x0, false⟩,  -- SEG_PLOG_IDX
   ⟨0x180, 32, .rws, 0xFFFFFFFF, 0x0, false⟩  -- SEG_POISON_LOG
  ]

/-- Registers of the segDir page (R353). -/
def regs_segDir : List RegSpec :=
  [
   ⟨0x100, 1, .rw, 0x7FFF, 0x0, false⟩,  -- DIR_DBG_SEL
   ⟨0x108, 2, .ro, 0xFFFFFFFFFFFFFFFF, 0x0, true⟩,  -- DIR_DBG_ENTRY
   ⟨0x110, 1, .ro, 0xFFFF, 0x0, false⟩,  -- DIR_USED
   ⟨0x114, 1, .ro, 0xFFFF, 0x0, false⟩,  -- DIR_BCAST
   ⟨0x118, 1, .ro, 0xFFFF, 0x0, false⟩,  -- DIR_OWNED
   ⟨0x120, 4, .ro, 0xFFFFFFFF, 0x0, false⟩,  -- DIR_AGEN0–DIR_AGEN3
   ⟨0x130, 1, .ro, 0xFFFF, 0x0, false⟩,  -- DIR_RECLAIM
   ⟨0x134, 1, .ro, 0xFFFFFFFF, 0x0, false⟩  -- DIR_STALE_DROP
  ]

/-- Registers of the segRep page (R354). -/
def regs_segRep : List RegSpec :=
  [
   ⟨0x100, 1, .ro, 0x1FFF, 0x0, false⟩,  -- REP_LINES
   ⟨0x108, 2, .ro, 0xFFFFFFFFFFFFFFFF, 0x0, true⟩,  -- REP_HITS
   ⟨0x110, 2, .ro, 0xFFFFFFFFFFFFFFFF, 0x0, true⟩,  -- REP_MISSES
   ⟨0x118, 1, .wo, 0x1, 0x0, false⟩,  -- REP_FLUSH
   ⟨0x11C, 1, .ro, 0xFFFFFFFF, 0x0, false⟩  -- REP_REFUSED
  ]

/-- Registers of the segRed page (R355). -/
def regs_segRed : List RegSpec :=
  [
   ⟨0x100, 1, .ro, 0x3FFF, 0x0, false⟩,  -- RED_BUF
   ⟨0x104, 1, .rw, 0x3F, 0x0, false⟩,  -- RED_ORD_SEL
   ⟨0x108, 2, .ro, 0xFFFFFFFFFFFF, 0x0, true⟩,  -- RED_ORD_TGT
   ⟨0x110, 1, .ro, 0xFFFFFFFF, 0x0, false⟩,  -- RED_ORD_CNT
   ⟨0x114, 1, .ro, 0xFFFFFFFF, 0x0, false⟩  -- RED_NACKS
  ]

/-- Registers of the sdramc page (R426). -/
def regs_sdramc : List RegSpec :=
  [
   ⟨0x100, 1, .ro, 0xFF03, 0x0, false⟩,  -- SD_THERM
   ⟨0x104, 1, .ro, 0x7F, 0x64, false⟩,  -- SD_BW_CAP
   ⟨0x108, 2, .ro, 0xFFFFFFFFFFFFFFFF, 0x0, true⟩,  -- SD_RSVD
   ⟨0x110, 1, .rws, 0xFFFFFFFF, 0x0, false⟩,  -- SD_CE_COUNT
   ⟨0x114, 1, .rws, 0xFFFFFFFF, 0x0, false⟩,  -- SD_UE_COUNT
   ⟨0x118, 1, .rw, 0xFFFFFFFF, 0x40, false⟩,  -- SD_CE_THRESH
   ⟨0x11C, 1, .ro, 0x80FFFFFF, 0x0, false⟩,  -- SD_LAST_UE
   ⟨0x120, 1, .rw, 0x1FF, 0x118, false⟩,  -- SCRUB_CFG
   ⟨0x124, 1, .ro, 0xFFFFFFFF, 0x0, false⟩  -- SCRUB_POS
  ]

/-- Registers of the sdRepair page (R427). -/
def regs_sdRepair : List RegSpec :=
  [
   ⟨0x100, 1, .wo, 0x3FFFFFF, 0x0, false⟩,  -- RP_CMD
   ⟨0x104, 1, .ro, 0x7, 0x0, false⟩,  -- RP_STAT
   ⟨0x108, 1, .ro, 0xFFFFF, 0x0, false⟩,  -- RP_ROWS_USED
   ⟨0x10C, 1, .ro, 0xFFFFF, 0x0, false⟩,  -- RP_ROWS_FITTED
   ⟨0x110, 1, .ro, 0x7F7F, 0x0, false⟩,  -- RP_BANKS
   ⟨0x114, 1, .rw, 0xFF, 0x10, false⟩  -- RP_LOW
  ]

/-- Registers of the sdCounters page (R428). -/
def regs_sdCounters : List RegSpec :=
  [
   ⟨0x100, 1, .rw, 0x1FFFFF, 0x4E20, false⟩,  -- AC_CFG
   ⟨0x104, 1, .rw, 0xFFFFFFFF, 0x64000800, false⟩,  -- AC_NEAR_THR
   ⟨0x108, 1, .rw, 0xFFFFFFFF, 0x64000800, false⟩,  -- AC_HOST_THR
   ⟨0x10C, 1, .ro, 0xFFFFFFFF, 0x0, false⟩,  -- AC_EPOCH_NO
   ⟨0x110, 2, .rw, 0xFFFFFFFFFFFFF000, 0x0, true⟩,  -- NOTIFY_BASE
   ⟨0x118, 1, .rw, 0x1F, 0x6, false⟩,  -- NOTIFY_SIZE
   ⟨0x11C, 1, .ro, 0x1FFFF, 0x0, false⟩,  -- NOTIFY_PROD
   ⟨0x120, 1, .rw, 0x1FFFF, 0x0, false⟩,  -- NOTIFY_CONS
   ⟨0x124, 1, .ro, 0xFFFFFFFF, 0x0, false⟩,  -- NOTIFY_DROPPED
   ⟨0x128, 1, .rw, 0xF, 0x0, false⟩,  -- HWIN_SEL
   ⟨0x130, 2, .rw, 0xFFFFFFFFFFFFFFFF, 0x0, true⟩,  -- HWIN_BASE
   ⟨0x138, 1, .rw, 0x1FFFFF, 0x0, false⟩  -- HWIN_SIZE
  ]

/-- Registers of the lpddrc page (R429). -/
def regs_lpddrc : List RegSpec :=
  [
   ⟨0x100, 1, .rw, 0x3, 0x0, false⟩,  -- LP_CFG
   ⟨0x104, 1, .ro, 0x3F, 0x0, false⟩,  -- LP_STAT
   ⟨0x108, 1, .ro, 0x1FFFF, 0x0, false⟩,  -- LP_POISON
   ⟨0x10C, 1, .rws, 0xFFFFFFFF, 0x0, false⟩,  -- LP_CE_COUNT
   ⟨0x110, 1, .rws, 0xFFFFFFFF, 0x0, false⟩,  -- LP_UE_COUNT
   ⟨0x114, 1, .rw, 0xFFFFFFFF, 0x40, false⟩  -- LP_CE_THRESH
  ]

/-- Registers of the lpChannel page (R430). -/
def regs_lpChannel : List RegSpec :=
  [
   ⟨0x100, 1, .ro, 0x1FF, 0x0, false⟩,  -- CH_STAT
   ⟨0x104, 1, .rws, 0xFFFFFFFF, 0x0, false⟩,  -- CH_LINK_CE
   ⟨0x108, 1, .rws, 0xFFFFFFFF, 0x0, false⟩,  -- CH_LINK_RETRY
   ⟨0x10C, 1, .ro, 0xFFFFFFFF, 0x0, false⟩,  -- CH_ECS
   ⟨0x110, 1, .wo, 0x1FFFFFF, 0x0, false⟩,  -- CH_PPR_CMD
   ⟨0x114, 1, .ro, 0x3FF, 0x0, false⟩  -- CH_PPR_STAT
  ]

/-- Registers of the tlb page (R472). -/
def regs_tlb : List RegSpec :=
  [
   ⟨0x100, 1, .ro, 0x1FFFFFF, 0x0, false⟩,  -- TLB_STAT
   ⟨0x104, 1, .ro, 0xFFFFFFFF, 0x0, false⟩,  -- TLB_INV_ACKS
   ⟨0x108, 1, .rw, 0x3FF, 0x0, false⟩,  -- TLB_DBG_SEL
   ⟨0x10C, 1, .ro, 0xFFFFF, 0x0, false⟩,  -- TLB_DBG_PASID
   ⟨0x110, 2, .ro, 0x800FFFFFFFFF0000, 0x0, true⟩,  -- TLB_DBG_VA
   ⟨0x118, 2, .ro, 0xFFFFFFFFFFFFFFFF, 0x0, true⟩  -- TLB_DBG_PTE
  ]

/-- Registers of the walkers page (R474). -/
def regs_walkers : List RegSpec :=
  [
   ⟨0x100, 1, .ro, 0x1FFFF, 0x0, false⟩,  -- WK_STAT
   ⟨0x110, 1, .rw, 0xFFFFFF, 0x0, false⟩,  -- INV_PASID
   ⟨0x118, 2, .rw, 0x1FFFFFFFF0000, 0x0, true⟩,  -- INV_VA
   ⟨0x120, 2, .rw, 0x1FFFFFFFF, 0x0, true⟩,  -- INV_LEN
   ⟨0x128, 1, .wo, 0xFFFF, 0x0, false⟩,  -- INV_GO
   ⟨0x12C, 1, .ro, 0xFFFF001F, 0x0, false⟩,  -- INV_STAT
   ⟨0x130, 1, .ro, 0xFFFFFFFF, 0x0, false⟩,  -- INV_DONE
   ⟨0x134, 1, .ro, 0xFFFFFFFF, 0x0, false⟩  -- INV_REFUSED
  ]

/-- Registers of the dirtyLog page (R477). -/
def regs_dirtyLog : List RegSpec :=
  [
   ⟨0x100, 1, .rw, 0x3F, 0x0, false⟩,  -- DL_SEL
   ⟨0x108, 2, .rw, 0xFFFFFFFFFFFFF000, 0x0, true⟩,  -- DL_BASE
   ⟨0x110, 1, .rw, 0x1, 0x0, false⟩,  -- DL_CFG
   ⟨0x114, 1, .ro, 0xFFFFFFFF, 0x0, false⟩  -- DL_HARVESTS
  ]

/-- Registers of the dispatch page (R529). -/
def regs_dispatch : List RegSpec :=
  [
   ⟨0x100, 1, .ro, 0x7FFF, 0x0, false⟩,  -- DSP_STAT
   ⟨0x104, 1, .rw, 0x1FFFF, 0x10014, false⟩,  -- AGE_CFG
   ⟨0x108, 1, .ro, 0x1FFFF, 0x0, false⟩,  -- DSP_TASKS
   ⟨0x10C, 1, .ro, 0x1FFFF, 0x0, false⟩,  -- DSP_CMDS
   ⟨0x110, 1, .ro, 0x3FFF, 0x0, false⟩,  -- DSP_CLAIMS
   ⟨0x114, 1, .ro, 0xFFFFFFFF, 0x0, false⟩,  -- DSP_AFF_MISS
   ⟨0x118, 2, .ro, 0xFFFFFFFFFFFFFFFF, 0x0, true⟩  -- DSP_SPILL
  ]

/-- Registers of the dspRings page (R530). -/
def regs_dspRings : List RegSpec :=
  [
   ⟨0x100, 2, .rw, 0xFFFFFFFFFFF80000, 0x0, true⟩,  -- RT_BASE
   ⟨0x108, 1, .rw, 0x1FFF, 0x0, false⟩,  -- RING_SEL
   ⟨0x10C, 1, .wo, 0xF, 0x0, false⟩,  -- RING_CTRL
   ⟨0x110, 1, .ro, 0xFFFF, 0x0, false⟩,  -- RING_STAT
   ⟨0x114, 1, .ro, 0xFFFFFFFF, 0x0, false⟩,  -- RING_SEQ
   ⟨0x118, 1, .ro, 0xFFFFFFFF, 0x0, false⟩,  -- RING_LAST
   ⟨0x11C, 1, .ro, 0x3FFF, 0x0, false⟩  -- SCAN_PEND
  ]

/-- Registers of the port page (R579). -/
def regs_port : List RegSpec :=
  [
   ⟨0x100, 1, .rw, 0x1FFF, 0x0, false⟩,  -- NODE_ID
   ⟨0x104, 1, .rw, 0xFFFF, 0xAB, false⟩,  -- LINK_CFG
   ⟨0x108, 1, .rw, 0x7FFFF, 0x0, false⟩,  -- LINK_EXPECT
   ⟨0x10C, 1, .wo, 0x3, 0x0, false⟩,  -- LINK_CMD
   ⟨0x110, 1, .ro, 0x3FFF, 0x0, false⟩,  -- LINK_STAT
   ⟨0x114, 1, .ro, 0x7FFFF, 0x0, false⟩,  -- LINK_PEER
   ⟨0x118, 1, .ro, 0xFFFFFFF, 0x0, false⟩,  -- LINK_RTT
   ⟨0x11C, 1, .rws, 0xFFFFFFFF, 0x0, false⟩,  -- LINK_RETRAINS
   ⟨0x120, 2, .ro, 0xFFFFFFFFFFFFFFFF, 0x0, true⟩,  -- LINK_FEC_CORR
   ⟨0x128, 1, .rws, 0xFFFFFFFF, 0x0, false⟩,  -- LINK_FEC_UNC
   ⟨0x12C, 1, .rws, 0xFFFFFFFF, 0x0, false⟩,  -- LINK_CRC_ERR
   ⟨0x130, 1, .ro, 0xFFFFFFFF, 0x0, false⟩,  -- LINK_DROPS
   ⟨0x134, 1, .ro, 0xFFFFFFFF, 0x0, false⟩  -- LINK_UNREACH
  ]

/-- Registers of the portOptics page (R581). -/
def regs_portOptics : List RegSpec :=
  [
   ⟨0x100, 1, .ro, 0xFFFFFFFF, 0x76543210, false⟩,  -- LAMBDA_TX
   ⟨0x104, 1, .ro, 0xFFFFFFFF, 0x76543210, false⟩,  -- LAMBDA_RX
   ⟨0x108, 1, .ro, 0xFFFFF, 0x0, false⟩,  -- LAMBDA_STAT
   ⟨0x10C, 1, .rw, 0xFF1F, 0x80E, false⟩,  -- LAMBDA_CFG
   ⟨0x110, 9, .ro, 0xFFFFFFFF, 0x0, false⟩,  -- LAMBDA_SER0–8
   ⟨0x134, 1, .ro, 0xFFFF, 0x0, false⟩,  -- RX_POWER
   ⟨0x138, 1, .wo, 0x7F, 0x0, false⟩  -- LAMBDA_CMD
  ]

/-- Registers of the portRoute page (R582). -/
def regs_portRoute : List RegSpec :=
  [
   ⟨0x100, 1, .rw, 0x80000FFF, 0x0, false⟩,  -- RT_INDEX
   ⟨0x104, 1, .rw, 0x1, 0x0, false⟩,  -- RT_SCOPE
   ⟨0x108, 1, .rw, 0xFFFFFFFF, 0x0, false⟩,  -- RT_ENTRY_LO
   ⟨0x10C, 1, .rw, 0xFFFFFFFF, 0x0, false⟩  -- RT_ENTRY_HI
  ]

/-- Registers of the portCredit page (R583). -/
def regs_portCredit : List RegSpec :=
  [
   ⟨0x100, 1, .rw, 0x7FF, 0x780, false⟩,  -- CR_CFG
   ⟨0x104, 4, .ro, 0x1FFFF, 0x0, false⟩,  -- CR_TX0–CR_TX3
   ⟨0x114, 1, .ro, 0x7FF, 0x0, false⟩,  -- CR_TX_SHARED
   ⟨0x118, 1, .ro, 0xFFF, 0x0, false⟩  -- CR_RX_USED
  ]

/-- Registers of the copyEngine page (R624). -/
def regs_copyEngine : List RegSpec :=
  [
   ⟨0x100, 1, .ro, 0x3FFF, 0x0, false⟩,  -- CE_STAT
   ⟨0x104, 1, .rw, 0x1, 0x0, false⟩,  -- CE_QCFG
   ⟨0x108, 1, .ro, 0x1FFF, 0x0, false⟩,  -- CE_FLOWS
   ⟨0x10C, 1, .ro, 0xFFFFFFFF, 0x0, false⟩,  -- CE_RESEND
   ⟨0x110, 1, .ro, 0xFFFFFFFF, 0x0, false⟩  -- CE_CANCEL
  ]

/-- Registers of the copygrp page (R625). -/
def regs_copygrp : List RegSpec :=
  [
   ⟨0x100, 1, .ro, 0x1FFF, 0x0, false⟩,  -- XE_STAT
   ⟨0x104, 1, .ro, 0xFFFFFFFF, 0x0, false⟩,  -- XE_BUSY_SENT
   ⟨0x108, 1, .ro, 0xFFFFFFFF, 0x0, false⟩,  -- XE_REFUSED
   ⟨0x10C, 1, .wo, 0x7FFFF, 0x0, false⟩  -- XE_FLOW_RESET
  ]

/-- Registers of the collective page (R626). -/
def regs_collective : List RegSpec :=
  [
   ⟨0x100, 1, .ro, 0x7FF, 0x0, false⟩,  -- CO_STAT
   ⟨0x104, 1, .rw, 0xF, 0x0, false⟩,  -- CO_SEL
   ⟨0x108, 1, .ro, 0x3FFFFFFF, 0x0, false⟩,  -- CO_CUR
   ⟨0x10C, 1, .ro, 0xFFFFFFFF, 0x0, false⟩  -- CO_SEQ
  ]

/-- Registers of the colLag page (R627). -/
def regs_colLag : List RegSpec :=
  [
   ⟨0x100, 1, .rw, 0x3F, 0x0, false⟩,  -- LAG_SEL
   ⟨0x104, 1, .ro, 0x3FFF, 0x0, false⟩,  -- LAG_PEER
   ⟨0x108, 1, .ro, 0xFFFFFFFF, 0x0, false⟩,  -- LAG_PACE
   ⟨0x110, 2, .ro, 0xFFFFFFFFFFFFFFFF, 0x0, true⟩,  -- LAG_NS
   ⟨0x118, 1, .ro, 0x3FF, 0x0, false⟩,  -- LAG_WIN
   ⟨0x11C, 1, .ro, 0xFFFFFFFF, 0x0, false⟩,  -- LAG_OVF
   ⟨0x120, 1, .rw, 0x7F, 0x19, false⟩  -- LAG_CFG
  ]

/-- Registers of the pace page (R628). -/
def regs_pace : List RegSpec :=
  [
   ⟨0x100, 1, .ro, 0xFFFFFFFF, 0x0, false⟩,  -- PACE_WORD
   ⟨0x104, 1, .rw, 0x7FFFF, 0x1E0E6, false⟩,  -- PACE_CFG
   ⟨0x108, 1, .ro, 0x3FFFFF, 0x0, false⟩,  -- PACE_MATCH
   ⟨0x10C, 1, .ro, 0xFFFFFFF, 0x0, false⟩  -- PACE_MIN_PEER
  ]

/-- Registers of the prot page (R664). -/
def regs_prot : List RegSpec :=
  [
   ⟨0x100, 1, .ro, 0xFFFFFFFF, 0x0, false⟩,  -- PROT_EPOCH
   ⟨0x104, 1, .rw, 0x4, 0x0, false⟩,  -- PROT_CTRL
   ⟨0x108, 1, .ro, 0x7FF, 0x0, false⟩,  -- PROT_STAT
   ⟨0x110, 2, .stg, 0xFFFFFFFFFFFFF000, 0x0, true⟩,  -- PBT_BASE
   ⟨0x118, 1, .rw, 0x3F, 0x0, false⟩,  -- FN_SEL
   ⟨0x11C, 1, .stg, 0xF, 0x0, false⟩,  -- FN_GRANT
   ⟨0x120, 1, .stg, 0x1FFFFF, 0x0, false⟩,  -- FN_BAR4_PASID
   ⟨0x124, 15, .stg, 0x7FF, 0x7FF, false⟩  -- SSET_MASK1–15
  ]

/-- Registers of the slice page (R665). -/
def regs_slice : List RegSpec :=
  [
   ⟨0x100, 32, .stg, 0xBFBFBFBF, 0x0, false⟩,  -- RGMAP0–RGMAP31
   ⟨0x180, 1, .rw, 0x1FFF, 0x0, false⟩,  -- MIG_RING
   ⟨0x184, 1, .rw, 0x1FFFF, 0x0, false⟩,  -- MIG_HEAD
   ⟨0x188, 1, .rw, 0x1FFFF, 0x0, false⟩,  -- MIG_TAIL
   ⟨0x18C, 1, .rw, 0x1FFFF, 0x0, false⟩,  -- MIG_CQ_HEAD
   ⟨0x190, 1, .rw, 0x1FFFF, 0x0, false⟩,  -- MIG_CQ_TAIL
   ⟨0x194, 1, .rw, 0xFFFFFFFF, 0x0, false⟩,  -- MIG_SEQ
   ⟨0x198, 1, .wo, 0x1, 0x0, false⟩,  -- MIG_CTRL
   ⟨0x1A0, 2, .ro, 0xFFFFFFFFFFFFFFFF, 0x0, true⟩  -- SL_CONTAINED
  ]

/-- Registers of the sliceTable page (R666). -/
def regs_sliceTable : List RegSpec :=
  [
   ⟨0x0, 1, .stg, 0xFFF, 0x0, false⟩,  -- SL_CFG
   ⟨0x4, 1, .rw, 0x1, 0x0, false⟩,  -- SL_CTRL
   ⟨0x8, 1, .ro, 0x1FFFFFF, 0x0, false⟩,  -- SL_STAT
   ⟨0xC, 1, .stg, 0xFFFFFF, 0x10101, false⟩,  -- SL_QOS
   ⟨0x10, 3, .stg, 0xFFFFFFFF, 0x0, false⟩,  -- SL_TILE_RSV0–2
   ⟨0x1C, 1, .stg, 0x1F, 0x0, false⟩,  -- SL_FELT
   ⟨0x20, 1, .stg, 0x7FFFFF, 0x0, false⟩,  -- SL_FAB
   ⟨0x24, 1, .stg, 0xFFFFF, 0x0, false⟩,  -- SL_FAB_PASID
   ⟨0x28, 2, .stg, 0xFFFFFFFFFFFFC000, 0x0, true⟩,  -- SL_FAB_CTR_VA
   ⟨0x30, 2, .ro, 0xFFFFFFFFFFFFFFFF, 0x0, true⟩,  -- SL_ENERGY
   ⟨0x38, 2, .ro, 0xFFFFFFFFFFFFFFFF, 0x0, true⟩,  -- SL_TASKS
   ⟨0x40, 2, .ro, 0xFFFFFFFFFFFFFFFF, 0x0, true⟩  -- SL_XFER_BYTES
  ]

/-- Registers of the hubprot page (R667). -/
def regs_hubprot : List RegSpec :=
  [
   ⟨0x100, 1, .ro, 0xFFFF, 0x0, false⟩,  -- HP_ACKS
   ⟨0x104, 1, .ro, 0x3FFF, 0x0, false⟩,  -- HP_WAIT_UNIT
   ⟨0x108, 1, .ro, 0xFFFFFFFF, 0x0, false⟩,  -- DENIED_CNT
   ⟨0x10C, 1, .ro, 0xFFFFFFFF, 0x0, false⟩  -- DENIED_LAST
  ]

/-- Registers of the intr page (R668). -/
def regs_intr : List RegSpec :=
  [
   ⟨0x100, 2, .ro, 0xFFFFFFFFFFFFFFFF, 0x0, true⟩,  -- INTR_SENT
   ⟨0x108, 1, .rw, 0x7FF, 0x0, false⟩,  -- INTR_REDIR
   ⟨0x110, 2, .w1c, 0xFFFFFFFFFFFFFFFF, 0x0, true⟩  -- REDIR_PEND
  ]

/-- Registers of the watchdog page (R718). -/
def regs_watchdog : List RegSpec :=
  [
   ⟨0x100, 1, .ro, 0xFFFFFFFF, 0x0, false⟩,  -- HB_COUNT
   ⟨0x104, 1, .rw, 0x3, 0x1, false⟩,  -- WD_CFG
   ⟨0x108, 1, .ro, 0x7FF, 0x0, false⟩,  -- WD_STAT
   ⟨0x10C, 1, .wo, 0x3FFF, 0x0, false⟩,  -- WD_DECLARE
   ⟨0x110, 1, .rw, 0x1FFF, 0x0, false⟩,  -- WD_RSEL
   ⟨0x118, 2, .ro, 0xFFFFFFFFFFFFFFFF, 0x0, true⟩,  -- WD_R_TASKS
   ⟨0x120, 2, .ro, 0xFFFFFFFFFFFFFFFF, 0x0, true⟩,  -- WD_R_BYTES
   ⟨0x128, 2, .ro, 0xFFFFFFFFFFFFFFFF, 0x0, true⟩,  -- WD_R_INSNS
   ⟨0x130, 1, .ro, 0xF, 0x0, false⟩,  -- WD_R_STAT
   ⟨0x138, 2, .ro, 0xFFFFFFFFFFFFFFFF, 0x0, true⟩,  -- WD_STALE
   ⟨0x140, 2, .ro, 0xFFFFFFFFFFFFFFFF, 0x0, true⟩,  -- WD_REC_SLICES
   ⟨0x148, 1, .ro, 0x13FFF, 0x0, false⟩,  -- WD_REC_UNIT
   ⟨0x14C, 1, .w1c, 0x1, 0x0, false⟩,  -- HB_STAT
   ⟨0x150, 2, .ro, 0xFFFFFFFFFFFFFFFF, 0x0, true⟩,  -- HB_BASE
   ⟨0x158, 1, .ro, 0xFFFFFFFF, 0x0, false⟩,  -- HB_MISSED
   ⟨0x15C, 1, .wo, 0x1, 0x0, false⟩,  -- HB_REQ
   ⟨0x160, 1, .rw, 0x1FFFF, 0x13C06, false⟩,  -- PN_CFG
   ⟨0x164, 1, .ro, 0xFF1F, 0x0, false⟩,  -- PN_STAT
   ⟨0x168, 1, .ro, 0x7FFFF, 0x0, false⟩  -- WEAR_USED
  ]

/-- Registers of the pwrtherm page (R772). -/
def regs_pwrtherm : List RegSpec :=
  [
   ⟨0x100, 1, .ro, 0x3FFFFFF, 0x0, false⟩,  -- PT_CLK
   ⟨0x104, 1, .ro, 0xFFFFF, 0x0, false⟩,  -- PT_VOLT
   ⟨0x108, 1, .ro, 0xFFF, 0x0, false⟩,  -- PT_TEMP
   ⟨0x10C, 1, .rw, 0xF, 0x0, false⟩,  -- PT_SENSOR_SEL
   ⟨0x110, 1, .ro, 0xFF, 0x0, false⟩,  -- PT_SENSOR
   ⟨0x114, 1, .ro, 0xFFFF, 0x0, false⟩,  -- PT_POWER
   ⟨0x118, 1, .ro, 0x7F, 0x0, false⟩,  -- PT_RAIL_STAT
   ⟨0x120, 2, .ro, 0xFFFFFFFFFFFFFFFF, 0x0, true⟩,  -- PT_E_DIE
   ⟨0x128, 1, .ro, 0xFFFFFFFF, 0x0, false⟩,  -- PT_GATED_US
   ⟨0x12C, 1, .rws, 0xFFFFFFFF, 0x0, false⟩  -- PT_CLAMPS
  ]

/-- Registers of the droop page (R774). -/
def regs_droop : List RegSpec :=
  [
   ⟨0x100, 1, .rw, 0x3FF, 0x228, false⟩,  -- DROOP_CFG
   ⟨0x104, 1, .rws, 0xFFFFFFFF, 0x0, false⟩,  -- DROOP_EVENTS
   ⟨0x108, 2, .ro, 0xFFFFFFFFFFFFFFFF, 0x0, true⟩,  -- DROOP_CYCLES
   ⟨0x110, 1, .rws, 0x3FF, 0x3FF, false⟩  -- DROOP_MIN_MV
  ]

/-- Registers of the blocker page (R775). -/
def regs_blocker : List RegSpec :=
  [
   ⟨0x100, 1, .rw, 0x1FFF, 0x1068, false⟩,  -- BLK_CAP
   ⟨0x104, 1, .ro, 0x1FFF, 0x11F8, false⟩,  -- BLK_CAP_MMC
   ⟨0x108, 1, .rw, 0x3FFF, 0x3390, false⟩,  -- BLK_CFG
   ⟨0x10C, 1, .ro, 0x7FFFF, 0x0, false⟩,  -- BLK_STAT
   ⟨0x110, 1, .ro, 0xFFFF, 0x0, false⟩,  -- BLK_PIN
   ⟨0x114, 1, .ro, 0x1FFFF, 0x0, false⟩,  -- BLK_VIN
   ⟨0x118, 1, .ro, 0xFFF, 0x0, false⟩,  -- BLK_IIN
   ⟨0x120, 2, .ro, 0xFFFFFFFFFFFFFFFF, 0x0, true⟩,  -- BLK_E_MODULE
   ⟨0x128, 2, .ro, 0xFFFFFFFFFFFFFFFF, 0x0, true⟩,  -- BLK_E_UNCHARGED
   ⟨0x130, 1, .rw, 0x1FFF, 0x0, false⟩,  -- BLK_RSEL
   ⟨0x138, 2, .ro, 0xFFFFFFFFFFFFFFFF, 0x0, true⟩,  -- BLK_R_ENERGY
   ⟨0x140, 1, .rw, 0x3FFF, 0x0, false⟩,  -- BLK_PH_SEL
   ⟨0x144, 1, .rw, 0xF, 0x0, false⟩,  -- BLK_PH_PREF
   ⟨0x148, 1, .ro, 0xFFFFFFFF, 0x0, false⟩,  -- BLK_PH_MODEL
   ⟨0x14C, 1, .rw, 0xF, 0x0, false⟩,  -- BLK_SHARE_SEL
   ⟨0x150, 1, .ro, 0x1FFF, 0x0, false⟩,  -- BLK_SHARE
   ⟨0x158, 1, .ro, 0x3FFFFF, 0x0, false⟩,  -- HOLD_STAT
   ⟨0x15C, 1, .ro, 0xFFFFFFFF, 0x0, false⟩,  -- HOLD_LAST_US
   ⟨0x160, 2, .ro, 0xFFFFFFFFFFFFFFFF, 0x0, true⟩,  -- HOLD_NS
   ⟨0x168, 1, .wo, 0xFFFF, 0x0, false⟩,  -- HOLD_TEST
   ⟨0x16C, 1, .ro, 0x7F, 0x0, false⟩,  -- PS_STAT
   ⟨0x170, 1, .ro, 0xFFFFFFFF, 0x0, false⟩,  -- THR_STAT
   ⟨0x174, 1, .rw, 0xFF, 0xA, false⟩  -- HOLD_CFG
  ]

/-- Registers of the boot page (R808). -/
def regs_boot : List RegSpec :=
  [
   ⟨0x100, 1, .ro, 0xFFF07, 0x0, false⟩,  -- BOOT_STAT
   ⟨0x104, 1, .rw, 0x1, 0x0, false⟩,  -- BOOT_CFG
   ⟨0x108, 1, .rw, 0xFFFF, 0x0, false⟩,  -- BOOT_DRV_VER
   ⟨0x10C, 1, .rw, 0x7FFFFF, 0x0, false⟩,  -- BOOT_IMG_LEN
   ⟨0x110, 1, .wo, 0x3, 0x0, false⟩,  -- BOOT_CMD
   ⟨0x114, 1, .ro, 0xFFFFFFFF, 0x0, false⟩,  -- BOOT_WIN_DROP
   ⟨0x118, 1, .ro, 0xFFFFFFFF, 0x0, false⟩,  -- HOLOG_IFVER
   ⟨0x11C, 1, .ro, 0xFFFFFFFF, 0x0, false⟩,  -- HOLOG_VER
   ⟨0x120, 1, .ro, 0xFFFFFFFF, 0x0, false⟩,  -- HOLOG_BUILD
   ⟨0x124, 1, .ro, 0x3F3F, 0x0, false⟩,  -- BOOT_SVN
   ⟨0x128, 1, .ro, 0x3FF, 0x0, false⟩,  -- BOOT_KEYS
   ⟨0x130, 12, .ro, 0xFFFFFFFF, 0x0, false⟩,  -- HOLOG_DIGEST
   ⟨0x160, 1, .ro, 0xFFFFFFFF, 0x0, false⟩,  -- BOOT_COUNT
   ⟨0x164, 1, .ro, 0x7, 0x0, false⟩,  -- BOOT_CAUSE
   ⟨0x168, 1, .ro, 0xFFFFFFFF, 0x0, false⟩,  -- BOOT_TIME_US
   ⟨0x170, 2, .rw, 0xFFFFFFFFFFFFF000, 0x0, true⟩,  -- LOG_BASE
   ⟨0x178, 1, .rw, 0x1F, 0x7, false⟩,  -- LOG_SIZE
   ⟨0x17C, 1, .ro, 0x1FFFFF, 0x0, false⟩,  -- LOG_PROD
   ⟨0x180, 1, .rw, 0x1FFFFF, 0x0, false⟩,  -- LOG_CONS
   ⟨0x184, 1, .ro, 0xFFFFFFFF, 0x0, false⟩,  -- LOG_DROPPED
   ⟨0x188, 1, .rw, 0x3, 0x1, false⟩  -- LOG_LEVEL
  ]

/-- Registers of the journal page (R810). -/
def regs_journal : List RegSpec :=
  [
   ⟨0x100, 1, .ro, 0x1F, 0x0, false⟩,  -- JR_STAT
   ⟨0x104, 1, .ro, 0xFFFFFFFF, 0x0, false⟩,  -- JR_SEQ0
   ⟨0x108, 1, .ro, 0xFFFFFFFF, 0x0, false⟩,  -- JR_SEQ1
   ⟨0x110, 1, .rw, 0x83FFFFFC, 0x0, false⟩,  -- NOR_ADDR
   ⟨0x114, 1, .ro, 0xFFFFFFFF, 0x0, false⟩,  -- NOR_DATA
   ⟨0x118, 1, .ro, 0x3, 0x0, false⟩  -- NOR_STAT
  ]

/-- Registers of the hostif page (R850). -/
def regs_hostif : List RegSpec :=
  [
   ⟨0x100, 1, .ro, 0x3FFF, 0x0, false⟩,  -- HI_STAT
   ⟨0x104, 1, .ro, 0xFFFFFFFF, 0x0, false⟩,  -- HI_REFUSED
   ⟨0x108, 1, .ro, 0x3FF, 0x0, false⟩,  -- HI_BI_OUT
   ⟨0x10C, 1, .ro, 0x1FF, 0x0, false⟩  -- HI_HOLD_Q
  ]

/-- Registers of the mmcbox page (R853). -/
def regs_mmcbox : List RegSpec :=
  [
   ⟨0x100, 1, .wo, 0xFF, 0x0, false⟩,  -- MB_CMD
   ⟨0x104, 1, .rw, 0xFFFFFFFF, 0x0, false⟩,  -- MB_ARG
   ⟨0x108, 1, .ro, 0xFF, 0x0, false⟩,  -- MB_STAT
   ⟨0x10C, 1, .ro, 0x1FF, 0x0, false⟩,  -- MB_LEN
   ⟨0x200, 64, .ro, 0xFFFFFFFF, 0x0, false⟩  -- MB_DATA
  ]

/-- Registers of the hiPcie page (R851). -/
def regs_hiPcie : List RegSpec :=
  [
   ⟨0x100, 1, .rws, 0xFFFFFFFF, 0x0, false⟩,  -- PCIE_CE
   ⟨0x104, 1, .rws, 0xFFFFFFFF, 0x0, false⟩,  -- PCIE_UE
   ⟨0x108, 2, .ro, 0xFFFFFFFFFFFFFFFF, 0x0, true⟩  -- PCIE_FEC
  ]

/-- Registers of the hiCxl page (R851). -/
def regs_hiCxl : List RegSpec :=
  [
   ⟨0x100, 1, .ro, 0x3FF, 0x0, false⟩,  -- CXL_HDM
   ⟨0x104, 1, .ro, 0x1FFF, 0x0, false⟩  -- CXL_CACHE
  ]

/-- Registers of the hiIde page (R851). -/
def regs_hiIde : List RegSpec :=
  [
   ⟨0x100, 1, .ro, 0xF, 0x0, false⟩,  -- IDE_STAT
   ⟨0x104, 1, .rws, 0xFFFFFFFF, 0x0, false⟩  -- IDE_FAILS
  ]

/-- Registers of the hiDoe page (R851). -/
def regs_hiDoe : List RegSpec :=
  [
   ⟨0x100, 1, .ro, 0xF, 0x0, false⟩,  -- DOE_STAT
   ⟨0x104, 1, .ro, 0xFFFFFFFF, 0x0, false⟩  -- DOE_OBJS
  ]

/-- Registers of the ucie page (R852). -/
def regs_ucie : List RegSpec :=
  [
   ⟨0x100, 1, .rw, 0x1FFF, 0x20, false⟩,  -- CS_CFG
   ⟨0x104, 1, .ro, 0xFFFF, 0x0, false⟩,  -- CS_STAT
   ⟨0x108, 2, .stg, 0xFFFFFFFFFFFFFFFF, 0x0, true⟩,  -- CS_APT_BASE
   ⟨0x110, 2, .stg, 0xFFFFFFFFFFFFFFFF, 0x0, true⟩  -- CS_APT_SIZE
  ]

/-- Registers of the ucieSideband page (R852). -/
def regs_ucieSideband : List RegSpec :=
  [
   ⟨0x100, 4, .ro, 0xFFFFFFFF, 0x0, false⟩  -- UC_ID0–UC_ID3
  ]

/-- Registers of the ucieLink page (R852). -/
def regs_ucieLink : List RegSpec :=
  [
   ⟨0x100, 1, .rws, 0xFFFFFFFF, 0x0, false⟩,  -- UC_CRC
   ⟨0x104, 1, .rws, 0xFFFFFFFF, 0x0, false⟩,  -- UC_RETRAINS
   ⟨0x108, 1, .ro, 0xF, 0x0, false⟩,  -- UC_REPAIRED
   ⟨0x10C, 1, .ro, 0xFFFFFFFF, 0x0, false⟩  -- UC_TIMEOUTS
  ]

/-- Registers of the dev page (R91, R92). -/
def regs_dev : List RegSpec :=
  [
   ⟨0x100, 2, .ro, 0xFFFFFFFFFFFFFFFF, 0x0, true⟩,  -- DEV_TIME
   ⟨0x108, 1, .ro, 0xFFFFFFFF, 0x0, false⟩  -- DEV_ID
  ]

/-- Registers of the policy page (R663). -/
def regs_policy : List RegSpec :=
  [
   ⟨0x100, 1, .stg, 0x1, 0x0, false⟩  -- POLICY
  ]

/-- Registers of the lpCounters page (R431). -/
def regs_lpCounters : List RegSpec :=
  [
   ⟨0x100, 1, .rw, 0xFFFFFFFF, 0x64000800, false⟩  -- AC_FAR_THR
  ]

/-- Registers of the intrWindows page (R669). -/
def regs_intrWindows : List RegSpec :=
  [
   ⟨0x100, 64, .stg, 0xFFF, 0x0, false⟩  -- WIN_s
  ]

/-- The register map of each kind of page. -/
def regsOf : PageKind → List RegSpec
  | .dist => regs_dist
  | .snapUnit => regs_snapUnit
  | .tile => regs_tile
  | .vc => regs_vc
  | .tstore => regs_tstore
  | .cluster => regs_cluster
  | .matrix => regs_matrix
  | .gather => regs_gather
  | .smu => regs_smu
  | .codec => regs_codec
  | .pagealloc => regs_pagealloc
  | .paPools => regs_paPools
  | .segment => regs_segment
  | .segDir => regs_segDir
  | .segRep => regs_segRep
  | .segRed => regs_segRed
  | .sdramc => regs_sdramc
  | .sdRepair => regs_sdRepair
  | .sdCounters => regs_sdCounters
  | .lpddrc => regs_lpddrc
  | .lpChannel => regs_lpChannel
  | .tlb => regs_tlb
  | .walkers => regs_walkers
  | .dirtyLog => regs_dirtyLog
  | .dispatch => regs_dispatch
  | .dspRings => regs_dspRings
  | .port => regs_port
  | .portOptics => regs_portOptics
  | .portRoute => regs_portRoute
  | .portCredit => regs_portCredit
  | .copyEngine => regs_copyEngine
  | .copygrp => regs_copygrp
  | .collective => regs_collective
  | .colLag => regs_colLag
  | .pace => regs_pace
  | .prot => regs_prot
  | .slice => regs_slice
  | .sliceTable => regs_sliceTable
  | .hubprot => regs_hubprot
  | .intr => regs_intr
  | .watchdog => regs_watchdog
  | .pwrtherm => regs_pwrtherm
  | .droop => regs_droop
  | .blocker => regs_blocker
  | .boot => regs_boot
  | .journal => regs_journal
  | .hostif => regs_hostif
  | .mmcbox => regs_mmcbox
  | .hiPcie => regs_hiPcie
  | .hiCxl => regs_hiCxl
  | .hiIde => regs_hiIde
  | .hiDoe => regs_hiDoe
  | .ucie => regs_ucie
  | .ucieSideband => regs_ucieSideband
  | .ucieLink => regs_ucieLink
  | .dev => regs_dev
  | .policy => regs_policy
  | .lpCounters => regs_lpCounters
  | .intrWindows => regs_intrWindows
  | _ => []

/-- The entry of a map that covers an offset. -/
def findSpec : List RegSpec → Nat → Option RegSpec
  | [], _ => none
  | r :: t, off => if r.off ≤ off ∧ off < r.off + 4 * r.words then some r else findSpec t off

/-- The map entry of the word at offset `off` of page `p`; the slice tables repeat every 480 bytes (R666). -/
def specAt (p off : Nat) : Option RegSpec :=
  match pageKind p with
  | some .sliceTable => if off < 0x100 then none else findSpec regs_sliceTable ((off - 0x100) % 0x1E0)
  | some k => findSpec (regsOf k) off
  | none => none

/-- The writable bits of one word of a register. -/
def RegSpec.wordMask (r : RegSpec) (off : Nat) : Word :=
  if r.wide then BitVec.ofNat 32 (r.mask / 2 ^ (8 * (off - r.off))) else BitVec.ofNat 32 r.mask

/-- A register key names one stored word: bank × 2^26 + BAR0 offset. Banks are the copies a selector chooses among. -/
def regKey (bank p off : Nat) : Nat := bank * 0x4000000 + p * 0x1000 + off

/-- The value a stored register word has while nothing has written it: its reset value (R21). -/
def regReset (key : Nat) : Word :=
  let p := key % 0x4000000 / 0x1000
  let off := key % 0x1000
  if off < 0x100 then (if off = 0x1C ∧ hasHeader p then 3 else 0)
  else
    match specAt p off with
    | some r => if r.wide ∧ off ≠ r.off then 0 else BitVec.ofNat 32 r.reset
    | none => 0

end Sys2Proof.Machine
end

