-- ==== Sys2Proof/Machine/State.lean ====
section
/-! DEFINITION. The state of the block: every register, queue, buffer, memory, mode and pin the spec gives the part,
as plain data, and the queue of the commands that wait. Sparse maps are lists of (key, value) pairs with rising keys
that list no entry equal to what an unlisted key reads as; Machine/Ops.lean holds their one reader and writer. -/

namespace Sys2Proof.Machine

abbrev Cell := Host.Cell

/-! ### Registers, units and pages (02_register_pages.md) -/

/-- UNIT_STAT.STATE (R75). -/
inductive UState where
  | off | active | draining | faulted | spare | retired | hold
deriving DecidableEq, Repr

/-- The control state of one unit (R74 to R78): state, ENABLE and DRAIN as last written, the generation tag of its
reset domain, and the state that HOLD found. -/
structure UnitSt where
  state : UState := .off
  enable : Bool := false
  drain : Bool := false
  gen : BitVec 8 := 0
  held : UState := .off
deriving DecidableEq, Repr

/-- The fields of a captured error, as ERR_REC holds them but for GEN's COUNT and VALID bits (R84). -/
structure ErrRec where
  cls : Nat := 0
  detail : Nat := 0
  gen : Nat := 0
  addr : Nat := 0
  phys : Bool := false
  addrValid : Bool := false
  ctxValid : Bool := false
  pasid : Nat := 0
  slice : Nat := 0
  ring : Nat := 0
  seq : Nat := 0
  srcDie : Nat := 0
  srcUnit : Nat := 0
  srcLogical : Nat := 0
deriving DecidableEq, Repr

/-- A 32-bit read's shadow (R63): the offset of the low word last read by the requester, and the high word then. -/
structure Shadow where
  off : Nat
  high : Word
deriving DecidableEq, Repr

/-! ### Organisation (01_organisation.md) -/

/-- One inner path of an ordered die pair (R38 to R42): wavelengths failed, whether it is down, and the relay die. -/
structure InnerPath where
  failed : List Nat := []
  down : Bool := false
  relay : Nat := 0
deriving DecidableEq, Repr

/-- What a part's fuses and straps give it, and what boot binds (R5, R26, R27, R36, R37, R854). `spareTile` and
`spareSeg` are the fuses of R854: for cluster 3d + c the spare tile units, for die d the spare segment. -/
structure OrgSt where
  strapPos : List Nat := []
  strapVar : List Nat := []
  tilesPerDie : Nat := 12
  variant : Nat := 0
  order : Nat := 0
  spareTile : List (Nat × List Nat) := []
  spareSeg : List (Nat × Nat) := []
  csPresent : List Bool := [false, false]
  bindTile : List (Nat × Nat) := []
  bindSeg : List (Nat × Nat) := []
  lasersFailed : List Nat := []
  paths : List (Nat × InnerPath) := []
  dist : List (Nat × Word) := []
deriving DecidableEq, Repr

/-! ### Snapshots (02_register_pages.md, Snapshots) -/

/-- The part of the snapshot unit its registers do not show: the last 16 fabric triggers seen, newest first (R99),
the triggers that arrived in HOLD (port, origin, sequence; R575), and the time of the last accepted edge of the SNAP_TRIG pin (R840). -/
structure SnapSt where
  seen : List (Nat × Nat) := []
  waiting : List (Nat × Nat × Nat) := []
  lastPin : Option Nat := none
deriving DecidableEq, Repr

/-! ### Translation (10_translation.md) -/

/-- One TLB entry (R449, R472): PASID, start of the covered range, its size code (0 64 KiB, 1 1 MiB run, 2 2 MiB,
3 32 MiB run, 4 1 GiB, 5 16 GiB run) and the leaf with ADDR the frame of the range's start. -/
structure TlbEntry where
  pasid : Nat
  va : Nat
  size : Nat
  leaf : DWord
deriving DecidableEq, Repr

/-- Why an access is made, as the walk checks it (R445 step 7). -/
inductive AccKind where
  | read | write | exec
deriving DecidableEq, Repr

/-- One page-table walk in flight (R445, R451): the holder's page, the stream, the die whose walkers serve it, the
access, the next level to read, the table there, and whether an overlapping invalidation reached the holder
meanwhile (R457). -/
structure Walk where
  holder : Nat
  stream : Nat
  die : Nat
  pasid : Nat
  va : Nat
  kind : AccKind
  level : Nat
  table : Nat
  stale : Bool := false
deriving DecidableEq, Repr

/-- A non-leaf entry held by a die's walk cache (R453): PASID, level of the entry, the start of its range, the table
it points to. -/
structure WalkCacheEntry where
  pasid : Nat
  level : Nat
  va : Nat
  table : Nat
deriving DecidableEq, Repr

/-- A queued or running range invalidation (R454, R459): tag, PASID (`none` for ALL_PASID), start, length in 64 KiB
units (0: to the top), size mask, the function that wrote it, and the holders still to acknowledge. -/
structure Inval where
  tag : Nat
  pasid : Option Nat
  va : Nat
  len : Nat
  sizes : Nat
  fn : Nat
  waiting : List Nat
deriving DecidableEq, Repr

/-- A stream that waits on a page being moved (R462): holder's page, stream, PASID, virtual address. -/
structure HeldStream where
  holder : Nat
  stream : Nat
  pasid : Nat
  va : Nat
deriving DecidableEq, Repr

/-- Translation state: TLB entries per holder page, walks in flight, walk caches per die, invalidation queues per die
(front first), held streams. -/
structure XlateSt where
  tlb : List (Nat × List TlbEntry) := []
  walks : List Walk := []
  wcache : List (Nat × List WalkCacheEntry) := []
  invals : List (Nat × List Inval) := []
  heldStreams : List HeldStream := []
deriving DecidableEq, Repr

/-! ### Device memory (09_device_memory.md) -/

/-- A repair in progress on a die's near tier (R410): `bank` says BANK, else ROW. -/
structure Repair where
  channel : Nat
  bank : Nat
  row : Nat
  isBank : Bool
deriving DecidableEq, Repr

/-- One access-counter region (R418): count, flag (0 NEUTRAL, 1 HOT, 2 COLD) and consecutive cold epochs. -/
structure Region where
  count : Nat := 0
  flag : Nat := 0
  cold : Nat := 0
deriving DecidableEq, Repr

/-- The memory controllers of one die: thermal level and the times since which the die has been at or below the leave
thresholds of levels 1 to 3 (R401), spare rows used per bank and spare banks used by channel (R410, R413), repairs
committed, a repair in progress, the far tier's poison list (sector numbers, R406) and whether it overflowed,
whether the stack was isolated from its rails (R728), packages
present and trained (R407), codewords scrubbed in each tier (R409), the times to which subchannels pause (R403), hPPR
requests recorded (R430), access counters by source × 2^20 + region (R416). -/
structure MemCtl where
  level : Nat := 0
  leaveSince : List (Option Nat) := [none, none, none]
  rowsUsed : List (Nat × Nat) := []
  bankUsed : List Nat := []
  remaps : List Repair := []
  repair : Option Repair := none
  farPoison : List Nat := []
  farLost : Bool := false
  nearShort : Bool := false
  present : List Bool := [true, true]
  trained : List Bool := [false, false]
  hppr : List Nat := []
  scrubNear : Nat := 0
  scrubFar : Nat := 0
  pausedTo : List (Nat × Nat) := []
  selfRefresh : Bool := false
  regions : List (Nat × Region) := []
deriving DecidableEq, Repr

/-! ### The Felt (07_felt.md) -/

/-- The state of one sector at its home (R305). -/
inductive SState where
  | i | c | d | p
deriving DecidableEq, Repr

/-- Directory modes (R309). -/
inductive DirMode where
  | ptr | owned | bcast
deriving DecidableEq, Repr

/-- A directory entry (R308). The pointers are listed in place; FWD is 0 for none, else 1 + the pointer's index. -/
structure DirEntry where
  mode : DirMode := .ptr
  ptrs : List (Option Nat) := [none, none, none]
  fwd : Nat := 0
  sset : Nat := 0
deriving DecidableEq, Repr

/-- What an open transaction waits for (R324): snoop answers, a Forwarder, memory, or DONE. -/
inductive TPhase where
  | snoop | forward | memory | done
deriving DecidableEq, Repr

/-- What opened a transaction: a request, a directory-entry eviction (R312), an SNP_MKF of a data-way eviction (R324), a
host snoop (R318) that takes the line away or only reads it. -/
inductive TKind where
  | req | dirEvict | mkf | hsnp (inv : Bool)
deriving DecidableEq, Repr

/-- A transaction open at a home (R324 to R327): what opened it, the request, its phase, the agents whose answer is
awaited, the sectors still to come from memory, and the reads merged into its fill. -/
structure Trans where
  kind : TKind := .req
  req : FReq
  phase : TPhase
  waiting : List Nat := []
  fetch : List Nat := []
  merged : List FReq := []
deriving DecidableEq, Repr

/-- A line at its home segment: sector states, the line's bytes by offset, the slice charged (R855), whether it was
allocated as STREAM, the directory entry, the open transaction, the starve queue and the reservation (R322). -/
structure HomeLine where
  sect : List SState := [.i, .i, .i, .i]
  data : List Cell := []
  slice : Option Nat := none
  stream : Bool := false
  dir : Option DirEntry := none
  trans : Option Trans := none
  starve : List Nat := []
  rsvd : Option Nat := none
deriving DecidableEq, Repr

/-- The state an agent holds a line in (R306). -/
inductive AState where
  | s | f | e | m
deriving DecidableEq, Repr

/-- A line held by an agent (R301, R328): state, bytes, poisoned sectors, home segment, and the request to give it up
that is outstanding. -/
structure AgLine where
  st : AState
  data : List Cell := []
  poison : List Nat := []
  seg : Nat := 0
  leaving : Option ReqKind := none
deriving DecidableEq, Repr

/-- Messages of the Felt (R313). -/
inductive FMsgKind where
  | memRd | memWr | snpInv | snpFwd | snpMkf | snpInvHome | hsnp
  | ack | ackClean | ackFwd | miss | nack | go | abort | done
  | fill | fwdData | wbData | memData | atomData
deriving DecidableEq, Repr

/-- One message in flight (R313): kind, home segment, line, the agent it concerns (sender or receiver), stream, the
named requester of SNP_FWD, sectors, data, poisoned sectors, the sender's agent generation, flags, returned value,
detail of a failed operation, and the OWNED flag of SNP_INV_HOME. -/
structure FMsg where
  kind : FMsgKind
  seg : Nat
  line : Nat
  agent : Nat := 0
  stream : Nat := 0
  target : Nat := 0
  sectors : List Nat := []
  data : List Cell := []
  poison : List Nat := []
  agen : Nat := 0
  flags : Nat := 0
  value : Nat := 0
  detail : Nat := 0
  owned : Bool := false
deriving DecidableEq, Repr

/-- A request its agent has sent and has no answer to (R320, R328): the request, its home, whether its fill is
use-once, whether it was NACKed and waits to be sent again. -/
structure PendReq where
  req : FReq
  seg : Nat
  line : Nat
  useOnce : Bool := false
  nacked : Bool := false
deriving DecidableEq, Repr

/-- An order-table entry (R334): the target's address divided by 256, whether LSE, NEXT, CCOUNT, the buffered
contributions by CIDX, and the commands (ring, start number) that have contributed to the open round (R700). -/
structure Order where
  tgt : Nat
  isLse : Bool
  next : Nat
  ccount : Nat
  buf : List (Nat × List Byte) := []
  who : List (Nat × Nat) := []
deriving DecidableEq, Repr

/-- A way change in progress (R298) is shown by `changing`; `agen` are the expected generations of R343; `reclaim` the
agents being reclaimed; `migSet` the sets moved by R348 towards `migTo`; `resetting` that R346 runs;
`marked` that its last reset marked a sector P, `lost` the commands with a contribution in a round lost then (R700);
`stay` that the reset is a FORCE_OFF of a FAULTED segment, which stays FAULTED (R78);
`lostOf` the slices whose lines the last reset marked P (R654). -/
structure SegSt where
  orders : List Order := []
  agen : List (Nat × Nat) := []
  reclaim : List Nat := []
  migTo : Option Nat := none
  resetting : Bool := false
  resetAcks : List Nat := []
  marked : Bool := false
  lost : List (Nat × Nat) := []
  stay : Bool := false
  lostOf : List Nat := []
deriving DecidableEq, Repr

/-- The Felt: home lines by segment × 2^38 + line, agents' lines by agent × 2^38 + line, messages in flight oldest
first, requests outstanding, segments by logical number, generations of the agents and the dead agents. -/
structure FeltSt where
  lines : List (Nat × HomeLine) := []
  copies : List (Nat × AgLine) := []
  net : List FMsg := []
  reqs : List PendReq := []
  segs : List (Nat × SegSt) := []
  agen : List (Nat × Nat) := []
  dead : List Nat := []
deriving DecidableEq, Repr

/-! ### Tiles (03_tiles.md) -/

/-- Why a group parked (R142), with the status class and detail its command completes with. -/
structure ParkInfo where
  cause : Nat
  addr : Nat := 0
  phys : Bool := false
  addrValid : Bool := false
  pc : Nat := 0
  cls : Nat := 0
  detail : Nat := 0
deriving DecidableEq, Repr

/-- What a resident group waits for; the first four are VC_DBG_STATE's (R152). -/
inductive GWait where
  | ready | memory | barTile | barCluster (mem : Bool) | matrix (queue : Nat) (seq : Nat)
deriving DecidableEq, Repr

/-- A load instruction of a group (R122 to R124, R369): space, address form, first destination register, bytes, whether it
bypasses L1, whether it is an acquire, and the range of the acquire's invalidation. -/
structure LoadIns where
  space : Space
  addr : AddrForm
  dst : Nat
  bytes : Nat
  byp : Bool := false
  acq : Bool := false
  range : Option (Nat × Nat) := none
deriving DecidableEq, Repr

/-- A load that waits for scratchpad banks or for a chiplet (R116, R122, R829): the instruction, for each thread that reads
the scratchpad the tile unit and offset, the bytes that have arrived by thread × 64 + number, and the park that poisoned
data will cause. -/
structure PendLoad where
  ins : LoadIns
  threads : List (Nat × Nat × Nat) := []
  got : List Cell := []
  poison : Option ParkInfo := none
deriving DecidableEq, Repr

/-- A thread group in its residency slot (R105, R106, R108): PC, active mask, the masks its branches saved (with the
PC at which each is restored), registers by thread × 256 + register (0 where unlisted), what it waits for, its park,
the writes it has issued that are not yet accepted (R369), a failure of a Felt operation that reaches it
at its next instruction boundary (R142), whether a MEMBAR.ORDER holds its next access behind its earlier ones, and the
load it waits for. -/
structure Group where
  pc : Nat := 0
  mask : BitVec 32 := 0xFFFFFFFF
  stack : List (BitVec 32 × Nat) := []
  regs : List (Nat × Word) := []
  wait : GWait := .ready
  parked : Option ParkInfo := none
  unaccepted : Nat := 0
  pendingFail : Option ParkInfo := none
  ordered : Bool := false
  load : Option PendLoad := none
deriving DecidableEq, Repr

/-- A store-buffer entry (R123): scratchpad (of a tile unit) or memory, the 64 B block's number, its bytes by offset,
whether DEVICE type, the group slots with stores in it, the page frame data of the translation (PASID, memory type,
HOME). -/
structure SbEntry where
  scratch : Bool
  tile : Nat := 0
  block : Nat
  bytes : List Cell
  device : Bool := false
  slots : List Nat := []
  pasid : Nat := 0
  mtype : Nat := 0
  home : Nat := 0
deriving DecidableEq, Repr

/-- A request in a core's replay queue (R116, R124): the group's slot, the tile unit and the 64 B row (offset / 64) of the
scratchpad that lost bank arbitration; or, for a partial overlap, the instruction to replay. -/
structure Replay where
  slot : Nat
  tile : Nat := 0
  row : Nat := 0
  overlap : Option LoadIns := none
deriving DecidableEq, Repr

/-- The launch parameters and identity of the task a tile runs (R103, R151, R493): `no` is the command's number among
those its ring has started, `restore` says that a saved slot is still to be restored (R520). -/
structure Task where
  pasid : Nat
  slice : Nat
  ring : Nat
  seq : Nat
  ringGen : BitVec 8 := 0
  sliceGen : BitVec 8 := 0
  l1 : Nat := 0
  regs : Nat := 16
  groups : Nat := 1
  cw : Nat := 1
  member : Nat := 0
  bar : Nat := 0
  pin : Nat := 0
  index : Nat := 0
  tasks : Nat := 1
  code : Nat := 0
  argVa : Nat := 0
  stepVa : Nat := 0
  pinned : Bool := false
  setTiles : List Nat := []
  no : Nat := 0
  restore : Bool := false
  aborted : Bool := false
  abortAt : Nat := 0
deriving DecidableEq, Repr

/-- A matrix or attention operation in a queue (R137): how many the queue had numbered before it (its number is that
modulo 2^16), its 128-byte descriptor as read at issue (R167), the issuing slot, whether the descriptor could not be
read, whether it was poisoned (R173), and whether an outside store or a crossing operation of another queue met its
regions while it was in flight, so that its outputs are undefined (R140, R172). -/
structure MxOp where
  num : Nat
  desc : List Byte
  slot : Nat := 0
  bad : Bool := false
  poison : Bool := false
  tainted : Bool := false
deriving DecidableEq, Repr

/-- The matrix array of a tile (04_matrix_array.md): split mode in force (R163), the mode an MX.ISSUE waits for (R165),
accumulators by buffer × 65,536 + row × 256 + column (+0 where unlisted) and those that are poisoned, each queue's
operations not yet completed, oldest first, how many each queue has numbered since task start, the first failure of
each queue (number, status class, detail; R141), and the MACs not yet counted in units of 65,536 (R204). -/
structure MxSt where
  split : Bool := false
  wantSplit : Option Bool := none
  acc : List (Nat × Word) := []
  accPoison : List Nat := []
  queues : List (Nat × List MxOp) := []
  next : List (Nat × Nat) := []
  firstFail : List (Nat × (Nat × Nat × Nat)) := []
  macs : Nat := 0
deriving DecidableEq, Repr

/-- An L1 sector (R119): the 256 bytes read from memory, by offset. -/
structure L1Sector where
  data : List Cell := []
  poison : Bool := false
deriving DecidableEq, Repr

/-- One physical tile. `issued` is a task placed on it that has not started. `scratchFree`: the number of the first free value of the bytes of the scratchpad left undefined
at task start (R107), `none` where an unlisted byte is 0; `zeroTo` × 64 KiB are the first offsets, whose unlisted bytes are 0
in any case. `resident` lists the groups by slot, `tags` the park tags,
`parkHeld` the park entries the tile holds (R145), `sb` and `replays` each core's store buffer (oldest first) and
replay queue, `barTile` the slots arrived at BAR.TILE, `retired` the groups retired or removed. -/
structure TileSt where
  issued : Option Task := none
  task : Option Task := none
  prevPasid : Option Nat := none
  prevCmd : Option (Nat × Nat) := none
  l1Size : Nat := 0
  pin : Nat := 0
  scratch : List Cell := []
  scratchFree : Option Nat := none
  zeroTo : Nat := 0
  scratchPoison : List Nat := []
  l1 : List (Nat × L1Sector) := []
  resident : List (Nat × Group) := []
  tags : List (Nat × BitVec 8) := []
  parkHeld : List (List Byte) := []
  sb : List (Nat × List SbEntry) := []
  replays : List (Nat × List Replay) := []
  barTile : List Nat := []
  retired : Nat := 0
  mx : MxSt := {}
deriving DecidableEq, Repr

/-- One barrier instance of a cluster (R130, R156). -/
structure ClusterBar where
  active : Bool := false
  members : List Nat := []
  cw : Nat := 1
  expected : Nat := 0
  arrived : List (Nat × Nat) := []
  phase : Bool := false
  mem : Bool := false
deriving DecidableEq, Repr

/-- Tiles by die × 15 + unit, clusters' barrier instances by (die × 3 + cluster) × 8 + instance,
instances 2 to 6 those of lone tasks on the cluster's tiles. -/
structure TilesSt where
  tiles : List (Nat × TileSt) := []
  bars : List (Nat × ClusterBar) := []
deriving DecidableEq, Repr
/-! ### Submission and dispatch (11_submission.md) -/

/-- RING_STAT.STATE (R524, R530). -/
inductive RState where
  | off | active | draining | guilty
deriving DecidableEq, Repr

/-- The ring table entry in force (R480). -/
structure RingEntry where
  sqVa : Nat := 0
  cqVa : Nat := 0
  pasid : Nat := 0
  sqLog2 : Nat := 4
  cqLog2 : Nat := 4
  prio : Nat := 0
  inflightM1 : Nat := 0
  cqIrq : Bool := false
  vec : Nat := 0
  seq0 : Nat := 0
deriving DecidableEq, Repr

/-- A submission ring (R479 to R488, R501, R524 to R527, R685 to R687): state, entry in force, the four indices modulo
2^17, pending bit, expected sequence number, SEQ of the last record and whether one was written, current phase tag,
generation tag, whether a record could not be written, whether an ENABLE waits for GUILTY to end, how many commands it
has started, and the ended commands (start number, status) since the last BARRIER_COMPLETE that did not end OK. -/
structure Ring where
  state : RState := .off
  ent : RingEntry := {}
  tail : Nat := 0
  head : Nat := 0
  cqHead : Nat := 0
  cqTail : Nat := 0
  pend : Bool := false
  expSeq : Nat := 0
  lastSeq : Nat := 0
  wrote : Bool := false
  phase : Nat := 0
  gen : BitVec 8 := 0
  stuck : Bool := false
  enableReq : Bool := false
  started : Nat := 0
  cover : List (Nat × Nat) := []
deriving DecidableEq, Repr

/-- An entry of a STEP as its allocation phase left it (R266, R274): kind, sequence, front and back trims with their
enables. -/
structure StepEntry where
  kind : Nat
  seq : Nat
  trimLo : Option Nat := none
  trimHi : Option Nat := none
deriving DecidableEq, Repr

/-- A started command whose record is not yet written (R488, R504, R516): ring, number among the ring's started commands,
header fields and bytes, slice, phase tag; whether its unit has taken it and whether it has issued work; the status it
will end with and the status it ended with; sticky flags; energy in µJ with its
remainder in pJ; the next task index; when its tasks became
ready; the age clock, the time to which it is counted and whether it runs; promotions; PRIO and URGENT at the last task
issue; whether it claimed tiles; the entries of a STEP whose stage 5 is to come; the write-home mask (R700). -/
structure Cmd where
  ring : Nat
  no : Nat
  seq : Nat
  opc : Nat
  raw : List Byte := []
  pasid : Nat := 0
  slice : Nat := 0
  irq : Bool := false
  serial : Bool := false
  phase : Nat := 0
  launched : Bool := false
  worked : Bool := false
  fail : Option (Nat × Nat) := none
  status : Option (Nat × Nat) := none
  exc : Nat := 0
  energy : Nat := 0
  frac : Nat := 0
  nextTask : Nat := 0
  startTs : Nat := 0
  endTs : Nat := 0
  readyTs : Nat := 0
  age : Nat := 0
  ageAt : Nat := 0
  ageOn : Bool := false
  promo : Nat := 0
  level : Nat := 0
  prioAt : Nat := 0
  urgentAt : Bool := false
  preempt : Bool := false
  step : List StepEntry := []
  homes : List Nat := []
deriving DecidableEq, Repr

/-- Pinned residency a logical tile holds (R513): context, its slice, PIN_64K of its last command there. -/
structure Resid where
  pasid : Nat
  slice : Nat
  pin : Nat
deriving DecidableEq, Repr

/-- A claimed tile (R517, R518): the claiming command, and the command running there at the claim. -/
structure Claim where
  ring : Nat
  no : Nat
  running : Option (Nat × Nat) := none
deriving DecidableEq, Repr

/-- The dispatcher (11_submission.md, R691 to R694): rings, started commands in order of start, residency and claims by
logical tile, saved slots as (PASID, logical tile, PIN_64K), the round of R515 as weighted counts of the sharing slices,
the ring served last by slice, the dispatcher unit in service, whether a failover is in progress, and the logical tiles
taken out of placement for a substitution (R706), and the tiles moving between slices (R651): logical tile, the slice they
leave, the command that was running there. -/
structure DispSt where
  rings : List (Nat × Ring) := []
  cmds : List Cmd := []
  resid : List (Nat × Resid) := []
  claims : List (Nat × Claim) := []
  saved : List (Nat × Nat × Nat) := []
  round : List (Nat × Nat) := []
  turn : List (Nat × Nat) := []
  primary : Nat := 0
  failover : Bool := false
  paused : Bool := false
  leaving : List Nat := []
  moving : List (Nat × Nat × Option (Nat × Nat)) := []
deriving DecidableEq, Repr

/-! ### The batch steward (06_sequences.md) -/

/-- A fallback record (R283): sequence, layer, page index, lane, slice. -/
structure Fallback where
  seq : Nat
  layer : Nat
  e : Nat
  lane : Nat
  slice : Nat
deriving DecidableEq, Repr

/-- The batch steward: the next step number of each slice's pool (R268), the STEP each pool runs (ring, start number),
the step number of the current or last phase (R293), the fallback records, the active sequences with their slices. -/
structure StewardSt where
  stepNo : List (Nat × Nat) := []
  running : List (Nat × Nat × Nat) := []
  lastNo : Nat := 0
  fallback : List Fallback := []
  active : List (Nat × Nat) := []
deriving DecidableEq, Repr
/-! ### Links and forwarding (12_birore_links.md) -/

/-- A packet of the fabric (R539, R558): source and destination node, source queue, message type, packet sequence, ORD,
payload bytes. -/
structure Packet where
  src : Nat
  dst : Nat
  queue : Nat
  typ : Nat
  pseq : Nat := 0
  ord : Bool := false
  payload : List Byte := []
deriving DecidableEq, Repr

/-- A wavelength move in progress (R549): lane, new wavelength, the FSEQ at which both ends switch, whether it is this
end's transmit direction, whether the two ends agree. -/
structure Subst where
  lane : Nat
  wl : Nat
  atFseq : Nat
  tx : Bool
  agreed : Bool := false
deriving DecidableEq, Repr

/-- A port beside its registers (R543 to R575). LSTATE, width, SWAPPED, PEER_HOLD and the cause of DOWN stand in LINK_STAT,
lane maps and failed wavelengths in the optics registers. `cfg` is LINK_CFG as taken at the entry to DETECT, `before`
the LSTATE that HOLD found, `sent` the replay buffer (oldest first) of which the last `again` flits are to be sent
again, `replays` how often its first flit was replayed, `dedSent` and `dedFreed` the dedicated credits used and returned
by VC, `shUse` the VCs of the shared credits in use (oldest first), `fDed` and `fSh` the space freed for the peer, `since`
the TC 1 flits sent since the last of TC 0, `turn0` and `turn1` the VC of each class sent last, `lastReq` the input
served last by VC. -/
structure PortSt where
  cfg : Nat := 0xAB
  number : Nat := 0
  retraining : Bool := false
  fails : Nat := 0
  downAt : Nat := 0
  heldDown : Bool := false
  before : Nat := 0
  lostLight : Bool := false
  gotParam : Bool := false
  gotAck : Bool := false
  peerW4 : Bool := false
  agreedWidth : Nat := 0
  txNext : Nat := 0
  sent : List Flit := []
  again : Nat := 0
  replays : Nat := 0
  ackAt : Nat := 0
  lastAck : Nat := 0
  rxNext : Nat := 0
  rxAny : Bool := false
  nak : Bool := false
  dedSent : List Nat := [0, 0, 0, 0]
  dedFreed : List Nat := [0, 0, 0, 0]
  shUse : List Nat := []
  shFreed : Nat := 0
  fDed : List Nat := [0, 0, 0, 0]
  fSh : Nat := 0
  since : Nat := 0
  turn0 : Nat := 1
  turn1 : Nat := 3
  lastReq : List (Nat × Nat) := []
  subst : Option Subst := none
deriving DecidableEq, Repr

/-- What is decided for the packet at the head of an input (R559, R562): delivered here, dropped (with the cause of its
UNREACH notice, if one is due), or an output port and VC with its new hop count. -/
inductive FRoute where
  | deliver
  | drop (cause : Option Nat)
  | out (port vc hops : Nat)
deriving DecidableEq, Repr

/-- A packet that a die is to inject (R557, R609): slice it is charged to, engine, packet. -/
structure InjPkt where
  slice : Option Nat
  engine : Nat
  pkt : Packet
deriving DecidableEq, Repr

/-- The links: ports, routing entries by port × 4,096 + node, input queues by input × 4 + VC (inputs 0 to 47 the ports, 48
to 55 the injectors of the dies), the decision and the flits taken so far of the packet at the head of each, the input
that holds an output VC (by port × 4 + VC), packets to inject by die with the round of R609 and the engine served last
(by die × 64 + slice). -/
structure LinkSt where
  ports : List (Nat × PortSt) := []
  routes : List (Nat × Nat) := []
  inq : List (Nat × List Flit) := []
  route : List (Nat × FRoute) := []
  parts : List (Nat × List Flit) := []
  held : List (Nat × Nat) := []
  inject : List (Nat × List InjPkt) := []
  rounds : List (Nat × List (Nat × Nat)) := []
  turns : List (Nat × Nat) := []
deriving DecidableEq, Repr
/-! ### Transfers, collectives and pace (13_collectives.md) -/

/-- What a message of a copy engine does (R606). -/
inductive MsgKind where
  | copy | flush | fill | dirty (clear : Bool) (slice : Nat) | put | get | signal
deriving DecidableEq, Repr

/-- A message in progress on the copy engines (R606 to R608): its number in order of start, die, engine of its queue
(`none`: any of the die), command, slice, context; what it does; source, destination, length, the position its next
chunk starts at; pattern; peer, queue, counter, bound for a peer in HOLD; the plan step that handed it over (die, slot,
step); its first failed chunk with class and detail; whether a local
chunk met poison; the time of the HELD notice it drew and of its progress since; the CSEQs of chunks that failed without
an ACK, which are cancelled once it has ended (R602). -/
structure Msg where
  id : Nat
  die : Nat
  engine : Option Nat := none
  ring : Nat
  no : Nat
  slice : Nat
  pasid : Nat
  kind : MsgKind
  src : Nat := 0
  dst : Nat := 0
  len : Nat := 0
  pos : Nat := 0
  pattern : Nat := 0
  node : Nat := 0
  queue : Nat := 0
  counter : Nat := 0
  countEn : Bool := false
  holdMs : Nat := 0
  plan : Option (Nat × Nat × Nat) := none
  fail : Option (Nat × Nat × Nat) := none
  started : Bool := false
  poisoned : Bool := false
  heldAt : Option Nat := none
  owed : List Nat := []
deriving DecidableEq, Repr

/-- A step of a collective plan (R611). -/
structure PlanStep where
  op : Nat
  fence : Bool
  countEn : Bool
  counter : Nat
  peer : Nat
  queue : Nat
  cidx : Nat
  a : Nat
  b : Nat
  len : Nat
deriving DecidableEq, Repr

/-- A plan in a slot of a collective engine (R610 to R616): its command, context and header; the peers' nodes by rank;
the steps; the next step to issue; the steps completed; the REDUCE steps issued with the sectors still to send; the first
failed step with class and detail; the time from which a WAIT is charged. -/
structure Plan where
  ring : Nat
  no : Nat
  slice : Nat
  pasid : Nat
  seq : Nat := 0
  holdMs : Nat := 0
  ordered : Bool := false
  bf16 : Bool := false
  isMax : Bool := false
  paceMatch : Bool := false
  rank : Nat := 0
  peers : List Nat := []
  steps : List PlanStep := []
  next : Nat := 0
  done : List Nat := []
  pend : List (Nat × List Nat) := []
  fail : Option (Nat × Nat × Nat) := none
  waitFrom : Option Nat := none
deriving DecidableEq, Repr

/-- A chunk of a flow that has been sent and not acknowledged (R588, R596 to R603): CSEQ, message (`none` once its
transfer has ended), number in the message, bytes, BUSY answers, the time of its next sending, resends under R599, the
packets of a GET chunk accepted, whether a GET chunk is complete, whether it met poison, whether it carries RESYNC, and
the PSEQ of the first packet of its last sending. -/
structure TxChunk where
  cseq : Nat
  msg : Option Nat
  idx : Nat
  len : Nat
  isGet : Bool := false
  isCancel : Option (Nat × Nat) := none
  last : Bool := false
  busy : Nat := 0
  busyAt : Option Nat := none
  resend : Nat := 0
  got : List Nat := []
  full : Bool := false
  poison : Bool := false
  resync : Bool := false
  pseq : Nat := 0
deriving DecidableEq, Repr

/-- The sending side of a flow (R588, R602, R605): next CSEQ, chunks in CSEQ order, cancelled CSEQs not yet named by a
CANCEL, whether the next chunk carries RESYNC. -/
structure FlowTx where
  next : Nat := 0
  chunks : List TxChunk := []
  cancelled : List Nat := []
  resync : Bool := false
deriving DecidableEq, Repr

/-- A receive entry (R594, R595): CSEQ, die that holds it, packets of the chunk and those taken, whether it was answered
REFUSE or BUSY, what counting it does (flag write, counter, bytes, MSG_END), the slice, context and counters it was taken
with; `isGet` for a served GET_REQ, `cancel` for CANCEL itself. -/
structure RxEntry where
  cseq : Nat
  die : Nat
  npkt : Nat
  got : List Nat := []
  signal : Option (Nat × Nat) := none
  countEn : Bool := false
  counter : Nat := 0
  len : Nat := 0
  msgEnd : Bool := false
  slice : Nat := 0
  pasid : Nat := 0
  ctrVa : Nat := 0
  isGet : Bool := false
  cancel : Option (Nat × Nat) := none
deriving DecidableEq, Repr

/-- The receiving side of a flow (R593, R595, R602): expected CSEQ (`none` while empty), entries, CSEQs released by a
CANCEL, and the chunks answered REFUSE or BUSY with the packets of that sending. -/
structure FlowRx where
  expected : Option Nat := none
  entries : List RxEntry := []
  released : List Nat := []
  refused : List (Nat × List Nat) := []
deriving DecidableEq, Repr

/-- A responder's record of the resends of a GET chunk (R599): source queue, requester, CSEQ, resends, the PSEQ of the first packet of its last sending, and the request
itself, to serve it again. -/
structure GetServe where
  queue : Nat
  node : Nat
  cseq : Nat
  resends : Nat := 0
  pseq : Nat := 0
  die : Nat
  header : List Byte
deriving DecidableEq, Repr

/-- An entry of a collective engine's lag table (R618): node, time charged in the open window and in all (ns), the last
ten windows (bit 0 newest), windows closed, last pace bits received and when. -/
structure LagEntry where
  node : Nat
  charged : Nat := 0
  total : Nat := 0
  win : Nat := 0
  windows : Nat := 0
  lagging : Bool := false
  pace : Nat := 0
  paceAt : Option Nat := none
deriving DecidableEq, Repr

/-- The transfer machinery: messages in order of start, flows sent by queue × 4,096 + node and received by
node × 64 + queue, GET chunks being served, plans by die × 16 + slot, lag tables by die, packets delivered to the transfer
engines by die (oldest first), packet sequences by queue × 4,096 + node, rounds of R607 by engine (die × 8 + n) and the
ring served last by engine × 64 + slice, the message served last by engine, and
the chunks (source, queue, CSEQ) for which HELD was sent, and the nodes that are causes of pace matching (R622). -/
structure XferSt where
  nextId : Nat := 0
  msgs : List Msg := []
  tx : List (Nat × FlowTx) := []
  rx : List (Nat × FlowRx) := []
  serves : List GetServe := []
  plans : List (Nat × Plan) := []
  lag : List (Nat × List LagEntry) := []
  inbox : List (Nat × List Packet) := []
  pseq : List (Nat × Nat) := []
  rounds : List (Nat × List (Nat × Nat)) := []
  turns : List (Nat × Nat) := []
  lastMsg : List (Nat × Nat) := []
  heldNotes : List (Nat × Nat × Nat) := []
  causes : List Nat := []
deriving DecidableEq, Repr

/-! ### Protection and slices (14_slices.md) -/

/-- PROT_STAT.STATE (R664). -/
inductive ProtPhase where
  | idle | checking | committing
deriving DecidableEq, Repr

/-- One binding of the PASID binding table (R634): slice, PASID, save-slot size in 64 KiB units, root of the L0 table,
base of the save region. -/
structure Binding where
  slice : Nat
  pasid : Nat
  slot64k : Nat := 0
  root : Option Nat := none
  saveBase : Nat := 0
deriving DecidableEq, Repr

/-- The protection unit (R644 to R649, R861): phase, the snapshot of the staged fields, the bindings in force and the
ones the commit in progress brings, and the pages whose acknowledgement is awaited. -/
structure ProtSt where
  phase : ProtPhase := .idle
  snapshot : List (Nat × Word) := []
  pbt : List Binding := []
  pbtNew : List Binding := []
  waiting : List Nat := []
deriving DecidableEq, Repr

/-- A slice beside its registers (R656, R658, R643): its generation tag, whether it is CONTAINED, and whether it was seen
quiet while quiescing (R658). -/
structure SliceSt where
  gen : BitVec 8 := 0
  contained : Bool := false
  quiet : Bool := false
deriving DecidableEq, Repr
/-! ### Recovery and the watchdog (15_recovery.md) -/

/-- The watchdog, the recovery in progress and Holog's crash dump: HB_COUNT at the last sample (`none`: the next sample
is the first), missed beats in a row, when the last takeover ended, Hatbox triggers not yet served (oldest first), pages
of the units in recovery that are not yet back in service, whether a recovery runs and whether under ORDER_FIRST, the
segments that took part, when a spare row was last fitted to a page's array (R705), and the pages that wait for one. -/
structure RecSt where
  hbLast : Option Nat := none
  misses : Nat := 0
  takeover : Option Nat := none
  hatReq : List Nat := []
  faulty : List Nat := []
  running : Bool := false
  order : Bool := false
  segs : List Nat := []
  fitted : List (Nat × Nat) := []
  due : List Nat := []
deriving DecidableEq, Repr
/-! ### Power, hold and thermal control (16_power.md) -/

/-- The eFuse (R722 to R726): off and free to start, on, or latched. -/
inductive EFuse where
  | off | on | latched
deriving DecidableEq, Repr

/-- The bounds of Blocker on one die (R732, R734, R735, R742): gradient, thermal and MEM_HOT bounds on N, the hardware
clamp, the CAP bound, the times since which the spread, and MR4, have been within limits, the time of the last step
of the gradient bound, the MEM_HOT bound on FCLK, whether issue is gated for the spread. -/
structure DieBounds where
  grad : Nat := 1162
  therm : Nat := 1162
  memHot : Nat := 1162
  cap : Nat := 1162
  clamp : Bool := false
  gradOk : Option Nat := none
  memOk : Option Nat := none
  gradAt : Option Nat := none
  fclk : Nat := 16
  gated : Bool := false
deriving DecidableEq, Repr

/-- The model of one phase (R748): P_NOM in 0.01 W, SENS, and the updates made. -/
structure PhaseModel where
  pnom : Nat := 0
  sens : Nat := 0
  samples : Nat := 0
deriving DecidableEq, Repr

/-- A host access that waits (R759, R821): the function whose BAR4 it is (`none`: CXL.mem), offset or DPA, bytes of a
write, bytes wanted, and for CXL.mem whether the host asks to keep the line (0 no, 1 shared, 2 exclusive). -/
structure HostReq where
  fn : Option Nat := none
  off : Nat
  write : Option (List Byte) := none
  len : Nat := 0
  keep : Nat := 0
deriving DecidableEq, Repr

/-- What HOLD keeps beside the units (R755 to R763): when it was entered, when the TEST cause ends, BAR0 writes that wait
for resumption (requester, offset, data, 64-bit), internal faults that wait (page, class, detail), a device reset that
waits (its cause), slices of VFs whose FLR waits, and host accesses that wait, all oldest first. -/
structure HoldSt where
  enteredAt : Nat := 0
  testUntil : Option Nat := none
  writes : List (Nat × Nat × DWord × Bool) := []
  faults : List (Nat × Nat × Nat) := []
  reset : Option Nat := none
  flr : List Nat := []
  host : List HostReq := []
deriving DecidableEq, Repr

/-- Power: the eFuse and its retries, the input in mV, whether the rails are up, sensor readings by die (°C in two's
complement; the hub is 8, the sites 9 and 10), bounds by die, phase models by slice × 256 + tag, whether THROTTLE_N
counts as asserted, energies below 1 µJ and by ring and slice in pJ, HOLD,
and the 40 newest error records of the journal engine as 48-byte entries, newest first (R766). -/
structure PowerSt where
  efuse : EFuse := .off
  retries : Nat := 0
  vin : Nat := 0
  up : Bool := false
  temps : List (List Nat) := []
  bounds : List (Nat × DieBounds) := []
  models : List (Nat × PhaseModel) := []
  throttle : Bool := false
  moduleFrac : Nat := 0
  uncharged : Nat := 0
  ringEnergy : List (Nat × Nat) := []
  sliceEnergy : List (Nat × Nat) := []
  shares : List Nat := []
  hold : HoldSt := {}
  errRing : List (List Byte) := []
deriving DecidableEq, Repr
/-! ### The NOR and boot (17_firmware.md) -/

/-- One slot of the journal (R767, R800): whether it holds a valid record, its sequence number and boot count, and whether
it is erased. -/
structure JSlot where
  valid : Bool := false
  seq : Nat := 0
  boot : Nat := 0
  erased : Bool := true
deriving DecidableEq, Repr

/-- The 64 MiB SPI NOR (R799): its bytes, erased (0xFF) where unlisted, the entries of the wear record (R710), the boot
count of the module and the boot-count entries programmed, the journal's slots, the slot being erased. -/
structure NorSt where
  bytes : List Cell := []
  wear : Nat := 0
  boots : Nat := 0
  bootEntries : Nat := 0
  slots : List JSlot := [{}, {}]
  erasing : Option Nat := none
deriving DecidableEq, Repr

/-- The boot ROM and Holog's image (R778 to R803): the fuses and straps read at power-on, PERST_N, chiplet sites still to be
discovered, the image SRAM, whether the image runs in test mode, when the ROM and START began, whether memory is to be
initialised, the internal log ring (newest last, at most 2,048 entries), entries since device reset, and the entries
that wait for LOG_BASE. -/
structure BootSt where
  part : Part := {}
  perst : Bool := false
  toFind : List Nat := []
  image : List Cell := []
  test : Bool := false
  romAt : Nat := 0
  startAt : Nat := 0
  fresh : Bool := false
  log : List (List Byte) := []
  logSeq : Nat := 0
  unsent : List (List Byte) := []
deriving DecidableEq, Repr

/-- One SPDM session (R805): its number, whether FINISH has completed it, and how often its keys were updated. -/
structure SpdmSession where
  id : Nat
  established : Bool := false
  updates : Nat := 0
deriving DecidableEq, Repr

/-- The SPDM responder (R805, R806): how far the negotiation has come (0 nothing, 1 version, 2 capabilities, 3
algorithms), and the sessions. -/
structure SpdmSt where
  stage : Nat := 0
  sessions : List SpdmSession := []
deriving DecidableEq, Repr
/-! ### Interfaces (18_interfaces.md) -/

/-- An SNP_INV of a home segment that waits for the host's BIRsp for a line (R821). -/
structure BiWait where
  line : Nat
  seg : Nat
deriving DecidableEq, Repr

/-- A raw request a site has outstanding (R829, R830): tag, whether a write, offset, bytes, the group (die, tile unit, slot)
and thread that issued it with the number of the first byte a read fills, and the command it is made for. -/
structure RawReq where
  site : Nat
  tag : Nat
  write : Bool
  off : Nat
  len : Nat
  slot : Option (Nat × Nat × Nat) := none
  thread : Nat := 0
  first : Nat := 0
  cmd : Option (Nat × Nat) := none
deriving DecidableEq, Repr

/-- The host link and the chiplet sites beside their registers: lines the host may hold (1 shared, 2 owned; R821), BISnp
messages that wait for BIRsp, raw requests outstanding, oldest first, the next tag of each site, and each site's CS_CFG.SLICE in
effect. -/
structure HostSt where
  lines : List (Nat × Nat) := []
  biWait : List BiWait := []
  raw : List RawReq := []
  nextTag : List (Nat × Nat) := []
  siteSlice : List (Nat × Nat) := []
deriving DecidableEq, Repr

/-- Entries of the MMC's log (R836). -/
inductive MmcEvent where
  | power | efuse | polarity | leak | command (code : Nat)
deriving DecidableEq, Repr

/-- The management controller (R832 to R836, R842): whether 3V3_AUX is up and it is ready, MOD_ID as sampled, whether
the bus is I3C, PS_STAT, the cap it was set, its log with times (newest last, at most 4,096), its running and spare
firmware banks, whether the spare bank holds firmware for the next restart, whether a leak was reported, and its clock
beside DEV_TIME. -/
structure MmcSt where
  ready : Bool := false
  modId : Nat := 0
  i3c : Bool := false
  psStat : Word := 0
  cap : Nat := 4600
  log : List (Nat × MmcEvent) := []
  bank : List Byte := []
  spareBank : List Byte := []
  newBank : Bool := false
  leak : Bool := false
  base : Nat := 0
deriving DecidableEq, Repr

/-! ### What the block puts out -/

/-- What the block sends outside or answers (newest first in `State.out`). -/
inductive Out where
  /-- MSI-X vector of a PCIe function (R82, R642). -/
  | msix (fn vec : Nat)
  /-- An event message delivered to Holog, naming the page (R82, R83). -/
  | holog (page : Nat)
  /-- Data returned to a register read by a requester (R61 to R63). -/
  | readData (req : Nat) (off : Nat) (data : Nat)
  /-- A fabric snapshot trigger sent on a port: origin node and sequence (R99). -/
  | snapTrig (port origin seq : Nat)
  /-- The answer to a host snoop of a line (R318): whether it took the line away, whether it found it clean. -/
  | hostSnoop (line : Nat) (inv clean : Bool)
  /-- An atomic's result delivered to its requester (R313): agent, stream, old value, flags, failure detail. -/
  | atomResult (agent stream value flags detail : Nat)
  /-- A data flit sent on a port (R551). -/
  | flit (port : Nat) (f : Flit)
  /-- A link message a port begins to send (R542). -/
  | linkMsg (port : Nat) (m : LinkMsg)
  /-- Data returned to a host read through BAR4 or CXL.mem, and whether it is poisoned (R817 to R821). -/
  | hostRead (fn : Option Nat) (off : Nat) (data : List Byte) (poison : Bool)
  /-- BISnpInv or BISnpData to the host for a line (R821). -/
  | biSnp (line : Nat) (inv : Bool)
  /-- A raw message to a chiplet: site, tag, write data if any, offset, bytes (R829). -/
  | rawMsg (site tag : Nat) (write : Option (List Byte)) (off len : Nat)
  /-- A CXL.io memory request to a chiplet in CXL mode: site, write data if any, offset, bytes (R828). -/
  | cxlIo (site : Nat) (write : Option (List Byte)) (off len : Nat)
  /-- Data a chiplet's refused read gets: poisoned (R828). -/
  | chipletRefused (site pa : Nat)
  /-- An SPDM response over DOE: the request's code, whether it was refused, the bytes the spec gives. -/
  | spdm (request : Nat) (ok : Bool) (data : List Byte)
  /-- The MMC's status (R834): PS_STAT, effective cap and its source, HOLD_STAT (both unavailable without the device), the
  last 16 log entries. -/
  | mmcStatus (ps : Word) (cap : Option (Nat × Nat)) (hold : Option Word) (log : List (Nat × MmcEvent))
  /-- Log entries from an index (R834). -/
  | mmcLog (start : Nat) (log : List (Nat × MmcEvent))
  /-- A management command refused (R834, R835). -/
  | mmcRefused (code : Nat)
  /-- A PLDM sensor's or state's value; `none` while it is unavailable (R833, R836). -/
  | pldm (sensor : PldmSensor) (value : Option Nat)
  /-- The PLDM event of a coolant flow below 6 L/min, in 0.1 L/min (R845). -/
  | pldmFlow (flow : Nat)
  /-- The MMC has taken firmware into its spare bank (R833). -/
  | pldmFirmware
deriving DecidableEq, Repr

/-! ### The whole state -/

/-- Every piece of state of the block, and the queue of the commands that wait (front first). `ringProg` holds the three
progress counters of every ring (R689), by ring × 3 + counter. -/
structure State where
  pending : List Instr := []
  now : Nat := 0
  out : List Out := []
  freeCtr : Nat := 0
  alertN : Bool := false
  inHold : Bool := false
  mem : List Cell := []
  nearMarks : List Nat := []
  regs : List (Nat × Word) := []
  committed : List (Nat × Word) := []
  units : List (Nat × UnitSt) := []
  prot : ProtSt := {}
  slices : List (Nat × SliceSt) := []
  shadows : List (Nat × Shadow) := []
  org : OrgSt := {}
  snap : SnapSt := {}
  xlate : XlateSt := {}
  memctl : List (Nat × MemCtl) := []
  felt : FeltSt := {}
  tiles : TilesSt := {}
  nor : NorSt := {}
  disp : DispSt := {}
  steward : StewardSt := {}
  xfer : XferSt := {}
  links : LinkSt := {}
  recov : RecSt := {}
  power : PowerSt := {}
  boot : BootSt := {}
  spdm : SpdmSt := {}
  host : HostSt := {}
  mmc : MmcSt := {}
  ringProg : List (Nat × Nat) := []
deriving DecidableEq, Repr

/-- What stops the block. -/
inductive Fault where
  /-- A memory controller is asked for a physical address that no tier, host range or window backs (R393, R394): the
  spec gives such an access no effect. Raised by MEMRD and MEMWR only. Safe. -/
  | unbackedAddress (pa : Nat)
deriving DecidableEq, Repr

/-- What the model has no meaning for. -/
inductive Refusal where
  /-- The command has no meaning yet. Raised by no meaning of this model. Safe. -/
  | notModelled (mnemonic : String)
deriving DecidableEq, Repr

/-- The block right after power is applied and before any command: nothing queued, every register at the reset value
its map gives (an unlisted entry of `regs` reads as `regReset`), memory with nothing listed. -/
def State.reset : State := {}

end Sys2Proof.Machine
end

