-- ==== Sys2Proof/Machine/Ops.lean ====
section
/-! DEFINITION. The named operations over the block's state that every meaning is written with: sparse maps, bit
fields, stored registers, unit records, free values, bytes of memory and the physical map. -/

namespace Sys2Proof.Machine

/-! ### Sparse maps -/

/-- What a sparse map reads as at a key, `d` giving the value of an unlisted key. -/
def sget {β : Type} (d : Nat → β) : List (Nat × β) → Nat → β
  | [], k => d k
  | e :: t, k => if e.1 = k then e.2 else sget d t k

/-- A sparse map without a key's entry. -/
def serase {β : Type} (k : Nat) (m : List (Nat × β)) : List (Nat × β) := m.filter fun e => decide (e.1 ≠ k)

/-- An entry put in front of the first entry with a larger key. -/
def sinsert {β : Type} (k : Nat) (v : β) : List (Nat × β) → List (Nat × β)
  | [] => [(k, v)]
  | e :: t => if k < e.1 then (k, v) :: e :: t else e :: sinsert k v t

/-- A sparse map with a key's value set; writing the value an unlisted key reads as removes the entry. -/
def sput {β : Type} [DecidableEq β] (d : Nat → β) (m : List (Nat × β)) (k : Nat) (v : β) : List (Nat × β) :=
  if v = d k then serase k m else sinsert k v (serase k m)

/-- The canonical form of a sparse map: rising keys, no entry equal to what its key reads as unlisted. -/
abbrev sparseWf {β : Type} (d : Nat → β) (m : List (Nat × β)) : Prop :=
  List.Pairwise (fun a b => a.1 < b.1) m ∧ ∀ e ∈ m, e.2 ≠ d e.1

/-- The value listed for a key, if any. -/
def slook {β : Type} : List (Nat × β) → Nat → Option β
  | [], _ => none
  | e :: t, k => if e.1 = k then some e.2 else slook t k

/-- A map with a key's value listed. -/
def sadd {β : Type} (m : List (Nat × β)) (k : Nat) (v : β) : List (Nat × β) := sinsert k v (serase k m)

/-- A list used as a set, with an element added. -/
def setAdd (x : Nat) (l : List Nat) : List Nat := if l.contains x then l else x :: l

/-- A list used as a set, without an element. -/
def setDel (x : Nat) (l : List Nat) : List Nat := l.filter fun y => decide (y ≠ x)

/-! ### Bit fields -/

/-- The field [hi:lo] of a word (R12). -/
def fld (w : Word) (hi lo : Nat) : Nat := w.toNat / 2 ^ lo % 2 ^ (hi - lo + 1)

/-- One bit of a word. -/
def bitOf (w : Word) (n : Nat) : Bool := w.toNat / 2 ^ n % 2 == 1

/-- The word with only bit `n` set. -/
def oneBit (n : Nat) : Word := BitVec.ofNat 32 (2 ^ n)

/-- A word with its field [hi:lo] replaced. -/
def setFld (w : Word) (hi lo v : Nat) : Word :=
  BitVec.ofNat 32 (w.toNat / 2 ^ (hi + 1) * 2 ^ (hi + 1) + v % 2 ^ (hi - lo + 1) * 2 ^ lo + w.toNat % 2 ^ lo)

/-- The field [hi:lo] of a natural number. -/
def nfld (v hi lo : Nat) : Nat := v / 2 ^ lo % 2 ^ (hi - lo + 1)

/-- Bit `n` of a natural number. -/
def nbit (v n : Nat) : Bool := v / 2 ^ n % 2 == 1

/-- 1 for true. -/
def b2n (b : Bool) : Nat := if b then 1 else 0

/-- The bytes of a number, little-endian. -/
def leBytes : Nat → Nat → List Byte
  | 0, _ => []
  | n + 1, v => BitVec.ofNat 8 v :: leBytes n (v / 256)

/-- The number little-endian bytes spell. -/
def leNat : List Byte → Nat
  | [] => 0
  | b :: t => b.toNat + 256 * leNat t

/-- `n` saturating at 2^32 − 1. -/
def sat32 (n : Nat) : Word := BitVec.ofNat 32 (min n 0xFFFFFFFF)

/-! ### Stored registers -/

/-- A stored register word. -/
def rdKey (s : State) (key : Nat) : Word := sget regReset s.regs key

/-- A stored register word written by the hardware. -/
def wrKey (key : Nat) (v : Word) (s : State) : State := { s with regs := sput regReset s.regs key v }

/-- The stored word at offset `off` of page `p`. -/
def rd (s : State) (p off : Nat) : Word := rdKey s (regKey 0 p off)

/-- Write the stored word at offset `off` of page `p`. -/
def wr (p off : Nat) (v : Word) (s : State) : State := wrKey (regKey 0 p off) v s

/-- The stored word of a banked register. -/
def rdB (s : State) (bank p off : Nat) : Word := rdKey s (regKey bank p off)

/-- Write a banked register. -/
def wrB (bank p off : Nat) (v : Word) (s : State) : State := wrKey (regKey bank p off) v s

/-- A 64-bit register: two words, low word first (R61). -/
def rd64B (s : State) (bank p off : Nat) : Nat := (rdB s bank p off).toNat + (rdB s bank p (off + 4)).toNat * 0x100000000

def rd64 (s : State) (p off : Nat) : Nat := rd64B s 0 p off

/-- Write a 64-bit register. -/
def wr64B (bank p off v : Nat) (s : State) : State :=
  wrB bank p (off + 4) (BitVec.ofNat 32 (v / 0x100000000)) (wrB bank p off (BitVec.ofNat 32 v) s)

def wr64 (p off v : Nat) (s : State) : State := wr64B 0 p off v s

/-- A 32-bit count that saturates at 2^32 − 1, advanced. -/
def satInc (p off n : Nat) (s : State) : State := wr p off (sat32 ((rd s p off).toNat + n)) s

/-- A 64-bit count, which wraps at 2^64, advanced. -/
def add64 (p off n : Nat) (s : State) : State := wr64 p off ((rd64 s p off + n) % 2 ^ 64) s

/-- A 32-bit count that wraps, advanced. -/
def inc32 (p off n : Nat) (s : State) : State := wr p off (BitVec.ofNat 32 ((rd s p off).toNat + n)) s

/-- A software write of one word of a register: its writable bits take the data, the others stay (R18). -/
def stWord (bank p off : Nat) (v : Word) (s : State) : State :=
  match specAt p off with
  | some r => wrB bank p off ((rdB s bank p off &&& ~~~r.wordMask off) ||| (v &&& r.wordMask off)) s
  | none => s

/-- A software write of one word, or of two words, low word first (R61). -/
def stReg (bank p off : Nat) (data : DWord) (wide : Bool) (s : State) : State :=
  let s1 := stWord bank p off (BitVec.ofNat 32 data.toNat) s
  if wide then stWord bank p (off + 4) (BitVec.ofNat 32 (data.toNat / 0x100000000)) s1 else s1

/-- Whether acknowledging unit `u` acts on the snapshot of the commit in progress (R645 step 4, R647). -/
def adopted (s : State) (u : Nat) : Bool := decide (s.prot.phase = .committing) && !s.prot.waiting.contains u

/-- A staged field as unit `u` acts on it: the committed copy, or the snapshot it has adopted (R644, R647). -/
def stg (s : State) (u bank p off : Nat) : Word :=
  sget regReset (if adopted s u then s.prot.snapshot else s.committed) (regKey bank p off)

/-- A 64-bit staged field as unit `u` acts on it. -/
def stg64 (s : State) (u bank p off : Nat) : Nat :=
  (stg s u bank p off).toNat + (stg s u bank p (off + 4)).toNat * 0x100000000

/-- The PASID bindings as unit `u` acts on them (R645, R647). -/
def bindingsAt (s : State) (u : Nat) : List Binding := if adopted s u then s.prot.pbtNew else s.prot.pbt

/-- The page and offset of a slice's registers in the SLICE page (R666). -/
def sliceReg (slice off : Nat) : Nat × Nat := (pageOf 15 2 (1 + slice / 8), 0x100 + 0x1E0 * (slice % 8) + off)

/-- A staged field of a slice as unit `u` acts on it. -/
def slStg (s : State) (u slice off : Nat) : Word := stg s u 0 (sliceReg slice off).1 (sliceReg slice off).2

/-- SL_CFG.EN of a slice as unit `u` acts on it. -/
def sliceEnabled (s : State) (u slice : Nat) : Bool := bitOf (slStg s u slice 0x00) 0

/-- SL_CFG.FUNC of a slice as unit `u` acts on it. -/
def sliceFunc (s : State) (u slice : Nat) : Nat := fld (slStg s u slice 0x00) 6 1

/-- A slice's record. -/
def sliceSt (s : State) (n : Nat) : SliceSt := sget (fun _ => ({} : SliceSt)) s.slices n

def setSliceSt (n : Nat) (v : SliceSt) (s : State) : State :=
  { s with slices := sput (fun _ => ({} : SliceSt)) s.slices n v }

/-! ### Tiles -/

/-- A physical tile. -/
def tileSt (s : State) (d u : Nat) : TileSt := sget (fun _ => ({} : TileSt)) s.tiles.tiles (d * 15 + u)

def setTile (d u : Nat) (t : TileSt) (s : State) : State :=
  { s with tiles := { s.tiles with tiles := sput (fun _ => ({} : TileSt)) s.tiles.tiles (d * 15 + u) t } }

/-- The logical tile bound to a physical one, LT within the die; 0x3F for none (R16, R72). `bindTile` holds unit + 1
by logical tile die × 12 + LT, 0 where the logical tile is not bound. -/
def logicalTile (s : State) (d u : Nat) : Nat :=
  ((List.range 12).find? fun lt => sget (fun _ => 0) s.org.bindTile (d * 12 + lt) == u + 1).getD 0x3F

/-- The physical unit of a logical tile die × 12 + LT, if it is bound. -/
def tileUnit (s : State) (lt : Nat) : Option Nat :=
  match sget (fun _ => 0) s.org.bindTile lt with
  | 0 => none
  | n + 1 => some n

/-! ### CRC-32 and the NOR -/

/-- One bit of the reflected CRC-32 of R540 (polynomial 0x04C1_1DB7, reflected 0xEDB8_8320). -/
def crcBit (c : Nat) : Nat := if c % 2 = 1 then (c / 2) ^^^ 0xEDB88320 else c / 2

def crcBits : Nat → Nat → Nat
  | 0, c => c
  | n + 1, c => crcBits n (crcBit c)

/-- CRC-32 over bytes, as R540 defines it. -/
def crc32 (l : List Byte) : Nat := (l.foldl (fun c b => crcBits 8 (c ^^^ b.toNat)) 0xFFFFFFFF) ^^^ 0xFFFFFFFF

/-- What an erased byte of the NOR reads as. -/
def norDefault : Nat → Byte := fun _ => 0xFF

/-- A byte of the NOR. -/
def rdNor (s : State) (a : Nat) : Byte := sget norDefault s.nor.bytes a

/-- Program a byte of the NOR. -/
def wrNor (a : Nat) (b : Byte) (s : State) : State :=
  { s with nor := { s.nor with bytes := sput norDefault s.nor.bytes a b } }

/-- Program bytes of the NOR from `a`. -/
def wrNorN (a : Nat) : List Byte → State → State
  | [], s => s
  | b :: t, s => wrNorN (a + 1) t (wrNor a b s)

/-- `n` bytes of the NOR from `a`. -/
def rdNorN (s : State) (a : Nat) : Nat → List Byte
  | 0 => []
  | n + 1 => rdNor s a :: rdNorN s (a + 1) n

/-- Erase `n` bytes of the NOR from `a`. -/
def eraseNor (a n : Nat) (s : State) : State :=
  { s with nor := { s.nor with bytes := s.nor.bytes.filter fun e => !(decide (a ≤ e.1) && decide (e.1 < a + n)) } }

/-! ### Units -/

/-- The control record of the unit of a page. -/
def unitSt (s : State) (p : Nat) : UnitSt := sget (fun _ => ({} : UnitSt)) s.units p

/-- Write the control record of a page's unit. -/
def setUnit (p : Nat) (u : UnitSt) (s : State) : State := { s with units := sput (fun _ => ({} : UnitSt)) s.units p u }

/-- Whether a unit counts in its group: not SPARE and not RETIRED (R34, R87). -/
def counted (s : State) (p : Nat) : Bool :=
  decide ((unitSt s p).state ≠ .spare) && decide ((unitSt s p).state ≠ .retired)

/-- A group's state: the first of FAULTED, HOLD, DRAINING, OFF, ACTIVE that any member's state is; RETIRED where no
member counts (R34). -/
def groupStateOf (l : List UState) : UState :=
  let l' := l.filter fun x => decide (x ≠ .spare) && decide (x ≠ .retired)
  if l'.contains .faulted then .faulted
  else if l'.contains .hold then .hold
  else if l'.contains .draining then .draining
  else if l'.contains .off then .off
  else if l'.contains .active then .active
  else .retired

/-- UNIT_STAT.STATE of a page: a member's own, a group's over its members (R34), at most `fuel` levels down. A tile in
SPARE or RETIRED reports that state. -/
def stateOf : Nat → State → Nat → UState
  | 0, s, p => (unitSt s p).state
  | fuel + 1, s, p =>
    if (unitSt s p).state = .spare ∨ (unitSt s p).state = .retired then (unitSt s p).state
    else
      match ctrlMembersOf p with
      | [] => (unitSt s p).state
      | ms => groupStateOf (ms.map fun m => stateOf fuel s m)

/-- BOOT_STAT.PHASE (R778, R808): 5 is RUN. -/
def phase (s : State) : Nat := fld (rd s pBoot 0x100) 2 0

/-- WD_STAT.DEV_FAULT (R695, R718). -/
def devFault (s : State) : Bool := bitOf (rd s pWatchdog 0x108) 10

/-- UNIT_STAT.STATE of a page (R75); the DEV page reads FAULTED after a device fault (R695) and OFF outside RUN (R778). -/
def pageState (s : State) (p : Nat) : UState :=
  if p = pDev ∧ devFault s then .faulted
  else if p = pDev ∧ phase s ≠ 5 then .off
  else stateOf 4 s p

/-- The physical segment, 0 to 12, bound to a logical one (R17). -/
def segUnit (s : State) (seg : Nat) : Nat := sget (fun k => k % 12) s.org.bindSeg seg

/-- The page of the unit bound to a logical segment. -/
def segPage (s : State) (seg : Nat) : Nat := pSegment (seg / 12) (segUnit s seg)

/-! ### Free values -/

/-- The next free value; the counter is plain state (assumption log 1). -/
def freeVal (s : State) : BitVec 64 := Config.freeValue s.freeCtr

/-- The state after a free value has been taken. -/
def tickFree (n : Nat) (s : State) : State := { s with freeCtr := s.freeCtr + n }

/-! ### Output -/

/-- Put one item out. -/
def emit (o : Out) (s : State) : State := { s with out := o :: s.out }

/-! ### Physical memory -/

/-- The ranges of the physical map (R44, R393). -/
inductive PRange where
  | near (die : Nat) | far (die ch : Nat) | bar0 | chiplet (site : Nat) | host | unbacked
deriving DecidableEq, Repr

/-- The range a physical address lies in (R393). -/
def rangeOf (pa : Nat) : PRange :=
  if pa < 0x4000000000 then .near (pa / 0x800000000)
  else if 0x10000000000 ≤ pa ∧ pa < 0x18000000000 then
    .far ((pa - 0x10000000000) / 0x1000000000) ((pa - 0x10000000000) / 0x800000000 % 2)
  else if 0x20000000000 ≤ pa ∧ pa < 0x20004000000 then .bar0
  else if 0x30000000000 ≤ pa ∧ pa < 0x32000000000 then .chiplet ((pa - 0x30000000000) / 0x1000000000)
  else if 0x800000000000 ≤ pa ∧ pa < 0x1000000000000 then .host
  else .unbacked

/-- The memory controllers of a die. -/
def memCtl (s : State) (d : Nat) : MemCtl := sget (fun _ => ({} : MemCtl)) s.memctl d

def setMemCtl (d : Nat) (m : MemCtl) (s : State) : State :=
  { s with memctl := sput (fun _ => ({} : MemCtl)) s.memctl d m }

/-- Whether a chiplet site is present and was discovered (R28, R394). -/
def siteUp (s : State) (k : Nat) : Bool :=
  s.org.csPresent.getD k false && bitOf (rd s (pageOf (9 + k) 0 0) 0x104) 1

/-- Whether a physical address is backed (R393, R394). -/
def backed (s : State) (pa : Nat) : Bool :=
  match rangeOf pa with
  | .near d => !(memCtl s d).nearShort
  | .far d c => (memCtl s d).present.getD c false && (memCtl s d).trained.getD c false
  | .bar0 => true
  | .chiplet k => siteUp s k
  | .host => true
  | .unbacked => false

/-- Whether a physical address lies in a tier. -/
def inTier (pa : Nat) : Bool :=
  match rangeOf pa with
  | .near _ | .far _ _ => true
  | _ => false

/-- Whether a physical address lies in the host range. -/
def inHost (pa : Nat) : Bool := decide (rangeOf pa = .host)

/-- Whether an address lies in a die's reserved region, the top 64 MiB of its near tier (R397). -/
def inReserved (pa : Nat) : Bool := decide (pa < 0x4000000000) && decide (0x7FC000000 ≤ pa % 0x800000000)

/-- The base of die `d`'s reserved region (R397). -/
def rsvdBase (d : Nat) : Nat := d * 0x800000000 + 0x7FC000000

/-- The compute die that owns a physical address of device memory (R45). -/
def ownerDie (pa : Nat) : Nat :=
  match rangeOf pa with
  | .near d => d
  | .far d _ => d
  | _ => 0

/-- What a byte of memory nothing has written reads as (assumption log 4). -/
def memDefault : Nat → Byte := fun _ => 0

/-- Memory is in its one canonical form: rising addresses, no entry equal to what an unlisted address reads as. -/
abbrev Memory.wf (m : List Cell) : Prop := sparseWf memDefault m

/-- One byte of physical memory as the controllers hold it. -/
def rdMem (s : State) (pa : Nat) : Byte := sget memDefault s.mem pa

/-- Write one byte of physical memory. -/
def wrMem (pa : Nat) (b : Byte) (s : State) : State := { s with mem := sput memDefault s.mem pa b }

/-- `n` bytes of physical memory from `pa`. -/
def rdMemN (s : State) (pa : Nat) : Nat → List Byte
  | 0 => []
  | n + 1 => rdMem s pa :: rdMemN s (pa + 1) n

/-- Write bytes to physical memory from `pa`. -/
def wrMemN (pa : Nat) : List Byte → State → State
  | [], s => s
  | b :: t, s => wrMemN (pa + 1) t (wrMem pa b s)

/-- The 64 B codewords of one 256 B sector (R399, R400). -/
def codewordsOf (sector : Nat) : List Nat := [4 * sector, 4 * sector + 1, 4 * sector + 2, 4 * sector + 3]

/-- Whether memory holds a sector (address / 256) poisoned: a near-tier marker (R400), or an entry of the far tier's
poison list, any far sector of a die whose list overflowed (R406), or a range whose rail was cut off (R728). -/
def memPoison (s : State) (sector : Nat) : Bool :=
  match rangeOf (sector * 256) with
  | .near d => ((codewordsOf sector).any fun c => s.nearMarks.contains c) || (memCtl s d).nearShort
  | .far d c => (memCtl s d).farPoison.contains sector || (memCtl s d).farLost || !((memCtl s d).present.getD c false)
  | _ => false

end Sys2Proof.Machine
end

