-- ==== Sys2Proof/Machine/Atomics.lean ====
section
/-! DEFINITION. The operations a home performs on its data (07_felt.md R330 to R335) and the LSE merge
(05_attention.md R238, R242), as pure functions of bytes. -/

namespace Sys2Proof.Machine

/-- The signed value of a `bits`-wide two's-complement number. -/
def toSigned (bits v : Nat) : Int := if v < 2 ^ (bits - 1) then (v : Int) else (v : Int) - ((2 ^ bits : Nat) : Int)

/-- A scalar operation (R330): the new value and the IEEE flags it raises. `size` is the operand's bytes. -/
def scalarOp (code size old opnd cmp : Nat) : Nat × Nat :=
  let bits := 8 * size
  match code with
  | 0x00 => ((old + opnd) % 2 ^ bits, 0)
  | 0x01 => (if toSigned bits opnd < toSigned bits old then opnd else old, 0)
  | 0x02 => (if toSigned bits old < toSigned bits opnd then opnd else old, 0)
  | 0x03 => (min old opnd, 0)
  | 0x04 => (max old opnd, 0)
  | 0x05 => (old &&& opnd, 0)
  | 0x06 => (old ||| opnd, 0)
  | 0x07 => (old ^^^ opnd, 0)
  | 0x08 => (opnd, 0)
  | 0x09 => (if old = cmp then opnd else old, 0)
  | 0x0A => fmt32.addV (fmt32.decode old) (fmt32.decode opnd)
  | 0x0B => faddBF old opnd
  | _ => (old, 0)

/-- The operand sizes a scalar code takes (R330): FP32 and BF16 have one size, the others 4 or 8 bytes. -/
def scalarSizeOk (code size : Nat) : Bool :=
  if code = 0x0A then size == 4
  else if code = 0x0B then size == 2
  else decide (code ≤ 0x09) && (size == 4 || size == 8)

/-- Whether a code names a vector operation (R330). -/
def isVector (code : Nat) : Bool := decide (0x10 ≤ code) && decide (code ≤ 0x13)

/-- One element of a vector operation (R330, R332). -/
def vectorElem (code a b : Nat) : Nat × Nat :=
  match code with
  | 0x10 => fmt32.addV (fmt32.decode a) (fmt32.decode b)
  | 0x11 => faddBF a b
  | 0x12 => fmt32.maxF false a b
  | _ => fmaxBF a b

/-- Bytes of one element of a vector operation. -/
def vectorWidth (code : Nat) : Nat := if code = 0x10 ∨ code = 0x12 then 4 else 2

/-- A vector operation on the 256 bytes of a sector, element by element: the new bytes and the flags, over `n`
elements. -/
def vectorOp (code : Nat) : Nat → List Byte → List Byte → List Byte × Nat
  | 0, _, _ => ([], 0)
  | n + 1, old, opnd =>
    let w := vectorWidth code
    let r := vectorElem code (leNat (old.take w)) (leNat (opnd.take w))
    let t := vectorOp code n (old.drop w) (opnd.drop w)
    (leBytes w r.1 ++ t.1, r.2 ||| t.2)

/-- The word at byte `off` of a record. -/
def recWord (r : List Byte) (off : Nat) : Word := BitVec.ofNat 32 (leNat ((r.drop off).take 4))

/-- Whether an FP32 word is a NaN. -/
def isNan32 (w : Word) : Bool := (dec32 w).isNan

/-- −∞ in FP32. -/
def negInf32 : Word := 0xFF800000

/-- r × a1 + c × a2, exact inside, rounded once (R242), with NaN operands and opposed infinities as R187 states. -/
def lseTerm (r a1 c a2 : Word) : Word × Nat :=
  let p := mulV (dec32 r) (dec32 a1)
  let q := mulV (dec32 c) (dec32 a2)
  let w := enc32 (fmt32.addV p.1 q.1)
  -- NaN operands of any kind raise no flag by themselves (R187)
  let bad := (dec32 r).isNan || (dec32 a1).isNan || (dec32 c).isNan || (dec32 a2).isNan
  (w.1, if bad then 0 else p.2 ||| q.2 ||| w.2)

/-- The 128 output elements of an LSE merge (R242). -/
def lseOut (a1 a2 : Word) : Nat → List Byte → List Byte → List Byte × Nat
  | 0, _, _ => ([], 0)
  | n + 1, ro, co =>
    let w := lseTerm (BitVec.ofNat 32 (leNat (ro.take 4))) a1 (BitVec.ofNat 32 (leNat (co.take 4))) a2
    let t := lseOut a1 a2 n (ro.drop 4) (co.drop 4)
    (leBytes 4 w.1.toNat ++ t.1, w.2 ||| t.2)

/-- The 1,024 bytes of a partial record (R238) from its fields; reserved bytes are 0. -/
def mkRecord (m l : Word) (n flags : Nat) (o : List Byte) : List Byte :=
  leBytes 4 m.toNat ++ leBytes 4 l.toNat ++ leBytes 4 n ++ leBytes 4 flags ++ List.replicate 240 0
    ++ (o ++ List.replicate (512 - o.length) 0) ++ List.replicate 256 0

/-- A record with fields replaced and its reserved bytes kept. -/
def putRecord (r : List Byte) (m l : Word) (n flags : Nat) (o : List Byte) : List Byte :=
  leBytes 4 m.toNat ++ leBytes 4 l.toNat ++ leBytes 4 n ++ leBytes 4 flags ++ (r.drop 16).take 240 ++ o ++ r.drop 768

/-- The LSE merge of a contribution into a record (R242): the new record and the IEEE flags. -/
def lseMerge (r c : List Byte) : List Byte × Nat :=
  let n := (recWord r 8).toNat
  let n1 := (n + 1) % 2 ^ 32
  let ro := (r.drop 256).take 512
  let co := (c.drop 256).take 512
  let rf := (recWord r 12).toNat
  let cf := (recWord c 12).toNat
  let rm := recWord r 0
  let rl := recWord r 4
  let cm := recWord c 0
  let cl := recWord c 4
  if n = 0 then (putRecord r cm cl n1 (cf % 2) co, 0)
  else if (rf ||| cf) % 2 = 1 then (putRecord r rm rl n1 (rf ||| 1) ro, 0)
  else if isNan32 rm || isNan32 rl || isNan32 cm || isNan32 cl then
    (putRecord r nan32 nan32 n1 rf ((List.range 128).flatMap fun _ => leBytes 4 nan32.toNat), 0)
  else if cm = negInf32 then (putRecord r rm rl n1 rf ro, 0)
  else if rm = negInf32 then (putRecord r cm cl n1 rf co, 0)
  else
    let mn := (fmax32 rm cm).1
    let d1 := fsub32 rm mn
    let d2 := fsub32 cm mn
    let a1 := exp2F32 d1.1
    let a2 := exp2F32 d2.1
    let l := lseTerm rl a1.1 cl a2.1
    let o := lseOut a1.1 a2.1 128 ro co
    (putRecord r mn l.1 n1 rf o.1, d1.2 ||| d2.2 ||| a1.2 ||| a2.2 ||| l.2 ||| o.2)

/-- The record a home writes where contribution 0 of an ordered LSE round meets a line with a poisoned sector (R335). -/
def lsePoisoned (c : List Byte) : List Byte := mkRecord (recWord c 0) (recWord c 4) 1 1 ((c.drop 256).take 512)

end Sys2Proof.Machine
end

