-- ==== Sys2Proof/Machine/Views.lean ====
section
/-! DEFINITION. Register values that the hardware computes from the block's state. -/

namespace Sys2Proof.Machine

/-- UNIT_STAT.STATE codes (R75). -/
def UState.code : UState → Nat
  | .off => 0 | .active => 1 | .draining => 2 | .faulted => 3 | .spare => 4 | .retired => 5 | .hold => 6

/-- Whether a line at home in a segment has a transaction open (R324). -/
def segTrans (s : State) (seg : Nat) : Nat :=
  (s.felt.lines.filter fun e => decide (e.1 / 0x4000000000 = seg) && e.2.trans.isSome).length

/-- The logical segment bound to a physical one of a die (R17). -/
def logicalSeg (s : State) (die unit : Nat) : Option Nat := ((List.range 12).map fun k => die * 12 + k).find? fun g => segUnit s g == unit

/-- Whether a leaf unit holds accepted work (R75): a tile's blocks the groups, operations, walks or task they serve, a
segment its open transactions, a port the flits it has not passed on, an engine its messages or plans, the dispatcher the
started commands. -/
def leafBusy (s : State) (p : Nat) : Bool :=
  let d := pageDie p
  let u := pageUnit p
  let b := pageBlock p
  let t := tileSt s d u
  let walks := s.xlate.walks.any fun w => w.holder == p
  match pageKind p with
  | some .vc => (t.resident.any fun e => e.1 / 16 + 1 == b) || !((sget (fun _ => []) t.sb (b - 1)).isEmpty)
  | some .matrix | some .gather | some .smu | some .codec => t.mx.queues.any fun e => !e.2.isEmpty
  | some .tlb => walks
  | some .tstore => t.task.isSome || t.issued.isSome
  | some .segment => (match logicalSeg s d (u - 20) with | some g => decide (segTrans s g ≠ 0) | none => false)
  | some .port =>
    let k := 6 * d + (u - 36)
    !((sget (fun _ => ({} : PortSt)) s.links.ports k).sent.isEmpty)
      || ([0, 1, 2, 3].any fun v => !((sget (fun _ => ([] : List Flit)) s.links.inq (k * 4 + v)).isEmpty))
  | some .sdramc => (memCtl s d).repair.isSome
  | some .walkers => (s.xlate.walks.any fun w => w.die == d) || !((sget (fun _ => ([] : List Inval)) s.xlate.invals d).isEmpty)
  | some .collective => s.xfer.plans.any fun e => e.1 / 16 == d
  | some .copyEngine => s.xfer.msgs.any fun m => m.die == d && m.engine == some (b - 1)
  | some .dispatch => decide (s.disp.primary = 0) && !s.disp.cmds.isEmpty
  | some .standby => decide (s.disp.primary ≠ 0) && !s.disp.cmds.isEmpty
  | some .pagealloc => !s.steward.running.isEmpty
  | _ => false

/-- Whether a unit or any counted member under it holds accepted work, at most `fuel` levels down. -/
def busyUnder : Nat → State → Nat → Bool
  | 0, s, p => leafBusy s p
  | fuel + 1, s, p => leafBusy s p || (ctrlMembersOf p).any fun m => counted s m && busyUnder fuel s m

/-- UNIT_STAT.IDLE: the unit holds no accepted work (R75). -/
def unitIdle (s : State) (p : Nat) : Bool := !busyUnder 4 s p

/-- UNIT_STAT of a page (R75). -/
def unitStat (s : State) (p : Nat) : Word :=
  BitVec.ofNat 32 ((pageState s p).code + 8 * b2n (unitIdle s p) + 0x100 * (unitSt s p).gen.toNat
    + 0x10000 * b2n (bitOf (rd s p 0x20) 31))

/-! ### Shared counts -/

/-- A valid journal slot is newer than another record's sequence number, modulo 2^32. -/
def seqNewer (a b : Nat) : Bool := decide ((a + 2 ^ 32 - b) % 2 ^ 32 < 2 ^ 31) && a != b

/-- The slot of the newest valid record (R800). -/
def newestSlot (s : State) : Option Nat :=
  let a := s.nor.slots.getD 0 {}
  let b := s.nor.slots.getD 1 {}
  if a.valid && b.valid then (if seqNewer b.seq a.seq then some 1 else some 0)
  else if a.valid then some 0 else if b.valid then some 1 else none

/-- Commands started and incomplete, and tile tasks issued and not retired (R529). -/
def dspCmds (s : State) : Nat := (s.disp.cmds.filter fun c => c.status.isNone).length
def dspTasks (s : State) : Nat := (s.tiles.tiles.filter fun e => e.2.task.isSome || e.2.issued.isSome).length

/-- A port's record. -/
def portSt (s : State) (k : Nat) : PortSt := sget (fun _ => ({} : PortSt)) s.links.ports k

/-- Dedicated credits free for a VC, and shared credits a VC holds and that are free. -/
def dedFree (p : PortSt) (v : Nat) : Nat := 32 - (p.dedSent.getD v 0 + 2 ^ 32 - p.dedFreed.getD v 0) % 2 ^ 32
def shHeld (p : PortSt) (v : Nat) : Nat := (p.shUse.filter fun x => x == v).length
def shFree (p : PortSt) : Nat := 1920 - p.shUse.length

/-- The signed byte order of temperatures: a two's complement code plus 128. -/
def tempOrd (c : Nat) : Nat := (c % 256 + 128) % 256

/-- The hottest sensor of a die: its reading and its number, the lowest on a tie (R772). -/
def hotSensor (l : List Nat) : Nat × Nat :=
  let best := l.foldl (fun a c => if tempOrd a < tempOrd c then c else a) (l.headD 0)
  (best % 256, (l.findIdx? fun c => c == best).getD 0)

/-! ### UNIT_ID and UNIT_CAP (R72, R73) -/

/-- UNIT_ID.LOGICAL of a page: LT or LS number, 0x3E for a tile or segment SPARE or RETIRED, else 0x3F. -/
def unitLogical (s : State) (p : Nat) : Nat :=
  let d := pageDie p
  let u := pageUnit p
  let idle (q : Nat) : Bool := decide ((unitSt s q).state = .spare) || decide ((unitSt s q).state = .retired)
  if d < 8 ∧ u < 15 then (if idle (pTile d u) then 0x3E else logicalTile s d u)
  else if d < 8 ∧ 20 ≤ u ∧ u ≤ 32 then
    (if idle p then 0x3E else match logicalSeg s d (u - 20) with | some g => g % 12 | none => 0x3F)
  else 0x3F

/-- UNIT_ID (R72); 0 where no unit stands behind the page. -/
def unitId (s : State) (p : Nat) : Nat :=
  match pageKind p with
  | some k =>
    if k.code = 0 then 0
    else k.code + 0x100 + 0x1000 * pageDie p + 0x10000 * pageUnit p + 0x400000 * pageBlock p + 0x4000000 * unitLogical s p
  | none => 0

/-- Whether a kind captures words of its own in SNAP_DATA (R73, R98). -/
def PageKind.snaps : PageKind → Bool
  | .vc | .matrix | .gather | .smu | .codec | .pagealloc | .segment | .sdramc | .lpddrc | .tlb | .walkers | .dispatch
  | .standby | .port | .copyEngine | .collective | .watchdog | .pwrtherm | .blocker | .boot | .journal | .hostif => true
  | _ => false

/-- UNIT_CAP.KIND_CAP, in place at [31:16] (R150, R201, R247, R350, R425, R471, R528, R578, R666, R717, R771, R807, R849). -/
def kindCap (s : State) (p : Nat) : Nat :=
  match pageKind p with
  | some .tile => 4 * 0x10000 + 16 * 0x100000
  | some .vc => 256 * 0x10000 + 32 * 0x2000000
  | some .tstore => 64 * 0x10000
  | some .cluster => 2 * 0x10000 + (if pageUnit p = 18 ∧ s.org.tilesPerDie = 11 then 3 else 4) * 0x40000
  | some .matrix => 0x10000 + 0x20000 + 0x40000 + 4 * 0x80000 + 16 * 0x400000 + 4 * 0x8000000
  | some .gather => 16 * 0x10000 + 4 * 0x200000 + 0x1000000
  | some .smu => 256 * 0x10000 + 64 * 0x2000000
  | some .codec => 0x10000 + 0x20000
  | some .segment => 8 * 0x10000 + 4 * 0x100000 + 0x800000 + 64 * 0x1000000
  | some .sdramc => 64 * 0x10000 + 32 * 0x800000
  | some .lpddrc => (if s.org.variant = 1 then 1 else 2) * 0x10000 + 4 * 0x40000
  | some .tlb => 1024 * 0x10000 + 0x8000000
  | some .walkers => 64 * 0x10000 + 256 * 0x800000
  | some .dispatch | some .standby => 128 * 0x10000 + 8 * 0x1000000 + 3 * 0x10000000
  | some .port => 9 * 0x10000 + 4 * 0x100000 + 32 * 0x1000000
  | some .slice => 64 * 0x10000
  | some .watchdog => 0x10000 + 3 * 0x1000000
  | some .pwrtherm => 16 * 0x10000 + 0x200000
  | some .blocker => 2300 * 0x10000
  | some .boot => 4 * 0x10000 + 4 * 0x1000000
  | some .journal => 64 * 0x10000
  | some .hostif => 16 * 0x10000 + 63 * 0x200000 + 0x8000000
  | some .ucie => 64 * 0x10000 + 32 * 0x800000
  | _ => 0

/-- UNIT_CAP (R73). Pounce replaces tiles and segments by spares (R706). -/
def unitCap (s : State) (p : Nat) : Nat :=
  match pageKind p with
  | some k =>
    if k.code = 0 then 0
    else
      let spar := match k with | .tile | .segment => true | _ => false
      b2n k.honoursCtrl + 2 * b2n k.honoursCtrl + 4 * b2n k.isGroup + 8 * b2n spar + 16 * b2n k.snaps
        + 0x100 * (membersOf p).length + kindCap s p
  | none => 0

/-! ### Registers computed from the block's state -/

/-- Bits of a list of positions. -/
def bitsOf (l : List Nat) : Nat := l.foldl (fun a n => a ||| 2 ^ n) 0

/-- The word of a 64-bit value at `off`, whose low word stands at `base`. -/
def half (base off v : Nat) : Nat := if off = base then v % 0x100000000 else v / 0x100000000 % 0x100000000

/-- Codes of CW. -/
def cwCode (cw : Nat) : Nat := if cw = 1 then 0 else if cw = 2 then 1 else 2

/-- Registers of a tile's header (R151). -/
def tileLive (s : State) (d u off : Nat) : Option Nat :=
  let t := tileSt s d u
  let task (f : Task → Nat) : Nat := match t.task with | some k => f k | none => 0
  match off with
  | 0x100 => some (task fun k => k.pasid + 0x100000 * k.slice + 0x80000000)
  | 0x104 => some (task fun k => k.ring)
  | 0x108 => some (task fun k => k.seq)
  | 0x10C => some (task fun k => k.l1 + 4 * (k.regs / 8 - 1) + 0x400 * (k.groups - 1) + 0x10000 * cwCode k.cw
      + 0x40000 * k.member + 0x100000 * (k.bar % 2) + 0x200000 * k.pin)
  | 0x110 | 0x114 => some (half 0x110 off (bitsOf (t.resident.map fun e => e.1)))
  | 0x118 | 0x11C => some (half 0x118 off (bitsOf ((t.resident.filter fun e => e.2.parked.isSome).map fun e => e.1)))
  | _ => none

/-- VC_DBG_STATE of a slot (R152). -/
def groupState (g : Option Group) : Nat :=
  match g with
  | none => 0
  | some g =>
    if g.parked.isSome then 5
    else match g.wait with | .ready => 1 | .memory => 2 | .barTile => 3 | .barCluster _ => 3 | .matrix _ _ => 4

/-- Registers of vector core `n` of a tile (R152). -/
def vcLive (s : State) (d u n off : Nat) : Option Nat :=
  let t := tileSt s d u
  let mine := t.resident.filter fun e => e.1 / 16 == n
  let sel := slook t.resident (16 * n + fld (rd s (pVC d u n) 0x10C) 3 0)
  match off with
  | 0x100 => some (mine.length + 32 * (if mine = [] then 0 else match t.task with | some k => k.regs | none => 0))
  | 0x104 => some ((sget (fun _ => ([] : List SbEntry)) t.sb n).length + 64 * (sget (fun _ => ([] : List Replay)) t.replays n).length)
  | 0x110 | 0x114 => some (half 0x110 off (match sel with | some g => g.pc | none => 0))
  | 0x118 => some (match sel with | some g => g.mask.toNat | none => 0)
  | 0x11C => some (groupState sel)
  | _ => none

/-- The opcode at the head of a matrix queue (R168). -/
def headOpc (t : TileSt) (q : Nat) : Option Nat :=
  match sget (fun _ => ([] : List MxOp)) t.mx.queues q with
  | [] => none
  | op :: _ => some (leNat (op.desc.take 4) % 16)

/-- Whether the head of a queue has one of some opcodes. -/
def headIs (t : TileSt) (l : List Nat) (q : Nat) : Bool := match headOpc t q with | some c => l.contains c | none => false

/-- Registers of a tile's matrix array (R202). -/
def matrixLive (s : State) (d u off : Nat) : Option Nat :=
  let m := (tileSt s d u).mx
  let q (k : Nat) : List MxOp := sget (fun _ => []) m.queues k
  let next (k : Nat) : Nat := sget (fun _ => 0) m.next k
  let ff (k : Nat) : Nat := match slook m.firstFail k with | some x => x.1 % 0x10000 | none => 0
  match off with
  | 0x100 => some (b2n m.split + 2 * b2n m.wantSplit.isSome + 4 * b2n ([0, 1, 2, 3].all fun k => (q k).isEmpty))
  | 0x104 | 0x108 | 0x10C | 0x110 =>
    let k := (off - 0x104) / 4
    some (next k % 0x10000 + 0x10000 * ((next k - (q k).length) % 0x10000))
  | 0x114 => some (bitsOf (m.firstFail.map fun e => e.1))
  | 0x118 => some (ff 0 + 0x10000 * ff 1)
  | 0x11C => some (ff 2 + 0x10000 * ff 3)
  | _ => none

/-- The queues of a tile whose gather stream is held on MIGRATING (R217): 64 + queue names the stream. -/
def gatherHeld (s : State) (d u : Nat) : List (Nat × Nat) :=
  (List.range 4).filterMap fun q =>
    (s.xlate.heldStreams.find? fun h => h.holder == pTlb d u && h.stream == 64 + q).map fun h => (q, h.va)

/-- Registers of the gather unit (R248), the SMU (R250) and the codec (R252). -/
def attnLive (s : State) (d u : Nat) (k : PageKind) (off : Nat) : Option Nat :=
  let t := tileSt s d u
  let busy (l : List Nat) : Nat := bitsOf ([0, 1, 2, 3].filter (headIs t l))
  match k, off with
  | .gather, 0x104 => some (busy [8, 9, 10] + 16 * bitsOf ((gatherHeld s d u).map fun e => e.1))
  | .gather, 0x108 | .gather, 0x10C => some (half 0x108 off (((gatherHeld s d u).map fun e => e.2).headD 0))
  | .smu, 0x100 => some (busy [8, 11])
  | .smu, 0x10C => some 0
  | .codec, 0x100 => some (busy [8, 9, 10])
  | _, _ => none

/-- CL_BAR of an instance (R156). -/
def clusterBarWord (s : State) (d c inst : Nat) : Nat :=
  let b := sget (fun _ => ({} : ClusterBar)) s.tiles.bars ((d * 3 + c) * 8 + inst)
  bitsOf (b.members.map fun u => u - 5 * c) + 0x20 * cwCode b.cw + 0x80 * b.expected + 0x10000 * b.arrived.length
    + 0x2000000 * b2n b.phase + 0x4000000 * b2n b.mem + 0x80000000 * b2n b.active

/-- Registers of a cluster (R155, R157). -/
def clusterLive (s : State) (d c off : Nat) : Option Nat :=
  match off with
  | 0x100 | 0x104 => some (clusterBarWord s d c ((off - 0x100) / 4))
  | 0x214 => if c = 0 then some (((List.range 15).map fun u => (tileSt s d u).parkHeld.length).foldl (· + ·) 0) else none
  | _ => none

/-- Registers of a segment (R351): a physical segment that no logical one is bound to has none of the work. -/
def segLive (s : State) (d n off : Nat) : Option Nat :=
  match off with
  | 0x108 =>
    match logicalSeg s d n with
    | none => some 0
    | some g =>
      let x := sget (fun _ => ({} : SegSt)) s.felt.segs g
      let here := s.felt.lines.filter fun e => decide (e.1 / 0x4000000000 = g)
      let starve := (here.map fun e => e.2.starve.length).foldl (· + ·) 0
      let hs := (here.filter fun e => match e.2.trans with
        | some t => (match t.kind with | .hsnp _ => true | _ => false) | none => false).length
      some (segTrans s g + 0x800 * starve + 0x10000 * hs + 0x200000 * x.orders.length + 0x10000000 * b2n x.migTo.isSome
        + 0x20000000 * b2n (x.reclaim != []))
  | _ => none

/-- A directory entry as DIR_DBG_ENTRY shows it (R308). -/
def dirWord (line : Nat) (h : HomeLine) : Nat :=
  match h.dir with
  | none => 0
  | some e =>
    let mode := match e.mode with | .ptr => 0 | .owned => 1 | .bcast => 2
    let p (i sh : Nat) : Nat := match e.ptrs.getD i none with | some a => (a + 16) * 2 ^ sh | none => 0
    line + 2 ^ 38 + mode * 2 ^ 39 + p 0 41 + p 1 46 + p 2 51 + e.fwd * 2 ^ 56 + e.sset * 2 ^ 58
      + b2n h.trans.isSome * 2 ^ 62 + b2n h.rsvd.isSome * 2 ^ 63

/-- Registers of a segment's directory (R353). Which set and way an entry stands in is not architectural: the entry
selected is the one of that number among the segment's entries in line order (assumption log 62). -/
def dirLive (s : State) (d n off : Nat) : Option Nat :=
  match logicalSeg s d n with
  | none => none
  | some g =>
    let x := sget (fun _ => ({} : SegSt)) s.felt.segs g
    let l := s.felt.lines.filter fun e => decide (e.1 / 0x4000000000 = g) && e.2.dir.isSome
    let count (f : DirEntry → Bool) : Nat := (l.filter fun e => match e.2.dir with | some k => f k | none => false).length
    match off with
    | 0x108 | 0x10C =>
      let w := rd s (pSegment d n + 1) 0x100
      match l[fld w 11 0 * 8 + fld w 14 12]? with
      | some e => some (half 0x108 off (dirWord (e.1 % 0x4000000000) e.2))
      | none => some 0
    | 0x110 => some l.length
    | 0x114 => some (count fun k => decide (k.mode = .bcast))
    | 0x118 => some (count fun k => decide (k.mode = .owned))
    | 0x120 | 0x124 | 0x128 | 0x12C =>
      some (((List.range 4).map fun j => sget (fun _ => 0) x.agen (off - 0x120 + j) % 256 * 2 ^ (8 * j)).foldl (· + ·) 0)
    | 0x130 => some (bitsOf x.reclaim)
    | _ => none

/-- Registers of a segment's reduction buffers (R355). -/
def redLive (s : State) (d n off : Nat) : Option Nat :=
  match logicalSeg s d n with
  | none => none
  | some g =>
    let os := (sget (fun _ => ({} : SegSt)) s.felt.segs g).orders
    let sel := os[fld (rd s (pSegment d n + 3) 0x104) 5 0]?
    match off with
    | 0x100 => some ((os.map fun o => o.buf.length * (if o.isLse then 4 else 1)).foldl (· + ·) 0)
    | 0x108 | 0x10C => some (half 0x108 off (match sel with
        | some o => o.tgt % 2 ^ 40 + 2 ^ 40 + b2n o.isLse * 2 ^ 41 | none => 0))
    | 0x110 => some (match sel with | some o => o.next % 0x10000 + 0x10000 * ((o.ccount - 1) % 0x10000) | none => 0)
    | _ => none

/-- Registers of the memory controllers (R426, R427, R429, R430). -/
def memLive (s : State) (d : Nat) (k : PageKind) (block off : Nat) : Option Nat :=
  let m := memCtl s d
  let two (l : List Bool) : Nat := b2n (l.getD 0 false) + 2 * b2n (l.getD 1 false)
  match k, off with
  | .sdramc, 0x108 | .sdramc, 0x10C => some (half 0x108 off (rsvdBase d))
  | .sdRepair, 0x108 => some ((m.rowsUsed.map fun e => e.2).foldl (· + ·) 0)
  | .sdRepair, 0x10C => some 327680
  | .sdRepair, 0x110 => some (m.bankUsed.length + 64 * 0x100)
  | .lpddrc, 0x104 => some (two m.present + 4 * two m.trained)
  | .lpddrc, 0x108 => some m.farPoison.length
  | .lpChannel, 0x100 =>
    some (setFld (rd s (pLpddrc d + block) 0x100) 1 0 (b2n (m.present.getD (block - 1) false) + 2 * b2n (m.trained.getD (block - 1) false))).toNat
  | _, _ => none

/-- Registers of a TLB (R472). Entries are numbered in the order in which the holder keeps them. -/
def tlbLive (s : State) (p off : Nat) : Option Nat :=
  let l := sget (fun _ => ([] : List TlbEntry)) s.xlate.tlb p
  let sel := l[fld (rd s p 0x108) 9 0]?
  match off with
  | 0x100 => some (l.length + 0x800 * (s.xlate.walks.filter fun w => w.holder == p).length
      + 0x40000 * (s.xlate.heldStreams.filter fun h => h.holder == p).length)
  | 0x10C => some (match sel with | some e => e.pasid % 0x100000 | none => 0)
  | 0x110 | 0x114 => some (half 0x110 off (match sel with
      | some e => e.va % 2 ^ 49 / 0x10000 * 0x10000 + e.size * 2 ^ 49 + 2 ^ 63 | none => 0))
  | 0x118 | 0x11C => some (half 0x118 off (match sel with | some e => e.leaf.toNat | none => 0))
  | _ => none

/-- Registers of a die's walkers (R474). -/
def walkersLive (s : State) (d off : Nat) : Option Nat :=
  match off with
  | 0x100 => some ((s.xlate.walks.filter fun w => w.die == d).length
      + 0x80 * (sget (fun _ => ([] : List WalkCacheEntry)) s.xlate.wcache d).length
      + 0x10000 * b2n (decide ((unitSt s (pWalkers d)).state ≠ .active)))
  | 0x12C => some ((sget (fun _ => ([] : List Inval)) s.xlate.invals d).length + fld (rd s (pWalkers d) 0x12C) 31 16 * 0x10000)
  | _ => none

/-- Whether a logical tile runs or awaits a task. -/
def ltBusy (s : State) (lt : Nat) : Bool :=
  match tileUnit s lt with
  | some u => (tileSt s (lt / 12) u).task.isSome || (tileSt s (lt / 12) u).issued.isSome
  | none => false

/-- Registers of a dispatcher (R529): the counts stand on the page of the one in service. -/
def dspLive (s : State) (p off : Nat) : Option Nat :=
  let primary := decide (p = (if s.disp.primary = 0 then pDispatch else pStandby))
  let held := (s.disp.resid.filter fun e => !ltBusy s e.1 && (slook s.disp.claims e.1).isNone).length
  let on (n : Nat) : Option Nat := some (if primary then n else 0)
  match off with
  | 0x100 => some (b2n primary + 2 * (if primary then (s.disp.rings.filter fun e => decide (e.2.state = .active)).length else 0))
  | 0x108 => on (dspTasks s)
  | 0x10C => on (dspCmds s)
  | 0x110 => on (s.disp.claims.length + 0x80 * held)
  | _ => none

/-- Registers of the page allocator (R292). -/
def paLive (s : State) (off : Nat) : Option Nat :=
  let run := s.steward.running
  match off with
  | 0x108 => some (b2n (run != []) + 2 * (match run with | e :: _ => e.1 | [] => 0) + 0x80 * b2n (decide (1048576 ≤ s.steward.fallback.length)))
  | 0x10C => some s.steward.active.length
  | _ => none

/-- Registers of a port's credits (R583). -/
def creditLive (s : State) (k off : Nat) : Option Nat :=
  let p := portSt s k
  match off with
  | 0x104 | 0x108 | 0x10C | 0x110 => let v := (off - 0x104) / 4; some (dedFree p v + 0x40 * shHeld p v)
  | 0x114 => some (shFree p)
  | 0x118 => some ([0, 1, 2, 3].map fun v => (sget (fun _ => ([] : List Flit)) s.links.inq (k * 4 + v)).length).sum
  | _ => none

/-- Registers of a copy engine (R624). Engine n of die d serves queue 8n + d (R592). -/
def engineLive (s : State) (d n off : Nat) : Option Nat :=
  match off with
  | 0x100 => some ((s.xfer.msgs.filter fun m => m.die == d && m.engine == some n).length
      + 0x80 * (s.xlate.heldStreams.filter fun h => h.holder == pCopyEngine d n).length)
  | 0x108 => some (s.xfer.tx.filter fun e => decide (e.1 / 4096 / 8 = n) && decide (e.1 / 4096 % 8 = d) && !e.2.chunks.isEmpty).length
  | _ => none

/-- Registers of a die's receive side (R625). -/
def copygrpLive (s : State) (d off : Nat) : Option Nat :=
  match off with
  | 0x100 => some (s.xfer.rx.map fun e => (e.2.entries.filter fun x => x.die == d).length).sum
  | _ => none

/-- Registers of a collective engine (R619, R626). -/
def collectiveLive (s : State) (d off : Nat) : Option Nat :=
  let mine := s.xfer.plans.filter fun e => decide (e.1 / 16 = d)
  let waits := (mine.filter fun e => e.2.waitFrom.isSome).length
  let sel := slook s.xfer.plans (d * 16 + fld (rd s (pCollective d) 0x104) 3 0)
  let held := s.xlate.heldStreams.any fun h => h.holder == pCollective d && h.stream == d * 16 + fld (rd s (pCollective d) 0x104) 3 0
  match off with
  | 0x100 => some (mine.length + 0x20 * waits + 0x400 * b2n (mine != [] && waits == mine.length))
  | 0x108 => some (match sel with
      | some p => p.next % 0x10000 + 0x10000 * (match p.steps[p.next]? with | some x => p.peers.getD x.peer 0 | none => 0)
          + 0x10000000 * (if held then 3 else if p.waitFrom.isSome then 2 else 1)
      | none => 0)
  | 0x10C => some (match sel with | some p => p.seq | none => 0)
  | _ => none

/-- Registers of a die's lag table (R627). -/
def lagLive (s : State) (d off : Nat) : Option Nat :=
  let sel := (sget (fun _ => ([] : List LagEntry)) s.xfer.lag d)[fld (rd s (pCollective d + 1) 0x100) 5 0]?
  match off with
  | 0x104 => some (match sel with | some e => e.node + 0x1000 + 0x2000 * b2n e.lagging | none => 0)
  | 0x108 => some (match sel with
      | some e => e.pace % 0x10000 + 0x10000 * (match e.paceAt with | some t => min ((s.now - t) / 1000) 0xFFFF | none => 0xFFFF)
      | none => 0)
  | 0x110 | 0x114 => some (half 0x110 off (match sel with | some e => e.total | none => 0))
  | 0x118 => some (match sel with | some e => e.win % 1024 | none => 0)
  | _ => none

/-- Registers of a die's power and thermal unit (R772). -/
def pwrLive (s : State) (d off : Nat) : Option Nat :=
  let l := s.power.temps.getD d []
  match off with
  | 0x108 => let h := hotSensor l; some (h.1 + 0x100 * (h.2 % 16))
  | 0x110 => some (l.getD (fld (rd s (pPwrtherm d) 0x10C) 3 0) 0 % 256)
  | _ => none

/-- PS_STAT as the device shows it (R775): the MMC's bits, and SENSE_OPEN of any die. -/
def psStat (s : State) : Nat :=
  (setFld s.mmc.psStat 6 6 (b2n ((List.range 8).any fun d => decide (fld (rd s (pPwrtherm d) 0x118) 2 0 ≠ 0)))).toNat

/-- Registers of Blocker (R775); THROTTLE, STUCK and ASSERTED follow the pin, HOLD_NS the HOLD that lasts (R758). -/
def blockerLive (s : State) (off : Nat) : Option Nat :=
  let sel := rd s pBlocker 0x140
  match off with
  | 0x10C => some (setFld (setFld (rd s pBlocker 0x10C) 15 15 (b2n s.power.throttle)) 16 16 (b2n (bitOf (rd s pBlocker 0x170) 1))).toNat
  | 0x114 => some s.power.vin
  | 0x138 | 0x13C => some (half 0x138 off (sget (fun _ => 0) s.power.ringEnergy (fld (rd s pBlocker 0x130) 12 0) / 1000000))
  | 0x148 =>
    let m := sget (fun _ => ({} : PhaseModel)) s.power.models (fld sel 13 8 * 256 + fld sel 7 0)
    some (min m.pnom 0xFFFF + 0x10000 * min m.sens 256 + 0x2000000 * min m.samples 127)
  | 0x150 => some (s.power.shares.getD (fld (rd s pBlocker 0x14C) 3 0) 0)
  | 0x160 | 0x164 => some (half 0x160 off (rd64 s pBlocker 0x160 + (if s.inHold then s.now - s.power.hold.enteredAt else 0)))
  | 0x16C => some (psStat s)
  | 0x170 => some (setFld (rd s pBlocker 0x170) 0 0 (b2n s.power.throttle)).toNat
  | _ => none

/-- PACE_MIN_PEER (R628): the lowest pace bits among the tracked peers that sent any, the lowest node on a tie. -/
def paceMinPeer (s : State) : Nat :=
  let l := (s.xfer.lag.flatMap fun e => e.2).filter fun e => e.paceAt.isSome
  match l with
  | [] => 0
  | x :: t =>
    let m := t.foldl (fun a e => if e.pace < a.pace ∨ (e.pace = a.pace ∧ e.node < a.node) then e else a) x
    m.pace % 0x10000 + 0x10000 * m.node

/-- Registers of the journal (R810). -/
def journalLive (s : State) (off : Nat) : Option Nat :=
  let a := s.nor.slots.getD 0 {}
  let b := s.nor.slots.getD 1 {}
  match off with
  | 0x100 => some (b2n a.valid + 2 * b2n b.valid + 4 * (newestSlot s).getD 0 + (rd s pJournal 0x100).toNat / 8 % 2 * 8 + 16 * b2n s.nor.erasing.isSome)
  | 0x104 => some (if a.valid then a.seq else 0)
  | 0x108 => some (if b.valid then b.seq else 0)
  | 0x118 => some (b2n s.nor.erasing.isSome + 2)
  | _ => none

/-- The selected DIST entry (R51). -/
def distData (s : State) : Nat :=
  let i := fld (rd s pDist 0x100) 13 0
  if i < 15360 then (sget (fun _ => (0 : Word)) s.org.dist i).toNat else 0

/-- Registers of the hub's and the device's pages that are computed. -/
def hubLive (s : State) (k : PageKind) (p off : Nat) : Option Nat :=
  match k, off with
  | .hostif, 0x108 => some s.host.biWait.length
  | .hostif, 0x10C => some s.power.hold.host.length
  | .hiCxl, 0x100 => some (if s.org.variant = 1 then 512 else 768)
  | .hiCxl, 0x104 => some (s.felt.copies.filter fun e => decide (e.1 / 0x4000000000 = 8)).length
  | .ucie, 0x104 => some (setFld (rd s p 0x104) 0 0 (b2n (s.org.csPresent.getD (pageDie p - 9) false))).toNat
  | .mmcbox, 0x108 => some ((rd s p 0x108).toNat % 8 + 8 * b2n s.mmc.ready + 16 * s.mmc.modId)
  | .watchdog, 0x118 | .watchdog, 0x11C => some (half 0x118 off (sget (fun _ => 0) s.ringProg (fld (rd s p 0x110) 12 0 * 3)))
  | .watchdog, 0x120 | .watchdog, 0x124 => some (half 0x120 off (sget (fun _ => 0) s.ringProg (fld (rd s p 0x110) 12 0 * 3 + 1)))
  | .watchdog, 0x128 | .watchdog, 0x12C => some (half 0x128 off (sget (fun _ => 0) s.ringProg (fld (rd s p 0x110) 12 0 * 3 + 2)))
  | .watchdog, 0x150 | .watchdog, 0x154 => some (half 0x150 off (rsvdBase 0 + 0x40000))
  | .watchdog, 0x168 => some s.nor.wear
  | .pace, 0x10C => some (paceMinPeer s)
  | .dist, 0x104 => some (distData s)
  | .dist, 0x10C => some (96 + 12 * 0x100 + 160 * 0x10000)
  | .dev, 0x100 | .dev, 0x104 => some (half 0x100 off s.now)
  | .dev, 0x108 =>
    some (s.org.order + 16 * s.org.tilesPerDie + 0x100 * s.org.variant + 0x400 * b2n (s.org.csPresent.getD 0 false)
      + 0x800 * b2n (s.org.csPresent.getD 1 false))
  | .slice, 0x1A0 | .slice, 0x1A4 => some (half 0x1A0 off (bitsOf ((s.slices.filter fun e => e.2.contained).map fun e => e.1)))
  | .hubprot, 0x100 => some s.prot.waiting.length
  | .hubprot, 0x104 => some (match s.prot.waiting with
      | [] => 0
      | x :: t => let q := t.foldl min x; pageDie q + 0x10 * pageUnit q + 0x400 * pageBlock q)
  | _, _ => none

/-- The word of a page that the hardware computes, if it is one; `none` for a stored register. -/
def live (s : State) (p off : Nat) : Option Nat :=
  let d := pageDie p
  let u := pageUnit p
  let b := pageBlock p
  match pageKind p with
  | none => none
  | some k =>
    if off < 0x100 then
      (if !k.hasHeader then none
       else match off with
        | 0x00 => some (unitId s p)
        | 0x04 => some (unitCap s p)
        | 0x08 => some (b2n (unitSt s p).enable + 2 * b2n (unitSt s p).drain)
        | 0x0C => some (unitStat s p).toNat
        | _ => none)
    else match k with
      | .tile => tileLive s d u off
      | .vc => vcLive s d u (b - 1) off
      | .matrix => matrixLive s d u off
      | .gather | .smu | .codec => attnLive s d u k off
      | .tstore => if off = 0x100 then some ((tileSt s d u).l1Size + 4 * (tileSt s d u).pin) else none
      | .tlb => tlbLive s p off
      | .cluster => clusterLive s d (u - 16) off
      | .segment => segLive s d (u - 20) off
      | .segDir => dirLive s d (u - 20) off
      | .segRed => redLive s d (u - 20) off
      | .sdramc | .sdRepair | .lpddrc | .lpChannel => memLive s d k b off
      | .walkers => walkersLive s d off
      | .collective => collectiveLive s d off
      | .colLag => lagLive s d off
      | .copyEngine => engineLive s d (b - 1) off
      | .copygrp => copygrpLive s d off
      | .pwrtherm => pwrLive s d off
      | .portCredit => creditLive s (6 * d + (u - 36)) off
      | .dispatch | .standby => dspLive s p off
      | .pagealloc => paLive s off
      | .blocker => blockerLive s off
      | .journal => journalLive s off
      | _ => hubLive s k p off

/-- A register word as it reads, of a register that no requester's selector chooses. -/
def regWord (s : State) (p off : Nat) : Word :=
  match live s p off with
  | some v => BitVec.ofNat 32 v
  | none => rd s p off

/-! ### SNAP_DATA (R98) -/

/-- Rings with the pending bit set (R530). -/
def scanPend (s : State) : Nat := (s.disp.rings.filter fun e => e.2.pend).length

/-- SNAP_DATA of a page, without the zeros at its end (R153, R203, R249, R251, R252, R293, R352, R426, R429, R473, R475, R531,
R583, R624, R626, R718, R773, R776, R809, R810, R850). -/
def snapWords (s : State) (p : Nat) : List Word :=
  let d := pageDie p
  let u := pageUnit p
  let copies (l : List Nat) : List Word := l.map (regWord s p)
  match pageKind p with
  | some .vc =>
    let n := pageBlock p - 1
    let t := tileSt s d u
    let mine := t.resident.filter fun e => e.1 / 16 == n
    let w := bitsOf (mine.map fun e => e.1 % 16) + 0x10000 * bitsOf ((mine.filter fun e => e.2.parked.isSome).map fun e => e.1 % 16)
    BitVec.ofNat 32 w :: regWord s p 0x104
      :: (List.range 16).map fun i => BitVec.ofNat 32 (match slook t.resident (16 * n + i) with | some g => g.pc | none => 0)
  | some .matrix => copies [0x100, 0x104, 0x108, 0x10C, 0x110, 0x114, 0x120]
  | some .gather => copies [0x104, 0x108, 0x10C, 0x110, 0x114, 0x118, 0x11C]
  | some .smu => copies [0x100, 0x10C]
  | some .codec => copies [0x100]
  | some .pagealloc => copies [0x108, 0x10C] ++ [BitVec.ofNat 32 s.steward.lastNo]
  | some .segment => copies [0x108, 0x104, 0x110]
  | some .sdramc => copies [0x100, 0x104, 0x124]
  | some .lpddrc => copies [0x104, 0x108]
  | some .tlb => copies [0x100, 0x104]
  | some .walkers => copies [0x100, 0x12C]
  | some .dispatch | some .standby =>
    copies [0x100, 0x108, 0x10C, 0x110] ++ [BitVec.ofNat 32 (if p = (if s.disp.primary = 0 then pDispatch else pStandby) then scanPend s else 0)]
  | some .port =>
    let k := 6 * d + (u - 36)
    let x := portSt s k
    [rd s p 0x110, rd s (p + 1) 0x108] ++ ([0x104, 0x108, 0x10C, 0x110, 0x114, 0x118].map fun o => regWord s (p + 3) o)
      ++ [BitVec.ofNat 32 (x.txNext % 4096 + 0x10000 * (x.lastAck % 4096))]
  | some .copyEngine => copies [0x100, 0x108]
  | some .collective => copies [0x100]
  | some .watchdog => copies [0x100, 0x108, 0x164]
  | some .pwrtherm => copies [0x100, 0x104, 0x108, 0x114]
  | some .blocker => copies [0x10C, 0x110, 0x114, 0x118, 0x158]
  | some .boot => copies [0x100, 0x160]
  | some .journal => copies [0x100]
  | some .hostif => copies [0x100, 0x108]
  | _ => []

end Sys2Proof.Machine
end

