-- ==== Sys2Proof/Machine/Events.lean ====
section
/-! DEFINITION. How events and errors rise through the pages (R79 to R87), progress counters (R88 to R90) and the
snapshot mechanism (R93 to R101). -/

namespace Sys2Proof.Machine

/-! ### Events -/

/-- Whether a page holds an enabled pending event (R81). -/
def evtPending (s : State) (p : Nat) : Bool := decide ((rd s p 0x10 &&& rd s p 0x14) ≠ 0)

/-- Send an MSI-X message and count it in INTR_SENT (R668). -/
def sendMsix (fn vec : Nat) (s : State) : State := add64 pIntr 0x100 1 (emit (.msix fn vec) s)

/-- Whether a slice is redirected: from the start of its containment to its release (R643). -/
def redirected (s : State) (slice : Nat) : Bool := (sliceSt s slice).contained

/-- Bit `slice` of REDIR_PEND (R643). -/
def redirPend (s : State) (slice : Nat) : Bool := nbit (rd64 s pIntr 0x110) slice

/-- The window WIN_s of a slice: whether it is enabled and its BASE (R642, R669). -/
def window (s : State) (slice : Nat) : Bool × Nat :=
  let w := stg s pIntr 0 pWindows (0x100 + 4 * slice)
  (bitOf w 11, fld w 10 0)

/-- A redirected slice's message: one to PF vector INTR_REDIR.VECTOR while bit s of REDIR_PEND is clear (R643). -/
def sendRedirected (slice : Nat) (s : State) : State :=
  if redirPend s slice then s
  else sendMsix 0 (fld (rd s pIntr 0x108) 10 0) (wr64 pIntr 0x110 (rd64 s pIntr 0x110 + 2 ^ slice) s)

/-- Set bits of EVT_STAT without sending anything. -/
def orEvt (p : Nat) (bits : Word) (s : State) : State := wr p 0x10 (rd s p 0x10 ||| bits) s

mutual
/-- Set EVT_STAT bits of a page (R80); send one event message when an enabled pending bit appears where none was
(R81), and carry the summary bit up to the page's group (R86) unless the page is SPARE or RETIRED (R87). -/
def raiseEvtF : Nat → Nat → Word → State → State
  | 0, p, bits, s => orEvt p bits s
  | fuel + 1, p, bits, s =>
    let was := evtPending s p
    let s1 := orEvt p bits s
    if was || !evtPending s1 p then s1
    else
      let s2 := deliverF fuel p s1
      if counted s2 p then
        match parentOf p with
        | some (g, n) => raiseEvtF fuel g (oneBit n) s2
        | none => s2
      else s2
/-- Deliver one event message of a page as its EVT_ROUTE says (R82, R83). -/
def deliverF : Nat → Nat → State → State
  | 0, p, s => emit (.holog p) s
  | fuel + 1, p, s =>
    let r := rd s p 0x1C
    let s := if bitOf r 19 && decide (fld r 1 0 ≠ 0) then { s with alertN := true } else s
    match fld r 1 0 with
    | 0 => s
    | 1 => sendMsix 0 (fld r 12 2) s
    | 2 =>
      let slice := fld r 18 13
      if redirected s slice then raiseEvtF fuel pIntr (oneBit 0) (sendRedirected slice s)
      else if fld r 12 2 < 64 ∧ (window s slice).1 then
        sendMsix (sliceFunc s pIntr slice) ((window s slice).2 + fld r 12 2) s
      else raiseEvtF fuel pIntr (oneBit 1) (emit (.holog p) s)
    | _ => emit (.holog p) s
end

/-- Set EVT_STAT bits of a page, with everything that follows (R79 to R87). -/
def raiseEvt (p : Nat) (bits : Word) (s : State) : State := raiseEvtF 10 p bits s

/-- Set one event bit of a page. -/
def event (p n : Nat) (s : State) : State := raiseEvt p (oneBit n) s

/-- Clear EVT_STAT bits of a page; when no enabled bit is left pending, clear its summary bit in the group and so
upward (R81, R86). -/
def dropEvtF : Nat → Nat → Word → State → State
  | 0, p, bits, s => wr p 0x10 (rd s p 0x10 &&& ~~~bits) s
  | fuel + 1, p, bits, s =>
    let was := evtPending s p
    let s1 := wr p 0x10 (rd s p 0x10 &&& ~~~bits) s
    if was && !evtPending s1 p then
      match parentOf p with
      | some (g, n) => dropEvtF fuel g (oneBit n) s1
      | none => s1
    else s1

def dropEvt (p : Nat) (bits : Word) (s : State) : State := dropEvtF 6 p bits s

/-- Write EVT_EN (R80): the message and the summary follow the new value of EVT_STAT & EVT_EN (R81, R86). -/
def writeEvtEn (p : Nat) (v : Word) (s : State) : State :=
  let was := evtPending s p
  let s1 := wr p 0x14 v s
  let isNow := evtPending s1 p
  if !was && isNow then
    let s2 := deliverF 8 p s1
    if counted s2 p then
      match parentOf p with
      | some (g, n) => raiseEvtF 8 g (oneBit n) s2
      | none => s2
    else s2
  else if was && !isNow then
    match parentOf p with
    | some (g, n) => dropEvtF 5 g (oneBit n) s1
    | none => s1
  else s1

/-- Whether a page is a group's. -/
def isGroupPage (p : Nat) : Bool := match pageKind p with | some k => k.isGroup | none => false

/-- Change a unit's state; EVT_STAT.STATE of a member page is set where the change did not come from the page's own
UNIT_CTRL (R79). -/
def setUState (p : Nat) (st : UState) (byCtrl : Bool) (s : State) : State :=
  if (unitSt s p).state = st then s
  else
    let s1 := setUnit p { unitSt s p with state := st } s
    if byCtrl || isGroupPage p then s1 else event p 30 s1

/-- The message of a slice's event: to its window, or redirected (R291, R507, R642, R643). -/
def sliceMessage (slice vec : Nat) (s : State) : State :=
  if redirected s slice then raiseEvt pIntr (oneBit 0) (sendRedirected slice s)
  else if vec < 64 ∧ (window s slice).1 then sendMsix (sliceFunc s pIntr slice) ((window s slice).2 + vec) s
  else raiseEvt pIntr (oneBit 1) (emit (.holog pIntr) s)

/-! ### Progress counters -/

/-- Add to PROGRESS counter `i` of a page; the first four also add to the counters of its groups while the page counts
there (R88 to R90). Counters stand still in HOLD (R758). -/
def addProg (p i n : Nat) (s : State) : State :=
  if s.inHold ∨ n = 0 then s
  else
    let s1 := add64 p (0x40 + 8 * i) n s
    if i < 4 ∧ counted s p then (groupsAbove 5 p).foldl (fun t g => add64 g (0x40 + 8 * i) n t) s1 else s1

/-! ### Snapshots -/

/-- SNAP_STAT.LATCHED (R94). -/
def snapLatched (s : State) : Bool := bitOf (rd s pSnap 0x10C) 1

/-- Write a list of words to consecutive register words. -/
def wrWords (p off : Nat) : List Word → State → State
  | [], s => s
  | w :: t, s => wrWords p (off + 4) t (wr p off w s)

/-- Whether a page exists now: a chiplet's page only where the site was discovered (R68). -/
def pagePresent (s : State) (p : Nat) : Bool :=
  match pageKind p with
  | some .chiplet => siteUp s (pageDie p - 9)
  | some _ => true
  | none => false

/-- One page latches its SNAP window (R96, R98) and sets EVT_STAT.SNAP (R101): timestamp, sequence, source bits and
origin node, UNIT_STAT, and the kind's words. -/
def latchPage (ts seq src origin : Nat) (s : State) (p : Nat) : State :=
  if !pagePresent s p then s
  else
    let data := (snapWords s p).take 27
    let w := BitVec.ofNat 32 ts :: BitVec.ofNat 32 (ts / 0x100000000) :: BitVec.ofNat 32 (seq % 0x10000)
      :: BitVec.ofNat 32 (src % 16 + 16 * (origin % 4096)) :: unitStat s p
      :: (data ++ List.replicate (27 - data.length) 0)
    let s1 := wrWords p 0x80 w s
    if hasHeader p && !(match pageKind p with | some k => k.isGroup | none => true) then raiseEvt p (oneBit 29) s1
    else s1

/-- NODE_ID.NODE of the device (R579): one register for the device, held at port 0's page. -/
def nodeId (s : State) : Nat := fld (rd s (pPort 0) 0x100) 11 0

/-- Every page latches (R96); SNAP_STAT and SNAP_LAST_TS follow (R94). -/
def latchAll (seq src origin : Nat) (s : State) : State :=
  let ts := s.now
  let s1 := allHeaderPages.foldl (latchPage ts seq src origin) s
  wr64 pSnap 0x120 ts (wr pSnap 0x10C (BitVec.ofNat 32 (2 + 0x100 * (src % 16))) s1)

/-- Whether a port is in UP, LSTATE 6 of R543, as LINK_STAT shows it (R579). -/
def portLState (s : State) (k : Nat) : Nat := fld (rd s (pPort k) 0x110) 3 0

/-- A trigger this device originates from sources `src` (R93 to R99): not acted on and counted while LATCHED without
OVERWRITE (R97); else SNAP_SEQ rises, every page latches, and the trigger is sent to the fabric under FAB_TX_EN. -/
def snapTrigger (src : Nat) (s : State) : State :=
  if snapLatched s && !bitOf (rd s pSnap 0x100) 3 then satInc pSnap 0x114 1 s
  else
    let seq := (fld (rd s pSnap 0x110) 15 0 + 1) % 0x10000
    let s1 := latchAll seq src (nodeId s) (wr pSnap 0x110 (BitVec.ofNat 32 seq) s)
    if bitOf (rd s pSnap 0x100) 2 then
      let s2 := { s1 with snap := { s1.snap with seen := ((nodeId s, seq) :: s1.snap.seen).take 16 } }
      ((List.range 48).filter fun k => portLState s k == 6).foldl
        (fun t k => emit (.snapTrig k (nodeId s) seq) t) s2
    else s1

/-! ### Error records -/

/-- ERR_CODE of a record with a count (R84). -/
def errCodeWord (e : ErrRec) (count : Nat) : Word :=
  BitVec.ofNat 32 (e.detail % 256 + 0x100 * (e.cls % 256) + 0x10000 * (e.gen % 256) + 0x1000000 * count + 0x80000000)

/-- The eight words of ERR_REC for a new record (R84). -/
def errWords (e : ErrRec) (ts : Nat) : List Word :=
  [errCodeWord e 1, BitVec.ofNat 32 e.addr,
   BitVec.ofNat 32 (e.addr / 0x100000000 % 0x20000 + 0x40000000 * b2n e.phys + 0x80000000 * b2n e.addrValid),
   BitVec.ofNat 32 (e.pasid % 0x100000 + 0x100000 * (e.slice % 64)),
   BitVec.ofNat 32 (e.ring % 8192 + 0x80000000 * b2n e.ctxValid), BitVec.ofNat 32 e.seq,
   BitVec.ofNat 32 (e.srcDie % 16 + 16 * (e.srcUnit % 64) + 0x400 * (e.srcLogical % 64)), BitVec.ofNat 32 ts]

/-- One page takes a capture (R85, R86): a new record while VALID = 0, else COUNT + 1, saturating at 127. -/
def capture1 (p : Nat) (e : ErrRec) (s : State) : State :=
  let code := rd s p 0x20
  if bitOf code 31 then wr p 0x20 (setFld code 30 24 (min (fld code 30 24 + 1) 127)) s
  else wrWords p 0x20 (errWords e s.now) s

/-- The journal engine keeps the 40 newest records of member pages as entries of 48 bytes (R766). -/
def noteJournal (p : Nat) (w : List Word) (s : State) : State :=
  let b := leBytes 4 (p * 4096) ++ (w.flatMap fun x => leBytes 4 x.toNat) ++ List.replicate 12 0
  { s with power := { s.power with errRing := (b :: s.power.errRing).take 40 } }

/-- A unit captures an error: its own record and EVT_STAT.ERR for a new one, the capture at each of its groups
(R84 to R87), and a snapshot where SNAP_CFG.ERR_CLASS selects the class (R93, R95). -/
def captureErr (p : Nat) (e : ErrRec) (s : State) : State :=
  let new := !bitOf (rd s p 0x20) 31
  let s0 := capture1 p e s
  let s1 := if new then noteJournal p (errWords e s.now) s0 else s0
  let s2 := if new then event p 31 s1 else s1
  let s3 := if counted s p then (groupsAbove 5 p).foldl (fun t g => capture1 g e t) s2 else s2
  let k := e.cls / 16
  if 1 ≤ k ∧ k ≤ 4 ∧ bitOf (rd s pSnap 0x100) (8 + k) then snapTrigger 4 s3 else s3

/-- Clear a page's record: clearing VALID clears all of it (R84). -/
def clearErr (p : Nat) (s : State) : State := wrWords p 0x20 (List.replicate 8 0) s

/-! ### The NOR in service and the wear record -/

/-- The NOR is programmed: the JOURNAL page counts the bytes (R810). -/
def norProgram (a : Nat) (l : List Byte) (s : State) : State := addProg pJournal 1 l.length (wrNorN a l s)

/-- Erase sectors of 4 KiB are erased: the JOURNAL page counts them (R799, R810). -/
def norErase (a n : Nat) (s : State) : State := addProg pJournal 0 (n / 4096) (eraseNor a n s)

/-- The 32 bytes of a wear-record entry (R710). -/
def wearBytes (kind die unit spare logical wh time boots : Nat) : List Byte :=
  let b := leBytes 4 (kind + 0x100 * die + 0x1000 * unit + 0x40000 * spare + 0x1000000 * logical) ++ leBytes 8 wh
    ++ leBytes 8 time ++ leBytes 4 boots ++ leBytes 4 0
  b ++ leBytes 4 (crc32 b)

/-- Append an entry to the wear record (R710), WEAR_FULL at 235,930 entries. -/
def wearWrite (kind die unit spare logical wh : Nat) (s : State) : State :=
  if 262144 ≤ s.nor.wear then s
  else
    let s1 := norProgram (0x100000 + 32 * s.nor.wear) (wearBytes kind die unit spare logical wh s.now s.nor.boots) s
    let s2 : State := { s1 with nor := { s1.nor with wear := s1.nor.wear + 1 } }
    if s2.nor.wear = 235930 then event pWatchdog 6 s2 else s2

/-- Whether the wear record is full, when Pounce orders no further repair or substitution (R710). -/
def wearFull (s : State) : Bool := decide (262144 ≤ s.nor.wear)

/-- Pounce has brought in a spare or committed a repair (R718, R719): SPARE_USED, PROG_K3, and PN_STAT for a substitution. -/
def pounceDone (subst : Bool) (s : State) : State :=
  let w := rd s pWatchdog 0x164
  let s1 := if subst then wr pWatchdog 0x164 (setFld w 15 8 (min (fld w 15 8 + 1) 255)) s else s
  addProg pWatchdog 7 1 (event pWatchdog 4 s1)

/-! ### Hatbox triggers -/

/-- HB_STAT.VALID (R718). -/
def hatValid (s : State) : Bool := bitOf (rd s pWatchdog 0x14C) 0

/-- A trigger of R711 arrives: it waits for Holog to write the image, or is counted while an image is held (R712). -/
def hatTrigger (code : Nat) (s : State) : State :=
  if hatValid s then satInc pWatchdog 0x158 1 s
  else { s with recov := { s.recov with hatReq := s.recov.hatReq ++ [code] } }

end Sys2Proof.Machine
end

