-- ==== Sys2Proof/Machine/Felt.lean ====
section
/-! DEFINITION. The Felt's homes (07_felt.md): where a line's home is, sectors and poison, the transactions of R324 to
R327, atomics and ordered reductions, and the coherent reads and writes the engines of the device make. -/

namespace Sys2Proof.Machine

/-! ### Homes -/

/-- The home hash of a physical address (R46). -/
def homeHash (pa : Nat) : Nat := (pa / 0x400 % 0x10000) ^^^ (pa / 0x4000000 % 0x10000) ^^^ (pa / 0x40000000000 % 64)

/-- The home segment of a line, die × 12 + LS: INTERLEAVED over all 96 (R46; always so for host memory, R47), or LOCAL
on the owning die. -/
def homeSeg (pa : Nat) (interleaved : Bool) : Nat :=
  if interleaved || inHost pa then homeHash pa * 96 / 0x10000 else ownerDie pa * 12 + homeHash pa * 12 / 0x10000

/-- The logical segment that holds a die's replica of a line (R300). -/
def replicaSeg (pa : Nat) : Nat := homeHash pa * 12 / 0x10000

/-- The key of a line at its home. -/
def lineKey (seg line : Nat) : Nat := seg * 0x4000000000 + line

/-- The key of an agent's copy of a line. -/
def copyKey (agent line : Nat) : Nat := agent * 0x4000000000 + line

/-- A line at its home. -/
def home (s : State) (seg line : Nat) : HomeLine := sget (fun _ => ({} : HomeLine)) s.felt.lines (lineKey seg line)

def setHome (seg line : Nat) (h : HomeLine) (s : State) : State :=
  { s with felt := { s.felt with lines := sput (fun _ => ({} : HomeLine)) s.felt.lines (lineKey seg line) h } }

/-- A segment's tables. -/
def segSt (s : State) (seg : Nat) : SegSt := sget (fun _ => ({} : SegSt)) s.felt.segs seg

def setSegSt (seg : Nat) (v : SegSt) (s : State) : State :=
  { s with felt := { s.felt with segs := sput (fun _ => ({} : SegSt)) s.felt.segs seg v } }

/-- An agent's copy of a line. -/
def copyOf (s : State) (agent line : Nat) : Option AgLine := slook s.felt.copies (copyKey agent line)

def setCopy (agent line : Nat) (c : AgLine) (s : State) : State :=
  { s with felt := { s.felt with copies := sadd s.felt.copies (copyKey agent line) c } }

def dropCopy (agent line : Nat) (s : State) : State :=
  { s with felt := { s.felt with copies := serase (copyKey agent line) s.felt.copies } }

/-- Put a message in flight. -/
def send (m : FMsg) (s : State) : State := { s with felt := { s.felt with net := s.felt.net ++ [m] } }

/-- The first message in flight that a test accepts, and the others. -/
def takeFirst {α : Type} (p : α → Bool) : List α → Option (α × List α)
  | [] => none
  | a :: t =>
    if p a then some (a, t)
    else
      match takeFirst p t with
      | some (b, t') => some (b, a :: t')
      | none => none

/-- Take the first message of a kind for a segment, line and agent. -/
def takeMsg (k : FMsgKind) (seg line agent : Nat) (s : State) : Option (FMsg × State) :=
  match takeFirst (fun m : FMsg => decide (m.kind = k) && m.seg == seg && m.line == line && m.agent == agent) s.felt.net with
  | some (m, rest) => some (m, { s with felt := { s.felt with net := rest } })
  | none => none

/-- Take the first message of a kind for a segment, line, agent and stream. -/
def takeMsgS (k : FMsgKind) (seg line agent stream : Nat) (s : State) : Option (FMsg × State) :=
  match takeFirst (fun m : FMsg => decide (m.kind = k) && m.seg == seg && m.line == line && m.agent == agent
      && m.stream == stream) s.felt.net with
  | some (m, rest) => some (m, { s with felt := { s.felt with net := rest } })
  | none => none

/-- An agent's generation (R343). -/
def agentGen (s : State) (a : Nat) : Nat := sget (fun _ => 0) s.felt.agen a

/-- The generation a home expects of an agent (R343). -/
def expectGen (s : State) (seg a : Nat) : Nat := sget (fun _ => 0) (segSt s seg).agen a

/-- The directory extension page of a segment. -/
def segDirPage (s : State) (seg : Nat) : Nat := segPage s seg + 1

/-- Count a stale message dropped at a home (R343, R677). -/
def staleDrop (seg : Nat) (s : State) : State := satInc (segDirPage s seg) 0x134 1 (add64 pWatchdog 0x138 1 s)

/-- The agents present: every die, the hub, and the chiplets whose site is up (R301), but for the dead ones, which hold
nothing and whose answers are dropped (R343, R345). -/
def agentsPresent (s : State) : List Nat :=
  ([0, 1, 2, 3, 4, 5, 6, 7, 8] ++ (if siteUp s 0 then [9] else []) ++ (if siteUp s 1 then [10] else [])).filter
    fun a => !s.felt.dead.contains a

/-- The agents of a slice-set mask as the segment acts on it (R310): index 0 is every agent present, and agents 8 to 10
belong to every mask. -/
def ssetAgents (s : State) (u sset : Nat) : List Nat :=
  if sset = 0 then agentsPresent s
  else (agentsPresent s).filter fun a => decide (8 ≤ a) || bitOf (stg s u 0 pProt (0x120 + 4 * sset)) a

/-! ### Sectors -/

def HomeLine.sector (h : HomeLine) (i : Nat) : SState := h.sect.getD i .i

def HomeLine.setSector (h : HomeLine) (i : Nat) (v : SState) : HomeLine := { h with sect := h.sect.set i v }

def lineDefault : Nat → Byte := fun _ => 0

/-- One byte of a line's data at its home. -/
def HomeLine.byte (h : HomeLine) (off : Nat) : Byte := sget lineDefault h.data off

/-- Bytes put into a line's data. -/
def putCells : List Cell → List Cell → List Cell
  | [], d => d
  | c :: t, d => putCells t (sput lineDefault d c.1 c.2)

/-- The bytes of one sector of a line's data, as cells by offset. -/
def cellsOfSector (f : Nat → Byte) (i : Nat) : List Cell := (List.range 256).map fun k => (256 * i + k, f (256 * i + k))

/-- `n` bytes of a line's data from `off`. -/
def HomeLine.bytes (h : HomeLine) (off : Nat) : Nat → List Byte
  | 0 => []
  | n + 1 => h.byte off :: h.bytes (off + 1) n

/-- Bytes put into a line's data from `off`. -/
def HomeLine.putBytes (h : HomeLine) (off : Nat) : List Byte → HomeLine
  | [] => h
  | b :: t => HomeLine.putBytes { h with data := sput lineDefault h.data off b } (off + 1) t

/-- The sectors of a line in a state. -/
def HomeLine.sectorsIn (h : HomeLine) (v : SState) : List Nat := (List.range 4).filter fun i => decide (h.sector i = v)

/-- Whether a byte is among the cells. -/
def hasCell (l : List Cell) (off : Nat) : Bool := l.any fun c => c.1 == off

/-- Whether cells cover every byte of a sector. -/
def coversSector (l : List Cell) (i : Nat) : Bool := (List.range 256).all fun k => hasCell l (256 * i + k)

/-- The sectors a set of cells touches. -/
def sectorsTouched (l : List Cell) : List Nat := (List.range 4).filter fun i => l.any fun c => c.1 / 256 == i

/-! ### Poison (R340, R341) -/

/-- The SEG_POISON_LOG cause of a detail code (R351, R356). -/
def poisonCause (detail : Nat) : Nat :=
  match detail with
  | 0x01 => 0 | 0x0A => 1 | 0x0B => 2 | 0x03 => 3 | 0x09 => 4 | _ => 5

/-- A home logs sectors marked P (R341): ERR_REC, SEG_POISON_LOG, SEG_POISON_CNT, the POISONED event. -/
def logPoison (seg line : Nat) (sectors : List Nat) (detail agent : Nat) (s : State) : State :=
  if sectors.isEmpty then s
  else
    let p := segPage s seg
    let idx := rd s p 0x128
    let k := fld idx 3 0
    let entry := line % 2 ^ 38 + 2 ^ 38 * ((sectors.map fun i => 2 ^ i).foldl (· + ·) 0) + 2 ^ 42 * poisonCause detail
      + 2 ^ 46 * (agent % 16)
    let s := wr64 p (0x180 + 8 * k) entry s
    let s := wr p 0x128 (BitVec.ofNat 32 ((k + 1) % 16 + 16 * min (fld idx 31 4 + 1) 0xFFFFFFF)) s
    let s := satInc p 0x120 1 s
    let s := event p 2 s
    let owner := home s seg line
    captureErr p { cls := 0x20, detail := detail, addr := line * 1024, phys := true, addrValid := true,
                   ctxValid := owner.slice.isSome, slice := owner.slice.getD 0, srcDie := seg / 12,
                   srcUnit := 20 + segUnit s seg, srcLogical := seg % 12 } s

/-- A home marks sectors P (R340). -/
def markPoison (seg line : Nat) (sectors : List Nat) (detail agent : Nat) (s : State) : State :=
  if sectors.isEmpty then s
  else
    let h := home s seg line
    let h' := sectors.foldl (fun x i => x.setSector i .p) h
    logPoison seg line sectors detail agent (setHome seg line h' s)

/-- Count P sectors delivered to a requester (R341). -/
def countPoisonReads (seg n : Nat) (s : State) : State := if n = 0 then s else satInc (segPage s seg) 0x124 n s

/-! ### Applying operations at the home -/

/-- Apply a write of cells: a sector it covers whole becomes D and loses its poison; a partly written sector becomes D
unless it is P (R324, R340). -/
def applyWrite (cells : List Cell) (h : HomeLine) : HomeLine :=
  let h1 := { h with data := putCells cells h.data }
  (sectorsTouched cells).foldl
    (fun x i => if coversSector cells i then x.setSector i .d else if x.sector i = .p then x else x.setSector i .d) h1

/-- Merge an owner's data: the carried sectors become D, those with the poison bit become P (R324, R340). -/
def mergeOwner (m : FMsg) (h : HomeLine) : HomeLine :=
  let h1 := { h with data := putCells m.data h.data }
  m.sectors.foldl (fun x i => x.setSector i (if m.poison.contains i then .p else .d)) h1

/-- The sectors a request needs present before it is served (R324): its own for RD_ONCE, all for RD_SHARED and RD_OWN,
the partly written ones for WR, the target's for an operation; contribution 0 of an ordered vector round replaces its
sector and needs none (R335). -/
def neededSectors (r : FReq) : List Nat :=
  match r.kind with
  | .rdOnce => r.sectors
  | .rdShared | .rdOwn => [0, 1, 2, 3]
  | .wr => (sectorsTouched r.data).filter fun i => !coversSector r.data i
  | .atom => [r.off / 256]
  | .red => if r.ordered ∧ r.cidx = 0 then [] else [r.off / 256]
  | .lse => [0, 1, 2, 3]
  | _ => []

/-- What applying an operation gives: the line, the value and flags for the answer, and a failure detail (0: none). -/
structure Applied where
  line : HomeLine
  value : Nat := 0
  flags : Nat := 0
  detail : Nat := 0
deriving DecidableEq, Repr

/-- A scalar atomic at the home (R330, R340). -/
def applyScalar (r : FReq) (h : HomeLine) : Applied :=
  let i := r.off / 256
  if h.sector i = .p then { line := h, detail := 0x05 }
  else
    let old := leNat (h.bytes r.off r.size)
    let res := scalarOp r.code r.size old (leNat r.operand) r.compare
    { line := (h.putBytes r.off (leBytes r.size res.1)).setSector i .d, value := old, flags := res.2 }

/-- One vector contribution combined into its sector, or replacing it (R330, R335). -/
def applyVector (code off : Nat) (replace : Bool) (operand : List Byte) (h : HomeLine) : Applied :=
  let i := off / 256
  if replace then { line := (h.putBytes (256 * i) (operand.take 256)).setSector i .d }
  else if h.sector i = .p then { line := h, detail := 0x05 }
  else
    let res := vectorOp code (256 / vectorWidth code) (h.bytes (256 * i) 256) operand
    { line := (h.putBytes (256 * i) res.1).setSector i .d, flags := res.2 }

/-- Whether any sector of a line is poisoned. -/
def HomeLine.anyPoison (h : HomeLine) : Bool := h.sect.contains .p

/-- One LSE contribution merged into its line; contribution 0 of an ordered round un-poisons the record (R242, R335). -/
def applyLse (first : Bool) (operand : List Byte) (h : HomeLine) : Applied :=
  let whole : List SState := [.d, .d, .d, .d]
  if h.anyPoison then
    (if first then { line := { (h.putBytes 0 (lsePoisoned operand)) with sect := whole } }
     else { line := h, detail := 0x05 })
  else
    let res := lseMerge (h.bytes 0 1024) operand
    { line := { (h.putBytes 0 res.1) with sect := whole }, flags := res.2 }

/-- Apply contribution `cidx` of an ordered round (R334 to R336). -/
def applyOrdered (isLse : Bool) (code off cidx : Nat) (operand : List Byte) (h : HomeLine) : Applied :=
  if isLse then applyLse (cidx == 0) operand h else applyVector code off (cidx == 0) operand h

/-- The target of an ordered round: its address divided by 256 (R355). -/
def orderTarget (line : Nat) (r : FReq) : Nat := if r.kind = .lse then line * 4 else line * 4 + r.off / 256

/-- A segment's order-table entry for a target (R334). -/
def findOrder (s : State) (seg tgt : Nat) (isLse : Bool) : Option Order :=
  (segSt s seg).orders.find? fun o => o.tgt == tgt && o.isLse == isLse

/-- Replace, or remove, a target's order-table entry. -/
def putOrder (seg tgt : Nat) (isLse : Bool) (o : Option Order) (s : State) : State :=
  let rest := (segSt s seg).orders.filter fun x => !(x.tgt == tgt && x.isLse == isLse)
  setSegSt seg { segSt s seg with orders := match o with | some x => rest ++ [x] | none => rest } s

/-- The 256 B units a segment buffers (R337, R355). -/
def bufferedUnits (s : State) (seg : Nat) : Nat :=
  ((segSt s seg).orders.map fun o => o.buf.length * (if o.isLse then 4 else 1)).foldl (· + ·) 0

/-- SEG_WAYS.RED_WAYS, the reduction ways in force (R297, R351). -/
def redWays (s : State) (seg : Nat) : Nat := fld (rd s (segPage s seg) 0x104) 6 4

/-- Whether an ordered contribution must be NACKed for want of an entry or buffer space (R319, R337). -/
def orderedFull (s : State) (seg line : Nat) (r : FReq) : Bool :=
  let isLse := decide (r.kind = .lse)
  match findOrder s seg (orderTarget line r) isLse with
  | some o =>
    if r.cidx = o.next ∨ r.ccount ≠ o.ccount ∨ r.cidx < o.next ∨ r.ccount ≤ r.cidx then false
    else decide (redWays s seg * 2048 < bufferedUnits s seg + (if isLse then 4 else 1))
  | none =>
    decide (64 ≤ (segSt s seg).orders.length)
      || (decide (0 < r.cidx) && decide (r.cidx < r.ccount)
          && decide (redWays s seg * 2048 < bufferedUnits s seg + (if isLse then 4 else 1)))

/-- Apply the buffered contributions that follow NEXT in index order (R334 step 2): line, flags, NEXT, buffer, and the
number of them that met poison (R336). -/
def drainOrdered (isLse : Bool) (code off : Nat) :
    Nat → HomeLine → Nat → List (Nat × List Byte) → Nat → HomeLine × Nat × Nat × List (Nat × List Byte) × Nat
  | 0, h, next, buf, fl => (h, fl, next, buf, 0)
  | fuel + 1, h, next, buf, fl =>
    match slook buf next with
    | none => (h, fl, next, buf, 0)
    | some c =>
      let a := applyOrdered isLse code off next c h
      let t := drainOrdered isLse code off fuel a.line (next + 1) (serase next buf) (fl ||| a.flags)
      (t.1, t.2.1, t.2.2.1, t.2.2.2.1, t.2.2.2.2 + b2n (a.detail != 0))

/-- A contribution's failure at the home: the record and the ORD_FAULT event of R336, or ATOM_POISON of R340. -/
def homeFail (seg line : Nat) (r : FReq) (detail : Nat) (s : State) : State :=
  let p := segPage s seg
  let cls := if detail = 0x05 then 0x20 else 0x13
  let s := if detail = 0x07 ∨ detail = 0x08 then event p 7 s else s
  captureErr p { cls := cls, detail := detail, addr := line * 1024 + r.off, phys := true, addrValid := true,
                 ctxValid := r.slice.isSome, slice := r.slice.getD 0, srcDie := r.agent,
                 srcUnit := 0, srcLogical := 0x3F } s

/-- Apply an ordered contribution (R334 to R336): the state with line and order table updated, and the answer's flags
and failure detail. -/
def applyOrderedReq (seg line : Nat) (r : FReq) (s : State) : State × Nat × Nat :=
  let isLse := decide (r.kind = .lse)
  let tgt := orderTarget line r
  let o := (findOrder s seg tgt isLse).getD { tgt := tgt, isLse := isLse, next := 0, ccount := r.ccount, buf := [] }
  if o.ccount ≠ r.ccount then (homeFail seg line r 0x07 s, 0, 0x07)
  else if r.ccount ≤ r.cidx ∨ r.cidx < o.next ∨ (slook o.buf r.cidx).isSome then (homeFail seg line r 0x08 s, 0, 0x08)
  else if r.cidx ≠ o.next then
    (putOrder seg tgt isLse (some { o with buf := sadd o.buf r.cidx r.operand, who := o.who ++ r.cmd.toList }) s, 0, 0)
  else
    let a := applyOrdered isLse r.code r.off r.cidx r.operand (home s seg line)
    let d := drainOrdered isLse r.code r.off r.ccount a.line (r.cidx + 1) o.buf a.flags
    let s1 := setHome seg line d.1 s
    let s2 := (List.range (b2n (a.detail != 0) + d.2.2.2.2)).foldl (fun x _ => homeFail seg line r 0x05 x) s1
    let s3 := putOrder seg tgt isLse
      (if d.2.2.1 = r.ccount then none
        else some { o with next := d.2.2.1, buf := d.2.2.2.1, who := o.who ++ r.cmd.toList }) s2
    (s3, d.2.1, a.detail)

/-- Apply the request of a transaction whose copies are gone and whose sectors are present (R326): the state, and the
answer's value, flags and failure detail. -/
def applyReq (seg line : Nat) (r : FReq) (s : State) : State × Nat × Nat × Nat :=
  match r.kind with
  | .wr => (setHome seg line (applyWrite r.data (home s seg line)) s, 0, 0, 0)
  | .atom =>
    let a := applyScalar r (home s seg line)
    let s1 := setHome seg line a.line s
    ((if a.detail ≠ 0 then homeFail seg line r a.detail s1 else s1), a.value, a.flags, a.detail)
  | .red | .lse =>
    if r.ordered then
      let t := applyOrderedReq seg line r s
      (t.1, 0, t.2.1, t.2.2)
    else
      let a := if r.kind = .lse then applyLse false r.operand (home s seg line)
        else applyVector r.code r.off false r.operand (home s seg line)
      let s1 := setHome seg line a.line s
      ((if a.detail ≠ 0 then homeFail seg line r a.detail s1 else s1), 0, a.flags, a.detail)
  | _ => (s, 0, 0, 0)

/-! ### Transactions (R324 to R327) -/

/-- End the transaction of a line: PROG_TASKS, and the reservation for the head of the starve queue (R322). -/
def endTrans (seg line : Nat) (s : State) : State :=
  let h := home s seg line
  let p := segPage s seg
  match h.starve with
  | a :: t =>
    event p 3 (addProg p 5 1 (addProg p 0 1 (setHome seg line { h with trans := none, rsvd := some a, starve := t } s)))
  | [] => addProg p 0 1 (setHome seg line { h with trans := none } s)

/-- Put a sharer into a directory entry (R309, R310). -/
def addSharer (a sset : Nat) : Option DirEntry → DirEntry
  | none => { ptrs := [some a, none, none], sset := sset }
  | some d =>
    let d := if d.sset = sset then d else { d with sset := 0 }
    if d.mode = .bcast ∨ d.ptrs.contains (some a) then d
    else
      match d.ptrs with
      | [none, y, z] => { d with ptrs := [some a, y, z] }
      | [x, none, z] => { d with ptrs := [x, some a, z] }
      | [x, y, none] => { d with ptrs := [x, y, some a] }
      | _ => { d with mode := .bcast, ptrs := [none, none, none], fwd := 0 }

/-- The Forwarder of an entry (R308). -/
def DirEntry.forwarder (d : DirEntry) : Option Nat := if d.fwd = 0 then none else (d.ptrs.getD (d.fwd - 1) none)

/-- An entry without an agent's pointer (R309). -/
def DirEntry.clear (d : DirEntry) (a : Nat) : DirEntry :=
  let fwd := if d.forwarder = some a then 0 else d.fwd
  { d with ptrs := d.ptrs.map fun p => if p = some a then none else p, fwd := fwd }

/-- The valid pointers of an entry. -/
def DirEntry.agents (d : DirEntry) : List Nat := d.ptrs.filterMap id

/-- The owner of a line, if its entry is OWNED (R309). -/
def HomeLine.owner (h : HomeLine) : Option Nat :=
  match h.dir with
  | some d => if d.mode = .owned then d.ptrs.getD 0 none else none
  | none => none

/-- The agents an invalidation of the line goes to (R310, R324): the pointers' agents, or the agents of the mask but
the requester and the home's own die; the owner of an OWNED line. -/
def invTargets (s : State) (seg : Nat) (h : HomeLine) (requester : Nat) : List Nat :=
  match h.dir with
  | none => []
  | some d =>
    match d.mode with
    | .ptr => d.agents
    | .owned => d.agents
    | .bcast => (ssetAgents s (segPage s seg) d.sset).filter fun a => decide (a ≠ requester) && decide (a ≠ seg / 12)

/-- Send FILL of the wanted sectors to one reader (R324), counting P sectors delivered (R341); a reader of the home's own
die installs nothing (R302). -/
def sendFill (seg line : Nat) (r : FReq) (s : State) : State :=
  let h := home s seg line
  let sectors := if r.kind = .rdOnce then r.sectors else [0, 1, 2, 3]
  let poison := sectors.filter fun i => decide (h.sector i = .p)
  let data := sectors.flatMap fun i => cellsOfSector h.byte i
  countPoisonReads seg poison.length
    (send { kind := .fill, seg := seg, line := line, agent := r.agent, stream := r.stream, sectors := sectors,
            data := data, poison := poison, target := (if r.kind = .rdOwn then 2 else if r.kind = .rdOnce ∨ r.agent = seg / 12 then 0 else 1) } s)

/-- Count bytes through a segment's ports (R352). -/
def portBytes (seg n : Nat) (s : State) : State := addProg (segPage s seg) 1 n s

/-- A read is done: FILL, and for RD_SHARED from another die, the hub or a chiplet, the sharer is recorded (R302). -/
def serveRead (seg line : Nat) (s : State) (r : FReq) : State :=
  let s1 := sendFill seg line r s
  if r.kind = .rdShared ∧ r.agent ≠ seg / 12 then
    let h := home s1 seg line
    setHome seg line { h with dir := some (addSharer r.agent r.sset h.dir) } s1
  else s1

/-- The MEMWR of sectors of a line to memory (R313); its poisoned sectors carry the bit. -/
def sendMemWr (seg line : Nat) (sectors : List Nat) (agent stream : Nat) (answer : Bool) (s : State) : State :=
  let h := home s seg line
  addProg (segPage s seg) 1 (256 * sectors.length) (addProg (segPage s seg) 7 1
    (send { kind := .memWr, seg := seg, line := line, agent := agent, stream := stream, sectors := sectors,
            data := sectors.flatMap fun i => cellsOfSector h.byte i,
            poison := sectors.filter fun i => decide (h.sector i = .p), owned := answer } s))

/-- A line whose data the home no longer holds (R305). -/
def HomeLine.dropData (h : HomeLine) : HomeLine := { h with sect := [.i, .i, .i, .i], data := [] }

/-- Finish a transaction whose snoops are answered and whose sectors are present. -/
def finishTrans (seg line : Nat) (t : Trans) (s : State) : State :=
  let h := home s seg line
  let r := t.req
  match t.kind with
  | .dirEvict => addProg (segPage s seg) 6 1 (endTrans seg line (setHome seg line { h with dir := none } s))
  | .mkf => endTrans seg line s
  | .hsnp inv =>
    let dirty := h.sectorsIn .d ++ h.sectorsIn .p
    let s1 := if dirty.isEmpty then s else sendMemWr seg line dirty 8 0 false s
    let h1 := home s1 seg line
    let h2 := if inv then { h1.dropData with dir := none }
      else { h1 with sect := h1.sect.map fun x => if x = .d then .c else x }
    endTrans seg line (emit (.hostSnoop line inv dirty.isEmpty) (setHome seg line h2 s1))
  | .req =>
    match r.kind with
    | .rdOnce | .rdShared =>
      let all := r :: t.merged
      let sent := (List.range 4).filter fun i => all.any fun x => decide (x.kind ≠ .rdOnce) || x.sectors.contains i
      endTrans seg line (t.merged.foldl (serveRead seg line) (serveRead seg line (portBytes seg (256 * sent.length) s) r))
    | .rdOwn =>
      let s1 := sendFill seg line r (portBytes seg 1024 s)
      let h1 := home s1 seg line
      setHome seg line { h1 with trans := some { t with phase := .done, waiting := [r.agent] } } s1
    | .flush =>
      let dirty := h.sectorsIn .d ++ h.sectorsIn .p
      if dirty.isEmpty then
        endTrans seg line (setHome seg line { h.dropData with dir := none }
          (send { kind := .go, seg := seg, line := line, agent := r.agent, stream := r.stream } s))
      else
        let s1 := sendMemWr seg line dirty r.agent r.stream true s
        endTrans seg line (setHome seg line { (home s1 seg line).dropData with dir := none } s1)
    | _ =>
      let a := applyReq seg line r (portBytes seg (if r.kind = .wr then r.data.length else 2 * r.size) s)
      let s1 := setHome seg line { home a.1 seg line with dir := none } a.1
      let s2 := send { kind := (if r.kind = .atom ∧ r.fetch then .atomData else .go), seg := seg, line := line,
                       agent := r.agent, stream := r.stream, value := a.2.1, flags := a.2.2.1, detail := a.2.2.2 } s1
      endTrans seg line s2

/-- Fetch the sectors a transaction still needs, or finish it (R324: MEMRD of the needed sectors that are in I). -/
def proceed (seg line : Nat) (t : Trans) (s : State) : State :=
  let h := home s seg line
  let need := (neededSectors t.req).filter fun i => decide (h.sector i = .i)
  if t.kind ≠ .req ∨ need.isEmpty then finishTrans seg line t s
  else
    addProg (segPage s seg) 7 1
      (send { kind := .memRd, seg := seg, line := line, sectors := need }
        (setHome seg line { h with trans := some { t with phase := .memory, fetch := need, waiting := [] } } s))

/-- Send SNP_INV to every target and wait, or go on where there is none. -/
def snoopThen (seg line : Nat) (targets : List Nat) (t : Trans) (s : State) : State :=
  if targets.isEmpty then proceed seg line t s
  else
    let h := home s seg line
    let s1 := setHome seg line { h with trans := some { t with phase := .snoop, waiting := targets } } s
    targets.foldl (fun x a => send { kind := .snpInv, seg := seg, line := line, agent := a } x) s1

/-- The transactions open at a segment (R296, R351). -/
def openTrans (s : State) (seg : Nat) : Nat :=
  (s.felt.lines.filter fun e => decide (e.1 / 0x4000000000 = seg) && e.2.trans.isSome).length

/-- NACK a request (R319, R320). -/
def nackReq (seg line : Nat) (r : FReq) (s : State) : State :=
  addProg (segPage s seg) 4 1 (send { kind := .nack, seg := seg, line := line, agent := r.agent, stream := r.stream } s)

/-- Whether a request may merge into a pending fill (R324, R325). -/
def mayMerge (t : Trans) (r : FReq) : Bool :=
  (decide (r.kind = .rdOnce) || decide (r.kind = .rdShared)) && decide (t.kind = .req) && decide (t.phase = .memory)
    && (decide (t.req.kind = .rdOnce) || decide (t.req.kind = .rdShared)) && decide (t.merged.length < 7)

/-- Serve an accepted request on a line in no transaction (R324). -/
def serveReq (seg line : Nat) (r : FReq) (s : State) : State :=
  let h0 := home s seg line
  let h := { h0 with rsvd := (if h0.rsvd = some r.agent then none else h0.rsvd),
                     slice := (if h0.slice.isSome then h0.slice else r.slice), stream := h0.stream || r.streamType }
  let s := addProg (segPage s seg) 2 1 (setHome seg line h s)
  let t : Trans := { req := r, phase := .snoop }
  match h.owner with
  | some o =>
    if r.kind = .wb ∧ o = r.agent then
      let m : FMsg := { kind := .wbData, seg := seg, line := line, sectors := [0, 1, 2, 3], data := r.data, poison := r.poison }
      let s1 := setHome seg line { mergeOwner m h with dir := none } s
      endTrans seg line (send { kind := .go, seg := seg, line := line, agent := r.agent, stream := r.stream }
        (logPoison seg line r.poison 0x0B r.agent s1))
    else if r.kind = .evict ∧ o = r.agent then
      endTrans seg line (send { kind := .go, seg := seg, line := line, agent := r.agent, stream := r.stream }
        (setHome seg line { h with dir := none } s))
    else if r.kind = .wb ∨ r.kind = .evict then
      endTrans seg line (send { kind := .go, seg := seg, line := line, agent := r.agent, stream := r.stream } s)
    else snoopThen seg line [o] t s
  | none =>
    match r.kind with
    | .wb | .evict => endTrans seg line (send { kind := .go, seg := seg, line := line, agent := r.agent, stream := r.stream } s)
    | .rdOnce | .rdShared =>
      match (h.dir.bind DirEntry.forwarder) with
      | some f =>
        if h.sect = [.i, .i, .i, .i] ∧ f ≠ r.agent then
          send { kind := .snpFwd, seg := seg, line := line, agent := f, target := r.agent, stream := r.stream,
                 sectors := (if r.kind = .rdOnce then r.sectors else [0, 1, 2, 3]), owned := decide (r.kind = .rdShared ∧ r.agent ≠ seg / 12) }
            (setHome seg line { h with trans := some { t with phase := .forward, waiting := [f] } } s)
        else proceed seg line t s
      | none => proceed seg line t s
    | _ => snoopThen seg line (invTargets s seg h r.agent) t s

/-- A request its home cannot take stays with its requester, to be sent again; no NACK is counted. -/
def keepWaiting (seg line : Nat) (r : FReq) (s : State) : State :=
  { s with felt := { s.felt with reqs := s.felt.reqs.map fun p =>
      if p.seg == seg && p.line == line && p.req.agent == r.agent && p.req.stream == r.stream then { p with nacked := true } else p } }

/-- A REQ.H reaches its home (R319 to R324, R343, R346, R347); a segment that is not in service takes none. -/
def homeAccept (seg line : Nat) (r : FReq) (s : State) : State :=
  let p := segPage s seg
  if r.agen ≠ expectGen s seg r.agent then staleDrop seg s
  else if (segSt s seg).resetting then nackReq seg line r s
  else if (unitSt s p).state ≠ .active ∧ (unitSt s p).state ≠ .draining then keepWaiting seg line r s
  else if r.ueDir then
    let s1 := captureErr p { cls := 0x20, detail := 0x02, addr := line * 1024, phys := true, addrValid := true,
                             ctxValid := r.slice.isSome, slice := r.slice.getD 0, srcDie := seg / 12,
                             srcUnit := 20 + segUnit s seg, srcLogical := seg % 12 } s
    setUState p .faulted false (event p 0 (keepWaiting seg line r s1))
  else
    let s := if r.ueData.isEmpty then s
      else markPoison seg line r.ueData 0x01 0 (event p 0 (satInc p 0x118 1 s))
    let h := home s seg line
    let busy := h.trans.isSome || (h.rsvd.isSome && decide (h.rsvd ≠ some r.agent))
    if busy then
      match h.trans with
      | some t =>
        if mayMerge t r then
          let fetch := (neededSectors r).filter fun i => decide (h.sector i = .i) && !t.fetch.contains i
          let s1 := setHome seg line { h with trans := some { t with merged := t.merged ++ [r], fetch := t.fetch ++ fetch } } s
          addProg p 2 1 (if fetch.isEmpty then s1
            else send { kind := .memRd, seg := seg, line := line, sectors := fetch } s1)
        else if r.starve ∧ !h.starve.contains r.agent then
          nackReq seg line r (setHome seg line { h with starve := h.starve ++ [r.agent] } s)
        else nackReq seg line r s
      | none =>
        if r.starve ∧ !h.starve.contains r.agent then
          nackReq seg line r (setHome seg line { h with starve := h.starve ++ [r.agent] } s)
        else nackReq seg line r s
    else if 992 ≤ openTrans s seg ∧ !r.starve then nackReq seg line r s
    else if r.ordered ∧ (r.kind = .red ∨ r.kind = .lse) ∧ orderedFull s seg line r then
      satInc (p + 3) 0x114 1 (nackReq seg line r s)
    else serveReq seg line r s

/-- One snoop answer arrives: the agent leaves the list waited for; at the last the transaction goes on. -/
def answered (seg line agent : Nat) (s : State) : State :=
  let h := home s seg line
  match h.trans with
  | none => s
  | some t =>
    if !t.waiting.contains agent then s
    else
      let w := setDel agent t.waiting
      if !w.isEmpty then setHome seg line { h with trans := some { t with waiting := w } } s
      else
        let keep := decide (t.kind = .mkf)
        let h1 := { h with dir := (if keep then h.dir else none), trans := some { t with waiting := [] } }
        proceed seg line { t with waiting := [] } (setHome seg line h1 s)

/-! ### The memory controllers' side (R400, R406, R416 to R418) -/

/-- The extension page of the access counters of a die. -/
def acPage (die : Nat) : Nat := pSdramc die + 2

/-- Base, first region number and regions of each host window of a die; all together at most 1,048,576 (R428). -/
def hostWindows (s : State) (die : Nat) : List (Nat × Nat × Nat) :=
  ((List.range 16).foldl (fun (acc : List (Nat × Nat × Nat) × Nat) w =>
    let n := min (fld (rdB s w (acPage die) 0x138) 20 0) (1048576 - acc.2)
    (acc.1 ++ [(rd64B s w (acPage die) 0x130, acc.2, n)], acc.2 + n)) ([], 0)).1

/-- The host-window region a host physical address counts in (R417). -/
def hostRegion (s : State) (die pa : Nat) : Option Nat :=
  (hostWindows s die).findSome? fun w =>
    if w.1 ≤ pa ∧ pa < w.1 + w.2.2 * 0x200000 then some (w.2.1 + (pa - w.1) / 0x200000) else none

/-- Count one transfer at the region of a key of a die (R416, R418). -/
def countAt (d k : Nat) (s : State) : State :=
  let m := memCtl s d
  let r := sget (fun _ => ({} : Region)) m.regions k
  setMemCtl d { m with regions := sput (fun _ => ({} : Region)) m.regions k { r with count := min (r.count + 1) 65535 } } s

/-- Count one transfer while AC_CFG.EN of the counting die is 1 (R416 to R418, R428): the owning die, or for a host line
the line's home die. -/
def countAccess (pa : Nat) (s : State) : State :=
  match rangeOf pa with
  | .near d => if bitOf (rd s (acPage d) 0x100) 0 then countAt d (pa % 0x800000000 / 0x200000) s else s
  | .far d c =>
    if bitOf (rd s (acPage d) 0x100) 0 then countAt d (0x100000 + c * 16384 + pa % 0x800000000 / 0x200000) s else s
  | .host =>
    let d := homeSeg pa true / 12
    if bitOf (rd s (acPage d) 0x100) 0 then
      match hostRegion s d pa with
      | some k => countAt d (0x200000 + k) s
      | none => s
    else s
  | _ => s

/-- The controller page that serves an address: SDRAMC or LPDDRC of the owning die. -/
def ctlPage (pa : Nat) : Nat :=
  match rangeOf pa with
  | .near d => pSdramc d
  | .far d _ => pLpddrc d
  | _ => pHostif

/-- A DEVICE-type access of `n` bytes that a tier's controller serves directly (R396, R416). -/
def directAccess (pa n : Nat) (s : State) : State :=
  if inTier pa then addProg (ctlPage pa) 1 n (addProg (ctlPage pa) 0 1 (countAccess pa s)) else s

/-- Whether memory holds any of `n` bytes poisoned. -/
def directPoison (s : State) (pa n : Nat) : Bool :=
  decide (0 < n) && (List.range ((pa + n - 1) / 256 - pa / 256 + 1)).any fun i => memPoison s (pa / 256 + i)

/-- Mark or unmark a sector of memory as poisoned (R400, R406). A far list that is full makes the LPDDRC FAULTED with
detail POISON_FULL. -/
def setMemPoison (sector : Nat) (on : Bool) (s : State) : State :=
  match rangeOf (sector * 256) with
  | .near _ =>
    { s with nearMarks := if on then (codewordsOf sector).foldl (fun l c => setAdd c l) s.nearMarks
                          else s.nearMarks.filter fun c => decide (c / 4 ≠ sector) }
  | .far d _ =>
    let m := memCtl s d
    if !on then setMemCtl d { m with farPoison := setDel sector m.farPoison } s
    else if m.farPoison.contains sector then s
    else if 65536 ≤ m.farPoison.length then
      let s1 := setMemCtl d { m with farLost := true } s
      let s2 := captureErr (pLpddrc d) { cls := 0x20, detail := 0x03, addr := sector * 256, phys := true,
                                         addrValid := true, srcDie := d, srcUnit := 45, srcLogical := 0x3F } s1
      setUState (pLpddrc d) .faulted false (event (pLpddrc d) 4 s2)
    else setMemCtl d { m with farPoison := setAdd sector m.farPoison } s
  | _ => s

/-- A controller writes whole sectors of a line: bytes, and the marker of each sector whose poison bit is set. -/
def writeSectors (line : Nat) (sectors poison : List Nat) (data : List Cell) (s : State) : State :=
  let s1 := data.foldl (fun t c => wrMem (line * 1024 + c.1) c.2 t) s
  sectors.foldl (fun t i => setMemPoison (line * 4 + i) (poison.contains i) t) s1

/-- A controller, or the hub for host memory, takes one MEMWR (R313, R400, R406). -/
def takeMemWr (m : FMsg) (s : State) : State :=
  let pa := m.line * 1024
  let s1 := if backed s pa then writeSectors m.line m.sectors m.poison m.data s else s
  let s2 := addProg (ctlPage pa) 1 (256 * m.sectors.length) (addProg (ctlPage pa) 0 1 (countAccess pa s1))
  if m.owned then send { kind := .go, seg := m.seg, line := m.line, agent := m.agent, stream := m.stream } s2 else s2

/-- Whether a message is the MEMWR of a line. -/
def FMsg.writes (line : Nat) (m : FMsg) : Bool := decide (m.kind = .memWr) && m.line == line

/-- The MEMWRs of a line that are on their way are taken, oldest first: what is read or written at the memory afterwards
comes after them. -/
def landWrites (line : Nat) (s : State) : State :=
  match s.felt.net.filter (FMsg.writes line) with
  | [] => s
  | ms => ms.foldl (fun t m => takeMemWr m t) { s with felt := { s.felt with net := s.felt.net.filter fun m => !m.writes line } }

/-- The newest MEMWR of a sector (address / 256) that is on its way. -/
def flight (s : State) (sector : Nat) : Option FMsg :=
  s.felt.net.reverse.find? fun m => m.writes (sector / 4) && m.sectors.contains (sector % 4)

/-- A byte of memory as it is once the MEMWRs on their way are taken. -/
def memNow (s : State) (pa : Nat) : Byte :=
  match (flight s (pa / 256)).bind fun m => slook m.data (pa % 1024) with
  | some b => b
  | none => rdMem s pa

/-- Whether memory holds a sector poisoned once the MEMWRs on their way are taken. -/
def poisonNow (s : State) (sector : Nat) : Bool :=
  match flight s sector with
  | some m => m.poison.contains (sector % 4)
  | none => memPoison s sector

/-! ### The device's own reads and writes, one step each (assumption log 12) -/

/-- The copy of a line some agent holds in M, or has just given up in WB_DATA that its home has not merged yet: its bytes
are the line's value (R306, R324). -/
def dirtyCopy (s : State) (line : Nat) : Option AgLine :=
  match (s.felt.copies.find? fun e => decide (e.1 % 0x4000000000 = line) && decide (e.2.st = .m)) with
  | some e => some e.2
  | none =>
    (s.felt.net.find? fun m => decide (m.kind = .wbData) && m.line == line && m.agen == expectGen s m.seg m.agent).map fun m =>
      { st := .m, data := putCells m.data [], poison := m.poison, seg := m.seg }

/-- One byte of a line as every coherent reader sees it (R366): an owner's modified copy, else the home's sector, else
memory. -/
def cohByte (s : State) (interleaved : Bool) (pa : Nat) : Byte :=
  match dirtyCopy s (pa / 1024) with
  | some c => sget lineDefault c.data (pa % 1024)
  | none =>
    let h := home s (homeSeg pa interleaved) (pa / 1024)
    if h.sector (pa % 1024 / 256) = .i then memNow s pa else h.byte (pa % 1024)

/-- `n` bytes from a physical address, coherently. -/
def cohBytes (s : State) (interleaved : Bool) (pa : Nat) : Nat → List Byte
  | 0 => []
  | n + 1 => cohByte s interleaved pa :: cohBytes s interleaved (pa + 1) n

/-- Whether a coherent reader of a byte receives poison (R340). -/
def cohPoison (s : State) (interleaved : Bool) (pa : Nat) : Bool :=
  match dirtyCopy s (pa / 1024) with
  | some c => c.poison.contains (pa % 1024 / 256)
  | none =>
    let st := (home s (homeSeg pa interleaved) (pa / 1024)).sector (pa % 1024 / 256)
    if st = .i then poisonNow s (pa / 256) else decide (st = .p)

/-- Whether any of `n` bytes from `pa` is poisoned. -/
def cohPoisonN (s : State) (interleaved : Bool) (pa n : Nat) : Bool :=
  (List.range (n / 256 + 2)).any fun k =>
    let a := (pa / 256 + k) * 256
    decide (a < pa + n) && decide (0 < n) && cohPoison s interleaved a

/-- `n` bytes of memory from `pa` as they are once the MEMWRs on their way are taken. -/
def memNowN (s : State) (pa : Nat) : Nat → List Byte
  | 0 => []
  | n + 1 => memNow s pa :: memNowN s (pa + 1) n

/-- Bring the sectors of a line that are in I into its home from memory: C, or P where memory holds poison (R324); its
controller serves one MEMRD. -/
def fetchInto (seg line : Nat) (sectors : List Nat) (s0 : State) : State :=
  let need := sectors.filter fun i => decide ((home s0 seg line).sector i = .i)
  if need = [] then s0
  else
    let pa := line * 1024
    let s := addProg (ctlPage pa) 1 (256 * need.length) (addProg (ctlPage pa) 0 1 (countAccess pa (addProg (segPage s0 seg) 7 1 s0)))
    let h1 := need.foldl (fun x i => { (x.putBytes (256 * i) (memNowN s (pa + 256 * i) 256)) with
        sect := x.sect.set i (if poisonNow s (line * 4 + i) then .p else .c) }) (home s seg line)
    let bad := need.filter fun i => poisonNow s (line * 4 + i)
    logPoison seg line bad 0x0A 0 (setHome seg line h1 s)

/-- A line the host may hold is taken from it: BISnpInv (R821). Used where the device's own engines take a line in one
step; what the host holds newer is then what it last gave back (assumption log 12). -/
def hostGiveUp (line : Nat) (s : State) : State :=
  if (slook s.host.lines line).isSome then
    addProg pHostif 6 1 (emit (.biSnp line true) { s with host := { s.host with lines := serase line s.host.lines } })
  else s

/-- Take a line back from every agent: an owner's modified data is merged as D, every copy is dropped, the directory
entry is freed (R324: invalidate). -/
def recallLine (seg line : Nat) (s : State) : State :=
  let s1 := match dirtyCopy s line with
    | some c =>
      let h := home s seg line
      let h1 := { h with data := c.data,
                         sect := (List.range 4).map fun i => if c.poison.contains i then SState.p else SState.d }
      logPoison seg line c.poison 0x0B 0 (setHome seg line h1 s)
    | none => s
  let s2 := hostGiveUp line { s1 with
    felt := { s1.felt with copies := s1.felt.copies.filter fun e => decide (e.1 % 0x4000000000 ≠ line) } }
  setHome seg line { home s2 seg line with dir := none } s2

/-- The lines a range of `n` bytes at a physical address meets. -/
def linesOf (pa n : Nat) : List Nat :=
  if n = 0 then [] else (List.range ((pa + n - 1) / 1024 - pa / 1024 + 1)).map fun i => pa / 1024 + i

/-- A home counts a request it has served at once: accepted, completed, bytes through its ports (R352). -/
def countServed (seg n : Nat) (s : State) : State :=
  let p := segPage s seg
  addProg p 2 1 (addProg p 1 n (addProg p 0 1 s))

/-- What a read of bytes of one line leaves at its home (R299, R324, R855): an owner's line recalled, the sectors read
fetched, the slice charged. A line in a transaction is left to it. -/
def touchLine (il : Bool) (slice : Option Nat) (pa n line : Nat) (s : State) : State :=
  let seg := homeSeg (line * 1024) il
  if (home s seg line).trans.isSome then s
  else
    let sectors := (List.range 4).filter fun i => decide (line * 1024 + 256 * i < pa + n) && decide (pa < line * 1024 + 256 * i + 256)
    let s1 := fetchInto seg line sectors (if (home s seg line).owner.isSome then recallLine seg line s else s)
    let h := home s1 seg line
    countServed seg (256 * sectors.length) (setHome seg line { h with slice := (if h.slice.isSome then h.slice else slice) } s1)

/-- What a read of `n` bytes from a physical address leaves at the homes. -/
def touch (il : Bool) (slice : Option Nat) (pa n : Nat) (s : State) : State :=
  (linesOf pa n).foldl (fun t l => touchLine il slice pa n l t) s

/-- Data messages in flight of a line carry the bytes written, as if the write had come first (R327). -/
def patchNet (line : Nat) (cells : List Cell) (s : State) : State :=
  { s with felt := { s.felt with net := s.felt.net.map fun m =>
      if m.line = line then { m with data := m.data.map fun c => (c.1, sget (fun _ => c.2) cells c.1) } else m } }

/-- A coherent write of cells into one line by an engine of the device for a slice (R324, R326): copies recalled,
sectors partly written fetched, the bytes applied. -/
def cohWriteLine (interleaved : Bool) (slice : Option Nat) (line : Nat) (cells : List Cell) (s : State) : State :=
  let seg := homeSeg (line * 1024) interleaved
  let s1 := recallLine seg line s
  let part := (sectorsTouched cells).filter fun i => !coversSector cells i
  let s2 := fetchInto seg line part s1
  let h := home s2 seg line
  let h1 := { applyWrite cells h with slice := (if h.slice.isSome then h.slice else slice) }
  patchNet line cells (countServed seg cells.length (setHome seg line h1 s2))

/-- The bytes of a write from physical address `pa` that fall in one line, as cells by offset. -/
def lineCells (pa line : Nat) (bs : List Byte) : List Cell :=
  (bs.zipIdx.filter fun b => decide ((pa + b.2) / 1024 = line)).map fun b => ((pa + b.2) % 1024, b.1)

/-- A coherent write of bytes from a physical address by an engine of the device. -/
def cohWrite (interleaved : Bool) (slice : Option Nat) (pa : Nat) (bs : List Byte) (s : State) : State :=
  if bs.isEmpty then s
  else (List.range ((pa + bs.length - 1) / 1024 - pa / 1024 + 1)).foldl
    (fun t k => cohWriteLine interleaved slice (pa / 1024 + k) (lineCells pa (pa / 1024 + k) bs) t) s

/-- Mark the sectors a failed or poisoned write covers as poison at their homes (R423, R494): whole sectors. -/
def cohPoisonWrite (interleaved : Bool) (pa : Nat) (s : State) : State :=
  let line := pa / 1024
  let seg := homeSeg pa interleaved
  let s1 := recallLine seg line s
  setHome seg line ((home s1 seg line).setSector (pa % 1024 / 256) .p) s1

/-- A Felt operation an engine or group of the device makes in one step: the state, the old value, the flags and the
failure detail. A contribution the home must NACK (R337) is reported by detail 0x100 and changes nothing. -/
def cohOp (interleaved : Bool) (pa : Nat) (r : FReq) (s : State) : State × Nat × Nat × Nat :=
  let line := pa / 1024
  let seg := homeSeg pa interleaved
  if (home s seg line).trans.isSome ∨ (r.ordered ∧ orderedFull s seg line r) then
    (satInc (segPage s seg + 3) 0x114 (b2n (r.ordered && orderedFull s seg line r)) s, 0, 0, 0x100)
  else
    let s1 := fetchInto seg line (neededSectors r) (recallLine seg line s)
    let s2 := setHome seg line { home s1 seg line with slice := (match (home s1 seg line).slice with | some x => some x | none => r.slice) } s1
    let a := applyReq seg line r (countServed seg (2 * r.size) s2)
    (patchNet line (((List.range 1024).filter fun o => decide ((home a.1 seg line).byte o ≠ (home s2 seg line).byte o)).map
        fun o => (o, (home a.1 seg line).byte o)) a.1, a.2.1, a.2.2.1, a.2.2.2)

end Sys2Proof.Machine
end

