-- ==== Sys2Proof/Machine/Formats.lean ====
section
/-! DEFINITION. Number formats of the matrix array and the KV codec (R176 to R185, R192 to R197): element decoding, block
scales, CHV4, and conversion under the three rounding modes. -/

namespace Sys2Proof.Machine

/-- An element format (R177): fraction bits, exponent bits, bias, largest finite magnitude as units × 2^unit exponent,
whether it has infinities and NaNs, width, and its canonical NaN. -/
structure EFmt where
  frac : Nat
  ebits : Nat
  bias : Int
  maxU : Nat
  maxQ : Int
  hasInf : Bool
  hasNan : Bool
  nan : Nat
deriving DecidableEq, Repr

def eE4M3 : EFmt := ⟨3, 4, 7, 14, 5, false, true, 0x7F⟩
def eE5M2 : EFmt := ⟨2, 5, 15, 7, 13, true, true, 0x7E⟩
def eE3M2 : EFmt := ⟨2, 3, 3, 7, 2, false, false, 0⟩
def eE2M3 : EFmt := ⟨3, 2, 1, 15, -1, false, false, 0⟩
def eE2M1 : EFmt := ⟨1, 2, 1, 3, 1, false, false, 0⟩
def eBF16 : EFmt := ⟨7, 8, 127, 255, 120, true, true, 0x7FC0⟩
def eFP16 : EFmt := ⟨10, 5, 15, 2047, 5, true, true, 0x7E00⟩

/-- Width of an element. -/
def EFmt.width (f : EFmt) : Nat := 1 + f.ebits + f.frac

/-- Least exponent of a normal number. -/
def EFmt.emin (f : EFmt) : Int := 1 - f.bias

/-- The value of an element's encoding (R177); NaNs are all quiet (R187). -/
def EFmt.decode (f : EFmt) (w : Nat) : FV :=
  let fr := w % 2 ^ f.frac
  let ex := w / 2 ^ f.frac % 2 ^ f.ebits
  let neg := w / 2 ^ (f.width - 1) % 2 == 1
  if f.hasInf ∧ ex = 2 ^ f.ebits - 1 then (if fr = 0 then .inf neg else .nan false)
  else if f.hasNan ∧ ex = 2 ^ f.ebits - 1 ∧ fr = 2 ^ f.frac - 1 then .nan false
  else if ex = 0 then .fin neg fr (f.emin - (f.frac : Int))
  else .fin neg (fr + 2 ^ f.frac) (f.emin - (f.frac : Int) + ((ex : Int) - 1))

/-- The encoding of ± units × 2^q, in range. -/
def EFmt.encode (f : EFmt) (neg : Bool) (m : Nat) (q : Int) : Nat :=
  let s := if neg then 2 ^ (f.width - 1) else 0
  let base := f.emin - (f.frac : Int)
  let m' := if q < base then m / 2 ^ (base - q).toNat else m
  let q' := max q base
  if m' < 2 ^ f.frac then s + m' * 2 ^ (q' - base).toNat
  else
    let sh := bitLen m' - (f.frac + 1)
    s + (q' + (sh : Int) - base + 1).toNat * 2 ^ f.frac + (m' / 2 ^ sh - 2 ^ f.frac)

/-- The infinity of a format that has one. -/
def EFmt.infinity (f : EFmt) (neg : Bool) : Nat :=
  (2 ^ f.ebits - 1) * 2 ^ f.frac + (if neg then 2 ^ (f.width - 1) else 0)

/-! ### Format codes (R176) -/

/-- The element format of a floating format code. -/
def codeFmt (c : Nat) : Option EFmt :=
  if c = 0 ∨ c = 2 then some eE4M3 else if c = 1 ∨ c = 3 then some eE5M2 else if c = 4 then some eE3M2
  else if c = 5 then some eE2M3 else if c = 8 ∨ c = 9 then some eE2M1 else if c = 11 then some eBF16
  else if c = 12 then some eFP16 else none

/-- Bits of an element of a format code. -/
def codeWidth (c : Nat) : Nat :=
  if c ≤ 3 then 8 else if c = 4 ∨ c = 5 then 6 else if c = 6 ∨ c = 7 then 8 else if c ≤ 10 then 4 else if c ≤ 12 then 16 else 32

/-- Whether a format is block-scaled (R171). -/
def codeBlock (c : Nat) : Bool := (decide (2 ≤ c) && decide (c ≤ 6)) || c == 8 || c == 9

/-- Whether a format may be an input, an output (R176). -/
def codeIn (c : Nat) : Bool := decide (c ≤ 12)
def codeOut (c : Nat) : Bool := decide (c ≤ 3) || (decide (7 ≤ c) && decide (c ≤ 14) && c != 10)

/-- Rate class: 0 16-bit, 1 8-bit, 2 4-bit (R161, R176). -/
def codeClass (c : Nat) : Nat := if c = 11 ∨ c = 12 then 0 else if 8 ≤ c ∧ c ≤ 10 then 2 else 1

/-- A two's-complement number as a value. -/
def intFV (bits v : Nat) (e : Int) : FV :=
  if v < 2 ^ (bits - 1) then .fin false v e else .fin true (2 ^ bits - v) e

/-- The value of an element (R177). -/
def elemValue (c w : Nat) : FV :=
  match codeFmt c with
  | some f => f.decode w
  | none => if c = 6 then intFV 8 w (-6) else if c = 7 then intFV 8 w 0 else intFV 4 w 0

/-! ### CHV4 scales (R182) -/

def chv4C (f : Nat) : Nat := if f = 0 then 8388608 else if f = 1 then 9975792 else if f = 2 then 11863283 else 14107901

/-- S(q) = C[f] × 2^(e − 23), exactly. -/
def chv4S (q : Int) : Nat × Int := (chv4C (q % 4).toNat, q / 4 - 23)

/-- The scale of a block: 2^(s − 127) for MX, S(s − 128) for CHV4, NaN for 0xFF (R177, R180, R181, R183). -/
def scaleValue (c s : Nat) : FV :=
  if s = 0xFF then .nan false
  else if c = 9 then .fin false (chv4S ((s : Int) - 128)).1 (chv4S ((s : Int) - 128)).2
  else .fin false 1 ((s : Int) - 127)

/-- The value of an element with its block scale, if the format has one. -/
def scaledValue (c w s : Nat) : FV := if codeBlock c then (mulV (elemValue c w) (scaleValue c s)).1 else elemValue c w

/-! ### Rounding to a target (R192, R195) -/

/-- Rounding modes (R168). -/
inductive Rnd where
  | rne | rtz | sr (draw : Nat)
deriving DecidableEq, Repr

/-- Floor of log2 of a positive rational. -/
def ratLog2 (n d : Nat) : Int :=
  let k : Int := (bitLen n : Int) - (bitLen d : Int)
  if k < 0 then (if d ≤ n * 2 ^ (-k).toNat then k else k - 1)
  else if d * 2 ^ k.toNat ≤ n then k else k - 1

/-- A magnitude n / d in units of 2^q: numerator and denominator. -/
def inUnits (n d : Nat) (q : Int) : Nat × Nat := if q < 0 then (n * 2 ^ (-q).toNat, d) else (n, d * 2 ^ q.toNat)

/-- A magnitude rounded to whole units under a mode, and whether that changed it (R192). -/
def roundUnits (n d : Nat) (q : Int) (r : Rnd) : Nat × Bool :=
  let x := inUnits n d q
  let lo := x.1 / x.2
  let rem := x.1 % x.2
  if rem = 0 then (lo, false)
  else
    match r with
    | .rtz => (lo, true)
    | .sr draw => (if draw < rem * 2 ^ 32 / x.2 then lo + 1 else lo, true)
    | .rne => (if x.2 < 2 * rem ∨ (2 * rem = x.2 ∧ lo % 2 = 1) then lo + 1 else lo, true)

/-- Whether n / d ≥ u × 2^q. -/
def ratGe (n d u : Nat) (q : Int) : Bool := let x := inUnits n d q; decide (u * x.2 ≤ x.1)

/-- A finite magnitude n / d converted to a floating target under a mode (R192, R195, R197): encoding and flags. -/
def EFmt.convert (f : EFmt) (sat neg : Bool) (n d : Nat) (r : Rnd) : Nat × Nat :=
  if n = 0 then (f.encode neg 0 0, 0)
  else if ratGe n d (2 * f.maxU + (if r = .rtz then 2 else 1)) (f.maxQ - 1) then
    let w := if sat ∨ r = .rtz ∨ !f.hasNan then f.encode neg f.maxU f.maxQ
             else if f.hasInf then f.infinity neg else f.nan
    (w, flOverflow + flInexact)
  else
    let r' := if ratGe n d f.maxU f.maxQ then (match r with | .sr _ => Rnd.rne | x => x) else r
    let top := ratLog2 n d
    let q := max top f.emin - (f.frac : Int)
    let u := roundUnits n d q r'
    let excess := ratGe n d f.maxU f.maxQ
    let m := if excess then (f.maxU, f.maxQ) else (u.1, q)
    let inexact := if excess then !(decide (n * 2 ^ (-f.maxQ).toNat = f.maxU * d * 2 ^ f.maxQ.toNat)) else u.2
    let tiny := decide (top < f.emin) && decide (u.1 < 2 ^ f.frac)
    (f.encode neg m.1 m.2, (if inexact then flInexact else 0) + (if inexact && tiny then flUnderflow else 0))

/-- A value converted to a floating target. -/
def EFmt.convertV (f : EFmt) (sat : Bool) (y : FV) (r : Rnd) : Nat × Nat :=
  match y with
  | .nan _ => (f.nan, 0)
  | .inf neg =>
    if f.hasInf ∧ !sat then (f.infinity neg, 0)
    else if sat ∨ !f.hasNan then (f.encode neg f.maxU f.maxQ, flOverflow + flInexact)
    else (f.nan, flOverflow + flInexact)
  | .fin neg m e => if e < 0 then f.convert sat neg m (2 ^ (-e).toNat) r else f.convert sat neg (m * 2 ^ e.toNat) 1 r

/-- A value converted to INT8 (R192, R195). -/
def toInt8 (y : FV) (r : Rnd) : Nat × Nat :=
  match y with
  | .nan _ => (0, flInvalid)
  | .inf neg => (if neg then 0x80 else 0x7F, flOverflow + flInexact)
  | .fin neg m e =>
    let lim := if neg then 128 else 127
    let d := if e < 0 then 2 ^ (-e).toNat else 1
    let n := if e < 0 then m else m * 2 ^ e.toNat
    let r' := if lim * d < n then (match r with | .sr _ => Rnd.rne | x => x) else r
    let u := roundUnits n d 0 r'
    let v := min u.1 lim
    (if neg then (256 - v) % 256 else v,
     if lim < u.1 then flOverflow + flInexact else if u.2 then flInexact else 0)

/-! ### Stochastic rounding (R193) -/

def srInit (seed lt qd seq : Nat) : Nat :=
  let x := (seed ^^^ (0x9E3779B97F4A7C15 * ((lt * 4 + qd) * 65536 + seq + 1) % 2 ^ 64)) % 2 ^ 64
  if x = 0 then 1 else x

/-- The next state of the generator; its draw is the upper half. -/
def srNext (x : Nat) : Nat :=
  let x1 := x ^^^ (x * 2 ^ 13 % 2 ^ 64)
  let x2 := x1 ^^^ (x1 / 2 ^ 7)
  x2 ^^^ (x2 * 2 ^ 17 % 2 ^ 64)

/-- The rounding modes of a list of elements, and the generator's state after them (R194). -/
def srModes : Nat → Nat → List Rnd × Nat
  | 0, x => ([], x)
  | k + 1, x =>
    let x' := srNext x
    let r := srModes k x'
    (.sr (x' / 2 ^ 32) :: r.1, r.2)

/-! ### Blocks (R184, R185, R196) -/

/-- Magnitude of a finite value as a rational. -/
def magRat : FV → Nat × Nat
  | .fin _ m e => if e < 0 then (m, 2 ^ (-e).toNat) else (m * 2 ^ e.toNat, 1)
  | _ => (0, 1)

/-- The larger of two rationals. -/
def ratMax (a b : Nat × Nat) : Nat × Nat := if a.1 * b.2 < b.1 * a.2 then b else a

/-- Whether 6 × S(q) ≥ a. -/
def chv4Holds (a : Nat × Nat) (q : Int) : Bool :=
  let s := chv4S q
  let x := inUnits a.1 a.2 s.2
  decide (x.1 ≤ 6 * s.1 * x.2)

/-- The smallest q from `q` on that holds amax, at most 126 (R184). -/
def chv4Find : Nat → (Nat × Nat) → Int → Int
  | 0, _, q => q
  | k + 1, a, q => if chv4Holds a q then q else chv4Find k a (q + 1)

/-- Whether any value is a NaN, an infinity. -/
def anyNan (l : List FV) : Bool := l.any FV.isNan
def FV.isInf : FV → Bool
  | .inf _ => true
  | _ => false
def FV.isNeg : FV → Bool
  | .fin n _ _ => n
  | .inf n => n
  | _ => false

/-- Encode 32 values y (after the division by the tensor factor) as a CHV4 block (R184, R185): scale byte, elements,
flags. A NaN makes the block NaN without a flag, an infinity with overflow and inexact. -/
def chv4Block (ys : List FV) (modes : List Rnd) : Nat × List Nat × Nat :=
  if anyNan ys ∨ ys.any FV.isInf then
    (0xFF, ys.map fun _ => 0, if ys.any FV.isInf then flOverflow + flInexact else 0)
  else
    let amax := ys.foldl (fun a y => ratMax a (magRat y)) (0, 1)
    let q := chv4Find 254 amax (-128)
    let s := chv4S q
    let excess := q == 126 && !chv4Holds amax 126
    let el (y : FV) (r : Rnd) : Nat × Nat :=
      let a := magRat y
      let x := inUnits a.1 (a.2 * s.1) s.2
      let c := eE2M1.convert true y.isNeg x.1 x.2 r
      (c.1, c.2 &&& (flInexact + flUnderflow))
    let r := List.zipWith el ys modes
    ((q + 128).toNat, r.map fun x => x.1, r.foldl (fun a x => a ||| x.2) (if excess then flOverflow + flInexact else 0))

/-- Largest exponent of an MX element format (R196). -/
def mxEmax (c : Nat) : Int := if c = 2 then 8 else if c = 3 then 15 else 2

/-- Encode 32 values as an MXFP8 or MXFP4 block (R196): scale byte, elements, flags. -/
def mxBlock (c : Nat) (ys : List FV) (modes : List Rnd) : Nat × List Nat × Nat :=
  match codeFmt c with
  | none => (0, [], 0)
  | some f =>
    if anyNan ys ∨ ys.any FV.isInf then
      (0xFF, ys.map fun _ => 0, if ys.any FV.isInf then flOverflow + flInexact else 0)
    else
      let amax := ys.foldl (fun a y => ratMax a (magRat y)) (0, 1)
      let shared : Int := if amax.1 = 0 then -127 else max (-127) (min 127 (ratLog2 amax.1 amax.2 - mxEmax c))
      let el (y : FV) (r : Rnd) : Nat × Nat :=
        let a := magRat y
        let x := inUnits a.1 a.2 shared
        f.convert true y.isNeg x.1 x.2 r
      let r := List.zipWith el ys modes
      ((shared + 127).toNat, r.map fun x => x.1, r.foldl (fun a x => a ||| x.2) 0)

/-- One value converted to a format without block scale (R192, R195): 32-bit formats keep it. -/
def scalarOut (c : Nat) (sat : Bool) (y : FV) (r : Rnd) : Nat × Nat :=
  match codeFmt c with
  | some f => f.convertV sat y r
  | none => if c = 7 then toInt8 y r else fmt32.ofV y

/-! ### Packing (R170) -/

/-- The little-endian bits of elements, packed without gaps, as one number. -/
def packBits (w : Nat) : List Nat → Nat
  | [] => 0
  | x :: t => x % 2 ^ w + 2 ^ w * packBits w t

/-- A row of elements as bytes. -/
def packRow (w : Nat) (l : List Nat) : List Byte := leBytes ((l.length * w + 7) / 8) (packBits w l)

/-- Element `i` of a row held as a number. -/
def rowElem (w row i : Nat) : Nat := row / 2 ^ (w * i) % 2 ^ w

end Sys2Proof.Machine
end

