-- ==== Sys2Proof/Machine/MxDesc.lean ====
section
/-! DEFINITION. Descriptors of matrix and attention operations (R167 to R171, R227 to R229): their fields, the scratchpad
regions they read and write, and the checks that make one illegal. -/

namespace Sys2Proof.Machine

/-! ### Fields -/

/-- The 32-bit word at an offset of a descriptor. -/
def dWord (d : List Byte) (off : Nat) : Nat := leNat ((d.drop off).take 4)

/-- A field [hi:lo] of the word at an offset. -/
def dFld (d : List Byte) (off hi lo : Nat) : Nat := nfld (dWord d off) hi lo

/-- One bit of the word at an offset. -/
def dBit (d : List Byte) (off n : Nat) : Bool := nbit (dWord d off) n

/-- A 64-bit field. -/
def dLong (d : List Byte) (off : Nat) : Nat := leNat ((d.drop off).take 8)

/-- OPC (R168, R228). -/
def dOpc (d : List Byte) : Nat := dFld d 0 3 0

/-- Whether an operation is one of the attention operations (R169). -/
def dAttn (d : List Byte) : Bool := decide (8 ≤ dOpc d) && decide (dOpc d ≤ 11)

/-- M and N of a matrix descriptor (R167). -/
def dM (d : List Byte) : Nat := dFld d 4 8 0 + 1
def dN (d : List Byte) : Nat := dFld d 4 17 9 + 1
def dK (d : List Byte) : Nat := dFld d 8 16 0

/-- Whether a matrix operation converts and stores (R168, R169). -/
def dStores (d : List Byte) : Bool := dOpc d == 3 || (dOpc d == 1 && dBit d 0 22)

/-- The K-block of a pair of formats (R160). -/
def kBlock (fa fb : Nat) : Nat := if fa = 11 ∨ fa = 12 ∨ fb = 11 ∨ fb = 12 then 16 else 32

/-! ### Attention geometry (R210 to R212) -/

def aD (d : List Byte) : Nat := 32 * (dFld d 4 11 9 + 1)
def aH (d : List Byte) : Nat := dFld d 4 16 12 + 1
def aT (d : List Byte) : Nat := 2 ^ dFld d 4 20 17
def aChv4 (d : List Byte) : Bool := dFld d 0 11 8 == 9
/-- Element bytes of one K or V vector (R210). -/
def aB (d : List Byte) : Nat := if aChv4 d then aD d / 2 else aD d
/-- Scale bytes of one vector (R212). -/
def aScaleB (d : List Byte) : Nat := if aChv4 d then aD d / 32 else 4
def aNlocal (d : List Byte) : Nat := dFld d 0x40 6 0
def aLocalF32 (d : List Byte) : Bool := dBit d 0x40 7
def aOutMode (d : List Byte) : Nat := dFld d 0 23 22
def aInit (d : List Byte) : Bool := dBit d 0 21
/-- Partial records of a row (R238). -/
def aRecs (d : List Byte) : Nat := if 128 < aD d then 2 else 1

/-! ### Scratchpad regions (R170) -/

/-- Rows of a scratchpad region: address with TSEL, stride, rows, bytes of a row. -/
structure Span where
  addr : Nat
  stride : Nat
  rows : Nat
  len : Nat
deriving DecidableEq, Repr

/-- The offset of a row of a region. -/
def Span.off (p : Span) (r : Nat) : Nat := p.addr % 0x800000 + r * p.stride

/-- The rows of a region as (offset, bytes). -/
def Span.list (p : Span) : List (Nat × Nat) := (List.range p.rows).map fun r => (p.off r, p.len)

/-- A row of `n` elements of `w` bits, in bytes. -/
def rowBytes (w n : Nat) : Nat := (w * n + 7) / 8

/-- Regions a matrix operation reads. -/
def mxReads (d : List Byte) : List Span :=
  if dOpc d = 1 then
    let kb := if dBit d 0 19 then dK d / 2 else dK d
    [⟨dWord d 0x10, dWord d 0x14, dM d, rowBytes (codeWidth (dFld d 0 7 4)) (dK d)⟩,
     ⟨dWord d 0x20, dWord d 0x24, dN d, rowBytes (codeWidth (dFld d 0 11 8)) kb⟩]
    ++ (if codeBlock (dFld d 0 7 4) then [⟨dWord d 0x18, dWord d 0x1C, dM d, (dK d + 31) / 32⟩] else [])
    ++ (if codeBlock (dFld d 0 11 8) then [⟨dWord d 0x28, dWord d 0x2C, dN d, (dK d + 31) / 32⟩] else [])
    ++ (if dBit d 0 19 then [⟨dWord d 0x30, dWord d 0x34, dN d, (dK d + 7) / 8⟩] else [])
  else if dOpc d = 2 then [⟨dWord d 0x54, dWord d 0x58, dM d, 4 * dN d⟩]
  else []

/-- Regions a matrix operation writes. -/
def mxWrites (d : List Byte) : List Span :=
  if dStores d then
    ⟨dWord d 0x40, dWord d 0x44, dM d, rowBytes (codeWidth (dFld d 0 15 12)) (dN d)⟩
    :: (if codeBlock (dFld d 0 15 12) then [⟨dWord d 0x48, dWord d 0x4C, dM d, dN d / 32⟩] else [])
  else []

/-- The local source rows of an attention operation (R223). -/
def aLocalSpan (d : List Byte) : Span :=
  ⟨dWord d 0x38, dWord d 0x3C, aNlocal d, 2 * aH d * aD d * (if aLocalF32 d then 4 else 2)⟩

/-- The partial records an operation reads (R239, R240). -/
def aStateSpan (d : List Byte) : Span := ⟨dWord d 0x50, dWord d 0x4C, dM d, 1024 * aRecs d⟩

/-- Regions an attention operation reads. -/
def attnReads (d : List Byte) : List Span :=
  if dOpc d = 8 then
    [⟨dWord d 0x10, dWord d 0x14, dM d, rowBytes (codeWidth (dFld d 0 7 4)) (aD d)⟩, ⟨dWord d 0x18, 0, 1, 16 * dM d⟩]
    ++ (if aNlocal d = 0 then [] else [aLocalSpan d]) ++ (if aInit d then [aStateSpan d] else [])
  else if dOpc d = 9 then [aLocalSpan d]
  else if dOpc d = 11 then [aStateSpan d]
  else []

/-- Regions an attention operation writes. -/
def attnWrites (d : List Byte) : List Span :=
  if dOpc d = 8 then
    if aOutMode d = 0 then [⟨dWord d 0x48, dWord d 0x4C, dM d, rowBytes (codeWidth (dFld d 0 15 12)) (aD d)⟩]
    else if aOutMode d = 1 then [⟨dWord d 0x48, dWord d 0x4C, dM d, 1024 * aRecs d⟩]
    else []
  else if dOpc d = 10 then
    [⟨dWord d 0x48, dWord d 0x4C, dWord d 0x0C - dWord d 0x08, 2 * rowBytes (codeWidth (dFld d 0 15 12)) (aD d)⟩]
  else if dOpc d = 11 then [⟨dWord d 0x48, dWord d 0x4C, dM d, rowBytes (codeWidth (dFld d 0 15 12)) (aD d)⟩]
  else []

/-- Regions an operation reads, writes. -/
def opReads (d : List Byte) : List Span := if dAttn d then attnReads d else mxReads d
def opWrites (d : List Byte) : List Span := if dAttn d then attnWrites d else mxWrites d

/-- Whether two lists of byte ranges meet. -/
def rangesMeet (a b : List (Nat × Nat)) : Bool :=
  a.any fun x => b.any fun y => decide (x.1 < y.1 + y.2) && decide (y.1 < x.1 + x.2)

/-- Whether two lists of regions meet. -/
def spansMeet (a b : List Span) : Bool := rangesMeet (a.flatMap Span.list) (b.flatMap Span.list)

/-- Whether a region obeys R170 for a task's member index and scratchpad size. -/
def spanOk (member size : Nat) (p : Span) : Bool :=
  p.addr % 16 == 0 && p.stride % 16 == 0 && (p.addr / 0x800000 == 7 || p.addr / 0x800000 == member)
    && (p.rows == 0 || decide (p.off (p.rows - 1) + p.len ≤ size))

/-! ### Legality (R171, R188, R190, R203) -/

/-- Finite, positive and normal (R171). -/
def normalPos (w : Nat) : Bool := decide (0x00800000 ≤ w) && decide (w < 0x7F800000)

/-- Whether a reserved field of a matrix descriptor is non-zero. -/
def mxReserved (d : List Byte) : Bool :=
  dFld d 0 31 24 != 0 || dFld d 4 31 18 != 0 || dFld d 8 31 17 != 0 || dWord d 0x0C != 0 || dWord d 0x5C != 0
    || (d.drop 0x68).any fun b => decide (b ≠ 0)

/-- The detail code of the first rule a matrix descriptor breaks, metadata apart; 0 where it is legal. -/
def mxCheck (d : List Byte) (split : Bool) (member size : Nat) : Nat :=
  let fa := dFld d 0 7 4
  let fb := dFld d 0 11 8
  let fo := dFld d 0 15 12
  let ai := dBit d 0 23
  let opc := dOpc d
  let lim := if split then 128 else 256
  if mxReserved d ∨ 4 ≤ opc then 1
  else if opc = 0 then 0
  else if dStores d ∧ dFld d 0 17 16 = 3 then 1
  else if opc = 1 ∧ (!codeIn fa ∨ !codeIn fb) then 2
  else if opc = 1 ∧ ai ∧ ¬((fa = 7 ∨ fa = 10) ∧ (fb = 7 ∨ fb = 10) ∧ dWord d 0x38 = 0x3F800000 ∧ dWord d 0x3C = 0x3F800000) then 2
  else if opc = 1 ∧ dBit d 0 19 ∧ (ai ∨ fb = 11 ∨ fb = 12) then 2
  else if dStores d ∧ (!codeOut fo ∨ (fo = 14 ∧ !ai) ∨ (ai ∧ fo ≠ 13 ∧ fo ≠ 14)) then 2
  else if lim < dM d ∨ lim < dN d then 3
  else if opc = 1 ∧ (dK d < 16 ∨ 65536 < dK d ∨ dK d % kBlock fa fb ≠ 0) then 3
  else if dStores d ∧ codeBlock fo ∧ dN d % 32 ≠ 0 then 3
  else if !((mxReads d ++ mxWrites d).all (spanOk member size)) then 4
  else if opc = 1 ∧ !ai ∧ !(normalPos (dWord d 0x38) && normalPos (dWord d 0x3C)) then 5
  else if dStores d ∧ !ai ∧ !normalPos (dWord d 0x50) then 5
  else 0

/-! ### Legality of attention descriptors (R229) -/

/-- The bits of each word an attention opcode uses (R229), by word. -/
def attnMask (d : List Byte) (w : Nat) : Nat :=
  let om := aOutMode d
  let opc := dOpc d
  let full := 0xFFFFFFFF
  let on (b : Bool) (m : Nat) : Nat := if b then m else 0
  if opc = 8 then
    match w with
    | 0 => 0x3BF80FFF + on (om == 0) 0x7F000 + on (om == 2) 0x4000000
    | 1 => 0x03FFFFFF
    | 2 => 0x3FFFFF
    | 3 => 0x3FFFFF
    | 7 => 0xFFFF
    | 10 => 0x3FFFFF
    | 11 => 0x1FFFFF
    | 16 => 0x1FFFFFFF
    | 17 => 0
    | 18 => on (om == 0 || om == 1) full
    | 19 => on (om == 0 || om == 1 || aInit d) full
    | 20 => on (aInit d) full
    | 21 => 0
    | 22 | 23 | 26 | 27 => on (om == 2) full
    | 24 | 25 => on (om == 0) full
    | n => if n < 28 then full else 0
  else if opc = 9 then
    match w with
    | 0 => 0x38000F0F
    | 1 => 0x001FFE00
    | 8 | 9 | 13 | 14 | 15 => full
    | 16 => 0x1FFFFFFF
    | _ => 0
  else if opc = 10 then
    match w with
    | 0 => 0x3800FF0F
    | 1 => 0x03FFFE00
    | 2 | 3 => 0x3FFFFF
    | 8 | 9 | 13 | 18 | 19 => full
    | _ => 0
  else
    match w with
    | 0 => 0x3807F00F
    | 1 => 0x00000FFF
    | 18 | 19 | 20 | 24 | 25 => full
    | _ => 0

/-- Whether an attention descriptor sets a bit its opcode does not use. -/
def attnUnused (d : List Byte) : Bool :=
  (List.range 32).any fun w => (List.range 32).any fun b => nbit (dWord d (4 * w)) b && !nbit (attnMask d w) b

/-- Whether an attention descriptor's fields lie in their ranges (R210, R225, R229). -/
def attnGeomOk (d : List Byte) (split : Bool) : Bool :=
  let opc := dOpc d
  let kv := dFld d 0 11 8
  let fo := dFld d 0 15 12
  let start := dWord d 0x08
  let stop := dWord d 0x0C
  let om := aOutMode d
  let outFmt := fo == 0 || fo == 11 || fo == 12 || fo == 13
  let geom := (kv == 0 || kv == 9) && dFld d 4 20 17 ≤ 10
    && decide (aH d * 2 * aT d * aB d ≤ 65536) && decide (aH d * 2 * aT d * aScaleB d ≤ 4096)
  let dims := decide (aD d ≤ (if split then 128 else 256))
  let rows := decide (dM d ≤ (if split then 128 else 256))
  let range := decide (start ≤ stop) && decide (stop ≤ 2097152) && decide (start ≤ 2097151)
  let list := dLong d 0x20 % 16 == 0
  if opc = 8 then
    (dFld d 0 7 4 == 0 || dFld d 0 7 4 == 11) && geom && dims && rows && range && list
      && decide (dFld d 4 25 21 < aH d) && decide (dFld d 0x1C 15 8 < dFld d 0x1C 7 0 + 1) && decide (aNlocal d ≤ 64)
      && om != 3 && (om != 0 || outFmt)
      && (om != 2 || (dLong d 0x58 % 1024 == 0 && dWord d 0x68 % 1024 == 0 && decide (1024 * aRecs d ≤ dWord d 0x68)))
  else if opc = 9 then geom && dims && list && decide (1 ≤ aNlocal d) && decide (aNlocal d ≤ 64)
  else if opc = 10 then
    geom && dims && range && list && decide (dFld d 4 25 21 < aH d) && (fo == 11 || fo == 13)
      && decide (1 ≤ stop - start) && decide (stop - start ≤ 1024)
  else dims && rows && outFmt

/-- Whether an attention operation uses RND (R229). -/
def attnRnd (d : List Byte) : Bool := dOpc d == 11 || (dOpc d == 8 && aOutMode d == 0)

/-- The detail code of the first rule an attention descriptor breaks; 0 where it is legal (R229). -/
def attnCheck (d : List Byte) (split : Bool) (member size : Nat) : Nat :=
  let opc := dOpc d
  if attnUnused d ∨ (attnRnd d ∧ dFld d 0 17 16 = 3) then 0x01
  else if !attnGeomOk d split then 0x11
  else if opc = 8 ∧ !normalPos (dWord d 0x30) then 0x05
  else if opc ≠ 11 ∧ aChv4 d ∧ !normalPos (dWord d 0x34) then 0x05
  else if !((attnReads d ++ attnWrites d).all (spanOk member size)) then 0x04
  else 0

end Sys2Proof.Machine
end

