-- ==== Sys2Proof/Machine/FeltCmds.lean ====
section
/-! DEFINITION. The meanings of the Felt's commands (rows RD_ONCE to REP_FLUSH, SEG_CFG_WRITE; 07_felt.md). A command
whose message is not in flight, or whose line is not in the state its rule names, has no occasion and changes nothing
(assumption log 5). -/

namespace Sys2Proof.Machine

/-- The outcome of a command whose effect is a state. -/
abbrev Res := Host.Outcome State Fault Refusal

/-- The requester's entry of a request outstanding (R320, R328). -/
def addPend (seg line : Nat) (r : FReq) (s : State) : State :=
  if s.felt.reqs.any fun p => p.seg == seg && p.line == line && p.req.agent == r.agent && p.req.stream == r.stream then s
  else { s with felt := { s.felt with reqs := s.felt.reqs ++ [{ req := r, seg := seg, line := line }] } }

/-- Remove the requester's entry. -/
def delPend (seg line agent stream : Nat) (s : State) : State :=
  { s with felt := { s.felt with reqs := s.felt.reqs.filter fun p =>
      !(p.seg == seg && p.line == line && p.req.agent == agent && p.req.stream == stream) } }

/-- The requester's entry, if any. -/
def findPend (seg line agent stream : Nat) (s : State) : Option PendReq :=
  s.felt.reqs.find? fun p => p.seg == seg && p.line == line && p.req.agent == agent && p.req.stream == stream

/-- Replace the requester's entry. -/
def modPend (seg line agent stream : Nat) (f : PendReq → PendReq) (s : State) : State :=
  { s with felt := { s.felt with reqs := s.felt.reqs.map fun p =>
      if p.seg == seg && p.line == line && p.req.agent == agent && p.req.stream == stream then f p else p } }

/-- A replica controller drops its own replica when it sends WR, ATOM, RED or LSE (R304). -/
def dropOwnReplica (line : Nat) (r : FReq) (s : State) : State := if r.agent < 8 then dropCopy r.agent line s else s

/-- The page of the segment of an agent's die that would hold its replica of a line (R300). -/
def replicaPage (s : State) (line agent : Nat) : Nat := pSegment agent (segUnit s (agent * 12 + replicaSeg (line * 1024)))

/-- Whether a die belongs to the mask of its request (R311). -/
def inMask (s : State) (line : Nat) (r : FReq) : Bool := (ssetAgents s (replicaPage s line r.agent) r.sset).contains r.agent

/-- Whether a replica controller may send a read of a line as RD_SHARED (R303): the line is NORMAL, there are replica ways,
and its die belongs to the request's mask. -/
def sharedAllowed (s : State) (line : Nat) (r : FReq) : Bool :=
  if 8 ≤ r.agent then true
  else !r.streamType && decide (fld (rd s (replicaPage s line r.agent) 0x104) 3 0 ≠ 0) && inMask s line r

/-- RD_ONCE at the home (R324). -/
def execRdOnce (seg line : Nat) (r : FReq) (s : State) : Res :=
  let r := { r with kind := .rdOnce }
  .next (homeAccept seg line r (addPend seg line r s))

/-- RD_SHARED at the home (R303, R311, R324); REP_REFUSED counts a read that the mask makes RD_ONCE. -/
def execRdShared (seg line : Nat) (r : FReq) (s : State) : Res :=
  if sharedAllowed s line r then
    let r := { r with kind := .rdShared }
    let s := if r.agent < 8 then add64 (replicaPage s line r.agent + 2) 0x110 1 s else s
    .next (homeAccept seg line r (addPend seg line r s))
  else
    let r := { r with kind := .rdOnce }
    let s := if inMask s line r then s else satInc (replicaPage s line r.agent + 2) 0x11C 1 s
    .next (homeAccept seg line r (addPend seg line r s))

/-- RD_OWN at the home, sent by the hub or a chiplet only (R301, R313, R324). -/
def execRdOwn (seg line : Nat) (r : FReq) (s : State) : Res :=
  if r.agent < 8 then .next s
  else
    let r := { r with kind := .rdOwn }
    .next (homeAccept seg line r (addPend seg line r s))

/-- WR at the home (R326). -/
def execWr (seg line : Nat) (r : FReq) (s : State) : Res :=
  let r := { r with kind := .wr }
  .next (homeAccept seg line r (addPend seg line r (dropOwnReplica line r s)))

/-- WB at the home (R324, R344). -/
def execWb (seg line : Nat) (r : FReq) (s : State) : Res :=
  .next (homeAccept seg line { r with kind := .wb } s)

/-- EVICT at the home (R324). -/
def execEvict (seg line : Nat) (r : FReq) (s : State) : Res :=
  .next (homeAccept seg line { r with kind := .evict } s)

/-- RED at the home (R330, R334 to R337). -/
def execRed (seg line : Nat) (r : FReq) (s : State) : Res :=
  let r := { r with kind := .red }
  .next (homeAccept seg line r (addPend seg line r (dropOwnReplica line r s)))

/-- LSE at the home (R242, R334 to R337). -/
def execLse (seg line : Nat) (r : FReq) (s : State) : Res :=
  let r := { r with kind := .lse, code := 0x20, off := 0 }
  .next (homeAccept seg line r (addPend seg line r (dropOwnReplica line r s)))

/-- A scalar atomic at the home (R330). -/
def execFeltAtomic (seg line : Nat) (r : FReq) (s : State) : Res :=
  let r := { r with kind := .atom }
  .next (homeAccept seg line r (addPend seg line r (dropOwnReplica line r s)))

/-- FLUSH at the home (R414): a line the Felt does not hold is accepted at once. -/
def execFlush (seg line : Nat) (r : FReq) (s : State) : Res :=
  let r := { r with kind := .flush }
  .next (homeAccept seg line r (addPend seg line r s))

/-- An uncorrectable read at a controller: UE_NEAR with SD_UE_COUNT and SD_LAST_UE (R399), or LINK_UE with LP_UE_COUNT
(R404). Which channel, bank and row a line lies in is not architectural (R398), so SD_LAST_UE takes a free value. -/
def controllerUe (sector : Nat) (s : State) : State :=
  let pa := sector * 256
  let p := ctlPage pa
  match rangeOf pa with
  | .near d =>
    let v := freeVal s
    let s1 := satInc p 0x114 1 (tickFree 1 s)
    let s2 := wr p 0x11C (BitVec.ofNat 32 (v.toNat % 2 ^ 24 + 2 ^ 31)) s1
    captureErr p { cls := 0x20, detail := 0x01, addr := pa, phys := true, addrValid := true, srcDie := d, srcUnit := 44,
                   srcLogical := 0x3F } (event p 0 s2)
  | .far d c =>
    captureErr p { cls := 0x20, detail := 0x02, addr := pa, phys := true, addrValid := true, srcDie := d, srcUnit := 45,
                   srcLogical := 0x3F } 
      (event p 0 (satInc p 0x110 1 (addProg p 5 1 (satInc (p + 1 + c) 0x108 1 s))))
  | _ => s

/-- A corrected codeword: the count and PROG_K1 (R399, R405, R426). -/
def countCorrected (die : Nat) (far : Bool) (n : Nat) (s : State) : State :=
  if n = 0 then s
  else if far then satInc (pLpddrc die) 0x10C n s
  else addProg (pSdramc die) 5 n (satInc (pSdramc die) 0x110 n s)

/-- MEMRD at the memory controller, or at the hub for host memory (R313, R399, R404, R406): MEM_DATA with the poison bit
of each sector that memory marks or that it finds uncorrectable; the line's MEMWRs before it are taken first. -/
def execMemrd (seg line : Nat) (ue : List Nat) (ce : Nat) (s : State) : Res :=
  match takeMsg .memRd seg line 0 s with
  | none => .next s
  | some (m, s0) =>
    let pa := line * 1024
    if !backed s pa ∧ !inTier pa then .fault (.unbackedAddress pa)
    else
      let s1 := landWrites line s0
      let bad := m.sectors.filter fun i => memPoison s1 (line * 4 + i) || ue.contains i
      let fresh := ue.filter fun i => m.sectors.contains i && !memPoison s1 (line * 4 + i)
      let hits := (m.sectors.filter fun i => memPoison s1 (line * 4 + i)).length
      let s2 := fresh.foldl (fun t i => controllerUe (line * 4 + i) t) s1
      let s2 := match rangeOf pa with
        | .near d => countCorrected d false ce s2
        | .far d _ => countCorrected d true ce (addProg (pLpddrc d) 7 hits s2)
        | _ => s2
      let s3 := addProg (ctlPage pa) 1 (256 * m.sectors.length) (addProg (ctlPage pa) 0 1 (countAccess pa s2))
      .next (send { kind := .memData, seg := seg, line := line, sectors := m.sectors, poison := bad,
                    data := m.sectors.flatMap fun i => cellsOfSector (fun o => rdMem s1 (pa + o)) i } s3)

/-- MEMWR at the memory controller, or at the hub for host memory (R313, R400, R406). A FLUSH is accepted once the
controller has taken its MEMWR (R414). -/
def execMemwr (seg line : Nat) (s : State) : Res :=
  match takeFirst (fun m : FMsg => decide (m.kind = .memWr) && m.seg == seg && m.line == line) s.felt.net with
  | none => .next s
  | some (m, rest) =>
    if !backed s (line * 1024) ∧ !inTier (line * 1024) then .fault (.unbackedAddress (line * 1024))
    else .next (takeMemWr m { s with felt := { s.felt with net := rest } })

/-- An agent's answer to the home of a line. -/
def answer (k : FMsgKind) (seg line agent : Nat) (s : State) : State :=
  send { kind := k, seg := seg, line := line, agent := agent, agen := agentGen s agent } s

/-- An agent gives a line up to its home (R328): drop the copy and answer ACK, ACK_CLEAN from E, WB_DATA from M; a fill
awaited for an RD_SHARED becomes use-once. -/
def giveUp (seg line agent : Nat) (s1 : State) : State :=
  match copyOf s1 agent line with
  | some c =>
    let s2 := dropCopy agent line s1
    match c.st with
    | .m => send { kind := .wbData, seg := seg, line := line, agent := agent, sectors := [0, 1, 2, 3],
                   data := (List.range 1024).map fun o => (o, sget lineDefault c.data o), poison := c.poison,
                   agen := agentGen s1 agent } s2
    | .e => answer .ackClean seg line agent s2
    | _ => answer .ack seg line agent s2
  | none =>
    let s2 : State := { s1 with felt := { s1.felt with reqs := s1.felt.reqs.map fun p =>
      if p.line = line ∧ p.req.agent = agent ∧ p.req.kind = .rdShared then { p with useOnce := true } else p } }
    answer .ack seg line agent s2

/-- Whether the host may hold a line of the hub's (R821). -/
def hostHolds (s : State) (agent line : Nat) : Bool := agent == 8 && (slook s.host.lines line).isSome

/-- SNP_INV at an agent (R328); for a line the host may hold, the hub asks the host first and answers after its BIRsp (R821). -/
def execSnpInv (seg line agent : Nat) (s : State) : Res :=
  match takeMsg .snpInv seg line agent s with
  | none => .next s
  | some (_, s1) =>
    if hostHolds s1 agent line then
      let w : BiWait := { line := line, seg := seg }
      .next (addProg pHostif 6 1 (emit (.biSnp line true) { s1 with host := { s1.host with biWait := s1.host.biWait ++ [w] } }))
    else .next (giveUp seg line agent s1)

/-- BIRSP (R821): the host gives up a line it was asked for, with the data it writes back, and the home is answered. -/
def biRsp (line : Nat) (data : Option (List Byte)) (s : State) : State :=
  match takeFirst (fun w : BiWait => w.line == line) s.host.biWait with
  | none => s
  | some (w, rest) =>
    let s1 : State := { s with host := { s.host with biWait := rest, lines := serase line s.host.lines } }
    let s2 := match data, copyOf s1 8 line with
      | some bs, some c =>
        let bytes := (List.range 1024).map fun o => (o, bs.getD o (sget lineDefault c.data o))
        setCopy 8 line { c with st := .m, data := putCells bytes c.data, poison := [] } s1
      | _, _ => s1
    giveUp w.seg line 8 s2

def execBirsp (line : Nat) (data : Option (List Byte)) (s : State) : Res := .next (biRsp line data s)

/-- SNP_FWD at an agent (R328): FWD_DATA to the named requester and ACK_FWD, or MISS. -/
def execSnpFwd (seg line agent : Nat) (s : State) : Res :=
  match takeMsg .snpFwd seg line agent s with
  | none => .next s
  | some (m, s1) =>
    match copyOf s1 agent line with
    | some c =>
      let s2 := send { kind := .fwdData, seg := seg, line := line, agent := m.target, stream := m.stream,
                       sectors := m.sectors, poison := c.poison.filter fun i => m.sectors.contains i,
                       data := m.sectors.flatMap fun i => cellsOfSector (sget lineDefault c.data) i,
                       target := b2n m.owned, value := agent, agen := agentGen s agent } s1
      .next (answer .ackFwd seg line agent s2)
    | none => .next (answer .miss seg line agent s1)

/-- SNP_MKF at a sharer (R328): it becomes the Forwarder and answers ACK. -/
def execSnpMkf (seg line agent : Nat) (s : State) : Res :=
  match takeMsg .snpMkf seg line agent s with
  | none => .next s
  | some (_, s1) =>
    match copyOf s1 agent line with
    | some c => .next (answer .ack seg line agent (setCopy agent line { c with st := .f } s1))
    | none => .next (answer .ack seg line agent s1)

/-- SNP_INV_HOME at an agent (R328, R346): every S and F copy homed at the segment is dropped; with OWNED = 1 so is
every E and M copy, each M line answered by WB_DATA; one ACK at the end. -/
def execSnpInvHome (seg agent : Nat) (s : State) : Res :=
  match takeFirst (fun m : FMsg => decide (m.kind = .snpInvHome) && m.seg == seg && m.agent == agent) s.felt.net with
  | none => .next s
  | some (m, rest) =>
    let s1 : State := { s with felt := { s.felt with net := rest } }
    let mine := s1.felt.copies.filter fun e => decide (e.1 / 0x4000000000 = agent) && e.2.seg == seg
    let gone := mine.filter fun e => m.owned || decide (e.2.st = .s) || decide (e.2.st = .f)
    let s2 := gone.foldl (fun t e =>
      let line := e.1 % 0x4000000000
      let t1 := if e.2.st = .m then
          send { kind := .wbData, seg := seg, line := line, agent := agent, sectors := [0, 1, 2, 3], poison := e.2.poison,
                 data := (List.range 1024).map fun o => (o, sget lineDefault e.2.data o), agen := agentGen s agent } t
        else t
      dropCopy agent line (if agent = 8 then hostGiveUp line t1 else t1)) s1
    .next (answer .ack seg 0 agent s2)

/-- HSNP at the home of a host-memory line (R318): a pending MEMRD for the line is answered as a conflict, at once and
without data; replicas are invalidated where the host takes the line away; another transaction is waited for. -/
def execHsnp (seg line : Nat) (inv : Bool) (s : State) : Res :=
  let h := home s seg line
  if !inHost (line * 1024) then .next s
  else
    match h.trans with
    | some t => if t.phase = .memory then .next (emit (.hostSnoop line inv true) s) else .next s
    | none =>
      let s1 := addProg (segPage s seg) 2 1 s
      let t : Trans := { kind := .hsnp inv, req := { kind := .flush, agent := 8, stream := 0 }, phase := .snoop }
      .next (snoopThen seg line (if inv then invTargets s1 seg h 15 else match h.owner with | some o => [o] | none => []) t s1)

/-- Take an answer of an agent, dropping one of an old generation (R343, R677). -/
def takeAnswer (k : FMsgKind) (seg line agent : Nat) (s : State) (f : FMsg → State → State) : State :=
  match takeMsg k seg line agent s with
  | none => s
  | some (m, s1) => if m.agen ≠ expectGen s1 seg agent then staleDrop seg s1 else f m s1

/-- The last ACK of a segment reset: the directory is cleared and the segment enters OFF (R346 step 6). -/
def finishReset (seg : Nat) (s : State) : State :=
  let s1 : State := { s with felt := { s.felt with lines := s.felt.lines.filter fun e => decide (e.1 / 0x4000000000 ≠ seg) } }
  let s2 := setSegSt seg { segSt s1 seg with resetting := false, resetAcks := [], orders := [], stay := false } s1
  let p := segPage s2 seg
  if (segSt s1 seg).stay then s2
  else setUState p .off false (setUnit p { unitSt s2 p with enable := false, drain := false } s2)

/-- ACK at the home (R324), or at a resetting segment (R346). -/
def execAck (seg line agent : Nat) (s : State) : Res :=
  .next (takeAnswer .ack seg line agent s fun _ t =>
    if (segSt t seg).resetting ∧ line = 0 then
      let w := setDel agent (segSt t seg).resetAcks
      let t1 := setSegSt seg { segSt t seg with resetAcks := w } t
      if w.isEmpty then finishReset seg t1 else t1
    else answered seg line agent t)

/-- ACK_CLEAN at the home: an owner dropped an E line (R324). -/
def execAckClean (seg line agent : Nat) (s : State) : Res :=
  .next (takeAnswer .ackClean seg line agent s fun _ t => answered seg line agent t)

/-- ACK_FWD at the home: the Forwarder has sent the data; a new RD_SHARED requester is recorded (R309, R324). -/
def execAckFwd (seg line agent : Nat) (s : State) : Res :=
  .next (takeAnswer .ackFwd seg line agent s fun _ t =>
    let h := home t seg line
    match h.trans with
    | none => t
    | some tr =>
      if tr.phase ≠ .forward then t
      else
        let dir := if tr.req.kind = .rdShared ∧ tr.req.agent ≠ seg / 12 then some (addSharer tr.req.agent tr.req.sset h.dir) else h.dir
        endTrans seg line (setHome seg line { h with dir := dir } t))

/-- MISS at the home: the agent's pointer is cleared and the line is fetched (R309, R324). -/
def execMiss (seg line agent : Nat) (s : State) : Res :=
  .next (takeAnswer .miss seg line agent s fun _ t =>
    let h := home t seg line
    match h.trans with
    | none => t
    | some tr =>
      if tr.phase ≠ .forward then t
      else proceed seg line { tr with waiting := [] }
        (setHome seg line { h with dir := h.dir.map fun d => d.clear agent } t))

/-- NACK at the requester (R320): the count rises, saturating at 15, and the request waits to be sent again. -/
def execNack (seg line agent stream : Nat) (s : State) : Res :=
  match takeMsgS .nack seg line agent stream s with
  | none => .next s
  | some (_, s1) =>
    .next (modPend seg line agent stream
      (fun p => { p with nacked := true, req := { p.req with nacks := min (p.req.nacks + 1) 15 } }) s1)

/-- Whether an agent has a STARVE-marked request outstanding to a segment (R321). -/
def starveOut (s : State) (seg agent : Nat) : Bool :=
  s.felt.reqs.any fun p => p.seg == seg && p.req.agent == agent && p.req.starve && !p.nacked

/-- A NACKed request is sent again, STARVE-marked from the 9th attempt, one such per segment at a time (R320, R321). -/
def execNackRetry (seg line agent stream : Nat) (s : State) : Res :=
  match findPend seg line agent stream s with
  | none => .next s
  | some p =>
    if !p.nacked then .next s
    else
      let starve := decide (8 ≤ p.req.nacks)
      if starve && starveOut s seg agent then .next s
      else
        let r := { p.req with starve := starve }
        .next (homeAccept seg line r (modPend seg line agent stream (fun q => { q with nacked := false, req := r }) s))

/-- GO at the requester (R326): the request is accepted; a copy kept for a WB or EVICT is given up, unless it was already
taken, when the GO is ignored (R328). -/
def execGo (seg line agent stream : Nat) (s : State) : Res :=
  match takeMsgS .go seg line agent stream s with
  | none => .next s
  | some (_, s1) =>
    let s2 := delPend seg line agent stream s1
    match copyOf s2 agent line with
    | some c => if c.leaving.isSome then .next (dropCopy agent line s2) else .next s2
    | none => .next s2

/-- ABORT at the requester (R346): its request ends without effect; in a recovery under ORDER_FIRST it is kept to be sent
again (R698). -/
def execAbort (seg line agent stream : Nat) (s : State) : Res :=
  match takeMsgS .abort seg line agent stream s with
  | none => .next s
  | some (_, s1) =>
    if s1.recov.running ∧ s1.recov.order then .next (modPend seg line agent stream (fun q => { q with nacked := true }) s1)
    else .next (delPend seg line agent stream s1)

/-- DONE at the home (R324): the requester of an RD_OWN owns the line. -/
def execDone (seg line agent : Nat) (s : State) : Res :=
  .next (takeAnswer .done seg line agent s fun _ t =>
    let h := home t seg line
    match h.trans with
    | none => t
    | some tr =>
      if tr.phase ≠ .done ∨ tr.req.agent ≠ agent then t
      else endTrans seg line
        (setHome seg line { h with dir := some { mode := .owned, ptrs := [some agent, none, none], fwd := 0, sset := tr.req.sset } } t))

/-- Install a fill at its agent (R328): S for RD_SHARED, E for RD_OWN, nothing for RD_ONCE or a use-once fill. -/
def installFill (seg line agent : Nat) (m : FMsg) (useOnce : Bool) (s : State) : State :=
  if m.target = 0 ∨ useOnce then s
  else
    let c : AgLine := { st := (if m.target = 2 then .e else .s), data := putCells m.data [], poison := m.poison, seg := seg }
    setCopy agent line c s

/-- FILL at the requester (R328): the copy is installed, and an RD_OWN is answered by DONE. -/
def execFill (seg line agent stream : Nat) (s : State) : Res :=
  match takeMsgS .fill seg line agent stream s with
  | none => .next s
  | some (m, s1) =>
    let once := match findPend seg line agent stream s1 with | some p => p.useOnce | none => false
    let s2 := installFill seg line agent m once (delPend seg line agent stream s1)
    .next (if m.target = 2 then answer .done seg line agent s2 else s2)

/-- FWD_DATA at the requester (R324, R328): installed as a FILL is. -/
def execFwdData (seg line agent stream : Nat) (s : State) : Res :=
  match takeMsgS .fwdData seg line agent stream s with
  | none => .next s
  | some (m, s1) =>
    let once := match findPend seg line agent stream s1 with | some p => p.useOnce | none => false
    .next (installFill seg line agent m once (delPend seg line agent stream s1))

/-- WB_DATA at the home (R324): the snooped owner's data is merged as D sectors, poisoned ones as P (R340); a resetting
segment writes it to memory (R346). -/
def execWbData (seg line agent : Nat) (s : State) : Res :=
  .next (takeAnswer .wbData seg line agent s fun m t =>
    if (segSt t seg).resetting then writeSectors line m.sectors m.poison m.data (landWrites line t)
    else
      let h := home t seg line
      match h.trans with
      | none => t
      | some _ => answered seg line agent (logPoison seg line m.poison 0x0B agent (setHome seg line (mergeOwner m h) t)))

/-- Fill the sectors still in I with memory's data: C, or P where the poison bit is set (R340). -/
def mergeMemory (m : FMsg) (h : HomeLine) : HomeLine :=
  let want := m.sectors.filter fun i => decide (h.sector i = .i)
  let h1 := { h with data := putCells (m.data.filter fun c => want.contains (c.1 / 256)) h.data }
  want.foldl (fun x i => x.setSector i (if m.poison.contains i then .p else .c)) h1

/-- MEM_DATA at the home (R324, R340): the sectors arrive, and the transaction goes on once none is missing. -/
def execMemData (seg line : Nat) (s : State) : Res :=
  match takeMsg .memData seg line 0 s with
  | none => .next s
  | some (m, s1) =>
    let h := home s1 seg line
    match h.trans with
    | none => .next s1
    | some t =>
      if t.phase ≠ .memory then .next s1
      else
        let bad := m.poison.filter fun i => m.sectors.contains i && decide (h.sector i = .i)
        let left := t.fetch.filter fun i => !m.sectors.contains i
        let h1 := { mergeMemory m h with trans := some { t with fetch := left } }
        let s2 := logPoison seg line bad 0x0A 0 (portBytes seg (256 * m.sectors.length) (setHome seg line h1 s1))
        .next (if left.isEmpty then finishTrans seg line { t with fetch := [] } s2 else s2)

/-- ATOM_DATA at the requester (R313, R332): the operation is accepted and its result delivered. -/
def execAtomData (seg line agent stream : Nat) (s : State) : Res :=
  match takeMsgS .atomData seg line agent stream s with
  | none => .next s
  | some (m, s1) => .next (emit (.atomResult agent stream m.value m.flags m.detail) (delPend seg line agent stream s1))

/-- A data-way eviction (R324): D and P sectors are written back; a PTR entry with pointers and no Forwarder has its
lowest valid pointer made the Forwarder; the data is dropped. -/
def execDataWayEviction (seg line : Nat) (s : State) : Res :=
  let h := home s seg line
  if h.trans.isSome ∨ h.sect = [.i, .i, .i, .i] then .next s
  else
    let dirty := h.sectorsIn .d ++ h.sectorsIn .p
    let s1 := if dirty.isEmpty then s else sendMemWr seg line dirty 0 0 false s
    match h.dir with
    | some d =>
      match d.mode, d.agents with
      | .ptr, a :: _ =>
        if d.fwd = 0 then
          let i := if d.ptrs.getD 0 none = some a then 1 else if d.ptrs.getD 1 none = some a then 2 else 3
          let t : Trans := { kind := .mkf, req := { kind := .evict, agent := 15, stream := 0 }, phase := .snoop, waiting := [a] }
          .next (send { kind := .snpMkf, seg := seg, line := line, agent := a }
            (setHome seg line { h.dropData with dir := some { d with fwd := i }, trans := some t } s1))
        else .next (setHome seg line h.dropData s1)
      | _, _ => .next (setHome seg line h.dropData s1)
    | none => .next (setHome seg line h.dropData s1)

/-- A directory entry is reused (R312): SNP_INV to every holder, WB_DATA merged, the entry freed. -/
def execDirectoryEntryEviction (seg line : Nat) (s : State) : Res :=
  let h := home s seg line
  if h.trans.isSome ∨ h.dir.isNone then .next s
  else
    let t : Trans := { kind := .dirEvict, req := { kind := .evict, agent := 15, stream := 0 }, phase := .snoop }
    .next (snoopThen seg line (invTargets s seg h 15) t s)

/-- An agent drops an S or F copy without a message (R329). -/
def execSilentEviction (agent line : Nat) (s : State) : Res :=
  match copyOf s agent line with
  | some c => if (c.st = .s ∨ c.st = .f) ∧ !hostHolds s agent line then .next (dropCopy agent line s) else .next s
  | none => .next s

/-- The hub or a chiplet gives up an E or M line (R328): EVICT or WB is sent and the copy kept until GO. -/
def execAgentEviction (agent line : Nat) (s : State) : Res :=
  match copyOf s agent line with
  | some c =>
    if agent < 8 ∨ c.leaving.isSome ∨ hostHolds s agent line then .next s
    else
      match c.st with
      | .m =>
        let r : FReq := { kind := .wb, agent := agent, stream := 0, sectors := [0, 1, 2, 3], poison := c.poison,
                          data := (List.range 1024).map fun o => (o, sget lineDefault c.data o), agen := agentGen s agent }
        .next (homeAccept c.seg line r (addPend c.seg line r (setCopy agent line { c with leaving := some .wb } s)))
      | .e =>
        let r : FReq := { kind := .evict, agent := agent, stream := 0, agen := agentGen s agent }
        .next (homeAccept c.seg line r (addPend c.seg line r (setCopy agent line { c with leaving := some .evict } s)))
      | _ => .next s
  | none => .next s

/-- A reservation lapses (R322): it passes to the next agent of the queue, and the lapsed agent goes to its tail. -/
def execReservationLapse (seg line : Nat) (s : State) : Res :=
  let h := home s seg line
  match h.rsvd with
  | none => .next s
  | some a =>
    let q := h.starve ++ [a]
    .next (addProg (segPage s seg) 5 1
      (setHome seg line { h with rsvd := q.head?, starve := q.tail } s))

/-- A transaction without what a dead agent asked for (R343 step 3): merged reads of others go on. -/
def Trans.without (t : Trans) (a : Nat) : Option Trans :=
  let m := t.merged.filter fun r => decide (r.agent ≠ a)
  if t.kind = .req ∧ t.req.agent = a then
    match m with
    | [] => none
    | r :: rest => some { t with req := r, merged := rest }
  else some { t with merged := m }

/-- A home settles one line for a dead agent (R343 steps 2 to 4). -/
def reclaimLine (seg line a : Nat) (s : State) : State :=
  let h := home s seg line
  let h0 := { h with starve := setDel a h.starve, rsvd := (if h.rsvd = some a then none else h.rsvd) }
  let s0 := setHome seg line h0 s
  -- transactions
  let s1 :=
    match h0.trans with
    | none => s0
    | some t0 =>
      match t0.without a with
      | none => endTrans seg line s0
      | some t =>
      let s0 := setHome seg line { h0 with trans := some t } s0
      if t.waiting.contains a then
        (if t.phase = .forward then
          proceed seg line { t with waiting := [] }
            (setHome seg line { h0 with dir := h0.dir.map (fun d => d.clear a), trans := some t } s0)
        else if h0.owner = some a then
          answered seg line a (markPoison seg line [0, 1, 2, 3] 0x03 a s0)
        else answered seg line a s0)
      else s0
  -- directory
  let h1 := home s1 seg line
  match h1.dir with
  | none => s1
  | some d =>
    match d.mode with
    | .owned =>
      if h1.owner = some a ∧ h1.trans.isNone then
        markPoison seg line [0, 1, 2, 3] 0x03 a (setHome seg line { h1 with dir := none } s1)
      else s1
    | .ptr => setHome seg line { h1 with dir := some (d.clear a) } s1
    | .bcast => s1

/-- Every home reclaims a dead agent (R343): its expected generation rises, transactions are settled, the directory is
scanned; a resetting segment no longer waits for it. -/
def reclaimAt (a : Nat) (s : State) (seg : Nat) : State :=
  let g := segSt s seg
  let s1 := setSegSt seg { g with agen := sput (fun _ => 0) g.agen a (expectGen s seg a + 1), reclaim := setAdd a g.reclaim } s
  let s2 := (s1.felt.lines.filter fun e => decide (e.1 / 0x4000000000 = seg)).foldl
    (fun t e => reclaimLine seg (e.1 % 0x4000000000) a t) s1
  let g2 := segSt s2 seg
  if g2.resetting ∧ g2.resetAcks.contains a then
    let s3 := setSegSt seg { g2 with resetAcks := setDel a g2.resetAcks } s2
    if (setDel a g2.resetAcks).isEmpty then finishReset seg s3 else s3
  else s2

/-- Whether a message is one that a home or a Forwarder sends to an agent. -/
def FMsgKind.toAgent (k : FMsgKind) : Bool :=
  [FMsgKind.snpInv, .snpFwd, .snpMkf, .snpInvHome, .nack, .go, .abort, .fill, .fwdData, .atomData].contains k

/-- Messages in flight when an agent dies: those on their way to it are lost, and a line it forwarded serves the reads that
wait for it but is not installed (R344). -/
def deadNet (a : Nat) (net : List FMsg) : List FMsg :=
  (net.filter fun m => !(m.kind.toAgent && m.agent == a)).map fun m =>
    if m.kind = .fwdData ∧ m.value = a then { m with target := 0 } else m

/-- The AGENT_DEAD broadcast (R342, R343): the agent's copies, its requests and the messages on their way to it are gone. -/
def agentDead (a : Nat) (s : State) : State :=
  let s1 : State := { s with felt := { s.felt with
    dead := setAdd a s.felt.dead,
    copies := s.felt.copies.filter fun e => decide (e.1 / 0x4000000000 ≠ a),
    net := deadNet a s.felt.net,
    reqs := s.felt.reqs.filter fun p => decide (p.req.agent ≠ a) } }
  (List.range 96).foldl (reclaimAt a) s1

/-- AGENT_DEAD (R343), for an agent that exists. -/
def execAgentDead (agent : Nat) (s : State) : Res :=
  if 11 ≤ agent ∨ s.felt.dead.contains agent then .next s else .next (agentDead agent s)

/-- A home has scanned its directory for a dead agent (R343 step 5). -/
def execReclaimDone (seg agent : Nat) (s : State) : Res :=
  if 96 ≤ seg ∨ !(segSt s seg).reclaim.contains agent then .next s
  else .next (event (segPage s seg) 4 (setSegSt seg { segSt s seg with reclaim := setDel agent (segSt s seg).reclaim } s))

/-- The hub brings a dead agent back once no home is still reclaiming it; its messages carry the new generation (R345). -/
def execAgentRevive (agent : Nat) (s : State) : Res :=
  if !s.felt.dead.contains agent ∨ (List.range 96).any (fun g => (segSt s g).reclaim.contains agent) then .next s
  else .next { s with felt := { s.felt with dead := setDel agent s.felt.dead,
                                            agen := sput (fun _ => 0) s.felt.agen agent (expectGen s 0 agent) } }

/-- Begin the reset of a segment (R346 steps 1 to 6, up to the snoops): every open transaction is answered ABORT, OWNED
lines are recalled, D sectors written to memory and unreadable ones lost, open ordered rounds lost, and SNP_INV_HOME
sent to every agent; with an unreadable directory (the segment was FAULTED with UE_DIR) OWNED lines are left to it. -/
def segmentReset (seg : Nat) (unreadable : List (Nat × Nat)) (s : State) : State :=
  let p := segPage s seg
  let dirLost := decide ((rd s p 0x20).toNat % 0x10000 = 0x2002) && bitOf (rd s p 0x20) 31
  let mine := s.felt.lines.filter fun e => decide (e.1 / 0x4000000000 = seg)
  let s1 := mine.foldl (fun t e =>
    let line := e.1 % 0x4000000000
    match (home t seg line).trans with
    | some tr =>
      let t1 := if tr.kind = .req then
          (tr.req :: tr.merged).foldl (fun x r => send { kind := .abort, seg := seg, line := line, agent := r.agent, stream := r.stream } x) t
        else t
      setHome seg line { home t1 seg line with trans := none, starve := [], rsvd := none } t1
    | none => t) s
  let s2 := if dirLost then s1 else mine.foldl (fun t e =>
    let line := e.1 % 0x4000000000
    if (home t seg line).owner.isSome then recallLine seg line t else t) s1
  let s3 := (segSt s2 seg).orders.foldl (fun t o =>
    markPoison seg (o.tgt / 4) (if o.isLse then [0, 1, 2, 3] else [o.tgt % 4]) 0x04 0 t) s2
  let s4 := setSegSt seg { segSt s3 seg with
    orders := [], resetting := true, resetAcks := agentsPresent s3, marked := decide ((segSt s2 seg).orders ≠ [])
    lost := (segSt s2 seg).orders.flatMap fun o => o.who
    lostOf := (segSt s2 seg).orders.filterMap fun o => (home s2 seg (o.tgt / 4)).slice } s3
  let s5 := (s4.felt.lines.filter fun e => decide (e.1 / 0x4000000000 = seg)).foldl (fun t e =>
    let line := e.1 % 0x4000000000
    let lost := (unreadable.filter fun u => u.1 == line && decide ((home t seg line).sector u.2 = .d)).map fun u => u.2
    let t0 := if lost = [] then t
      else setSegSt seg { segSt t seg with marked := true, lostOf := (home t seg line).slice.toList ++ (segSt t seg).lostOf } t
    let t1 := markPoison seg line lost 0x09 0 t0
    let h := home t1 seg line
    let out := h.sectorsIn .d ++ h.sectorsIn .p
    let t2 := writeSectors line out (h.sectorsIn .p) (out.flatMap fun i => cellsOfSector h.byte i) (landWrites line t1)
    setHome seg line { (home t2 seg line).dropData with trans := none } t2) s4
  (agentsPresent s5).foldl (fun t a => send { kind := .snpInvHome, seg := seg, line := 0, agent := a, owned := dirLost } t) s5

/-- SEGMENT_RESET (R346), of a logical segment that is not already resetting. -/
def execSegmentReset (seg : Nat) (unreadable : List (Nat × Nat)) (s : State) : Res :=
  if 96 ≤ seg ∨ (segSt s seg).resetting then .next s else .next (segmentReset seg unreadable s)

/-- A write of SEG_MIGRATE with START = 1 (R348): the old segment begins to move its sets to the spare. -/
def execSegMigrate (die unit target : Nat) (s : State) : Res :=
  if 8 ≤ die ∨ 13 ≤ unit ∨ target < 20 ∨ 32 < target then .next s
  else
    match logicalSeg s die unit with
    | none => .next s
    | some seg =>
      if (unitSt s (pSegment die unit)).state ≠ .active ∨ (unitSt s (pageOf die target 0)).state ≠ .spare ∨ wearFull s then .next s
      else
        let p := pSegment die unit
        let s0 := wearWrite 2 die (20 + unit) target (seg % 12) 0 s
        let s1 := wr p 0x10C (BitVec.ofNat 32 (target + 64)) (wr p 0x110 0 s0)
        .next (setSegSt seg { segSt s1 seg with migTo := some (target - 20) } s1)

/-- The replica lines a physical segment of a die holds. -/
def replicasIn (s : State) (die seg : Nat) : List (Nat × AgLine) :=
  s.felt.copies.filter fun e => decide (e.1 / 0x4000000000 = die) && decide (die * 12 + replicaSeg (e.1 % 0x4000000000 * 1024) = seg)

/-- Drop every replica a segment holds (R354). -/
def dropReplicas (die seg : Nat) (s : State) : State :=
  { s with felt := { s.felt with copies := s.felt.copies.filter fun e =>
      !(decide (e.1 / 0x4000000000 = die) && decide (die * 12 + replicaSeg (e.1 % 0x4000000000 * 1024) = seg)) } }

/-- Bring DIST_GEN to odd, change entries, bring it to even and raise DIST_CHANGED (R52). -/
def distUpdate (changes : List (Nat × Word)) (s : State) : State :=
  let s1 := inc32 pDist 0x108 1 s
  let s2 := { s1 with org := { s1.org with dist := changes.foldl (fun d c =>
    if c.1 < 15360 then sput (fun _ => (0 : Word)) d c.1 c.2 else d) s1.org.dist } }
  event pDist 0 (inc32 pDist 0x108 1 s2)

/-- Set 511 has moved (R348 steps 4 and 5): the logical ID is rebound, the old segment enters RETIRED, and the DIST
table is updated; latency and bandwidth to the new unit are calibration values (free). -/
def execSegmentMigrateDone (die unit : Nat) (s : State) : Res :=
  if 8 ≤ die ∨ 13 ≤ unit then .next s
  else
    match logicalSeg s die unit with
    | none => .next s
    | some seg =>
      match (segSt s seg).migTo with
      | none => .next s
      | some t =>
        let p := pSegment die unit
        let s1 := dropReplicas die seg (wr p 0x110 512 s)
        let s2 : State := { s1 with org := { s1.org with bindSeg := sput (fun k => k % 12) s1.org.bindSeg seg t } }
        let s3 := setSegSt seg { segSt s2 seg with migTo := none } s2
        let q := pSegment die t
        let s4 := setUnit q { unitSt s3 q with state := .active, enable := true } s3
        let s5 := pounceDone true (event p 5 (setUState p .retired false s4))
        let free := (List.range 96).map fun k => (k * 160 + seg,
          BitVec.ofNat 32 ((Config.freeValue (s5.freeCtr + k)).toNat % 2 ^ 29 + 2 ^ 31))
        .next (distUpdate free (tickFree 96 s5))

/-- A write of SEG_CFG (R298, R351): a division beyond the limits, or with fewer than 4 home ways, is ignored and sets
BAD_CFG; otherwise the change begins. -/
def execSegCfgWrite (die unit : Nat) (data : Word) (s : State) : Res :=
  if 8 ≤ die ∨ 13 ≤ unit then .next s
  else
    let p := pSegment die unit
    let repl := fld data 3 0
    let red := fld data 6 4
    if 8 < repl ∨ 4 < red ∨ 12 < repl + red then .next (event p 6 s)
    else .next (wr p 0x104 (rd s p 0x104 ||| 0x80) (wr p 0x100 (data &&& 0x7F) s))

/-- The ways that change use are empty (R298): replicas of ways leaving replica use are dropped, and the new division is
in force; ways still holding buffered contributions keep the old one. -/
def execWayChangeDone (die unit : Nat) (s : State) : Res :=
  if 8 ≤ die ∨ 13 ≤ unit then .next s
  else
    let p := pSegment die unit
    if !bitOf (rd s p 0x104) 7 then .next s
    else
      match logicalSeg s die unit with
      | none => .next (wr p 0x104 (rd s p 0x100) s)
      | some seg =>
        if fld (rd s p 0x100) 6 4 * 2048 < bufferedUnits s seg then .next s
        else
          let less := decide (fld (rd s p 0x100) 3 0 < fld (rd s p 0x104) 3 0)
          let s1 := if less then dropReplicas die seg s else s
          .next (wr p 0x104 (rd s1 p 0x100 &&& 0x7F) s1)

/-- A write of REP_FLUSH (R354): every replica in the segment is dropped. -/
def execRepFlush (die unit : Nat) (s : State) : Res :=
  match logicalSeg s die unit with
  | none => .next s
  | some seg => .next (dropReplicas die seg s)

end Sys2Proof.Machine
end

