-- ==== Sys2Proof/Machine/MemTiers.lean ====
section
/-! DEFINITION. The meanings of the memory controllers' commands (rows SD_THERM_EVAL to ACCESS_COUNTER_CONFIG_WRITE;
09_device_memory.md). A command of a die above 7 names no controller and changes nothing (assumption log 5). -/

namespace Sys2Proof.Machine

/-! ### Temperature, refresh, scrub -/

/-- Die temperature at which a level is entered and left (R401). -/
def thermEnter (l : Nat) : Nat := if l = 1 then 85 else if l = 2 then 95 else 100
def thermLeave (l : Nat) : Nat := if l = 1 then 82 else if l = 2 then 92 else 97

/-- The highest level whose entry temperature is reached. -/
def thermReached (t : Nat) : Nat := if 100 ≤ t then 3 else if 95 ≤ t then 2 else if 85 ≤ t then 1 else 0

/-- Whether the die has been at or below level `l`'s leave threshold for 1 ms. -/
def thermMayLeave (now : Nat) (since : List (Option Nat)) (l : Nat) : Bool :=
  match since.getD (l - 1) none with
  | some t0 => decide (t0 + 1000000 ≤ now)
  | none => false

/-- Leave levels from the top while their leave condition holds (R401). -/
def thermDown (now : Nat) (since : List (Option Nat)) : Nat → Nat
  | 0 => 0
  | l + 1 => if thermMayLeave now since (l + 1) then thermDown now since l else l + 1

/-- The cap of a level, in percent (R401, R426). -/
def thermCap (l : Nat) : Nat := if l = 2 then 75 else if l = 3 then 50 else 100

/-- SD_THERM_EVAL (R401, R402). -/
def execSdThermEval (die temp : Nat) (s : State) : Res :=
  if 8 ≤ die then .next s
  else
    let m := memCtl s die
    let since := [1, 2, 3].map fun l =>
      if temp ≤ thermLeave l then (match m.leaveSince.getD (l - 1) none with | some t => some t | none => some s.now)
      else none
    let l := thermDown s.now since (max m.level (thermReached temp))
    let s1 := setMemCtl die { m with level := l, leaveSince := since } s
    let s2 := wr (pSdramc die) 0x104 (BitVec.ofNat 32 (thermCap l))
      (wr (pSdramc die) 0x100 (BitVec.ofNat 32 (l + 0x100 * (temp % 256))) s1)
    .next (if l = m.level then s2 else event (pSdramc die) 2 s2)

/-- REFRESH (R401, R403): the controller refreshes; PROG_K0 counts refreshes (R426, R429). -/
def execRefresh (die : Nat) (far : Bool) (s : State) : Res :=
  if 8 ≤ die then .next s
  else .next (addProg (if far then pLpddrc die else pSdramc die) 4 1 s)

/-- The physical address of the `n`-th codeword of a die's near or far tier, counted through the packages present. -/
def codewordAddr (die : Nat) (far : Bool) (n : Nat) : Nat :=
  if far then 0x10000000000 + die * 0x1000000000 + n * 64 else die * 0x800000000 + n * 64

/-- The codewords of a tier. -/
def tierCodewords (s : State) (die : Nat) (far : Bool) : Nat :=
  if far then (if (memCtl s die).present.getD 1 false then 0x40000000 else 0x20000000) else 0x20000000

/-- SCRUB (R399, R409): one codeword read and written back if corrected; SCRUB_POS follows the near tier's pass. -/
def execScrub (die : Nat) (far corrected ue : Bool) (s : State) : Res :=
  if 8 ≤ die ∨ s.inHold ∨ !bitOf (rd s (pSdramc die) 0x120) 8 then .next s
  else
    let m := memCtl s die
    let n := if far then m.scrubFar else m.scrubNear
    let n' := (n + 1) % tierCodewords s die far
    let sector := codewordAddr die far n / 256
    let s1 := setMemCtl die (if far then { m with scrubFar := n' } else { m with scrubNear := n' }) s
    let s2 := addProg (if far then pLpddrc die else pSdramc die) 6 1 s1
    let s3 := if memPoison s sector then s2 else if ue then controllerUe sector s2
      else countCorrected die far (b2n corrected) s2
    if far then .next s3
    else
      let pos := rd s3 (pSdramc die) 0x124
      let passes := if n' = 0 then min (fld pos 31 15 + 1) 131071 else fld pos 31 15
      .next (wr (pSdramc die) 0x124 (BitVec.ofNat 32 (n' / 16384 + 0x8000 * passes)) s3)

/-- WCK_RETRAIN (R403): a subchannel of a trained package pauses for 1 µs. -/
def execWckRetrain (die pkg sub : Nat) (s : State) : Res :=
  let m := memCtl s die
  if 8 ≤ die ∨ 2 ≤ pkg ∨ 4 ≤ sub ∨ m.selfRefresh ∨ !(m.trained.getD pkg false) then .next s
  else .next (setMemCtl die { m with pausedTo := sput (fun _ => 0) m.pausedTo (pkg * 4 + sub) (s.now + 1000) } s)

/-- MEM_HOT (R408, R430): EVT_STAT.HOT and the package's refresh-rate code. -/
def execMemHot (die pkg code : Nat) (s : State) : Res :=
  if 8 ≤ die ∨ 2 ≤ pkg ∨ !((memCtl s die).present.getD pkg false) then .next s
  else
    let p := pLpddrc die + 1 + pkg
    .next (event (pLpddrc die) 2 (wr p 0x100 (setFld (rd s p 0x100) 8 6 code) s))

/-! ### Repair -/

/-- The repair extension page of a die's SDRAMC. -/
def repairPage (die : Nat) : Nat := pSdramc die + 1

/-- A repair that finds no spare (R413, R432): RP_STAT.FAIL and the record. -/
def repairFail (die : Nat) (s : State) : State :=
  captureErr (pSdramc die) { cls := 0x20, detail := 0x04, srcDie := die, srcUnit := 44, srcLogical := 0x3F }
    (wr (repairPage die) 0x104 (rd s (repairPage die) 0x104 ||| 2) s)

/-- Spare rows in use of a bank. -/
def rowsUsedOf (m : MemCtl) (channel bank : Nat) : Nat := sget (fun _ => 0) m.rowsUsed (channel * 32 + bank)

/-- A location in the format of RP_CMD (R427). -/
def rpWhere (channel bank row : Nat) : Nat := channel % 64 + 64 * (bank % 32) + 2048 * (row % 8192)

/-- Codewords found uncorrectable by a repair's copy are written with the marker (R410). -/
def markCodewords (die : Nat) (ue : List Nat) (s : State) : State :=
  { s with nearMarks := (ue.filter fun c => decide (rangeOf (c * 64) = .near die)).foldl (fun l c => setAdd c l) s.nearMarks }

/-- RP_CMD with OP ROW (R410, R413, R710): the row copied, the wear entry written, the remap committed. -/
def repairRow (die channel bank row : Nat) (ue : List Nat) (s : State) : State :=
  let m := memCtl s die
  if 8 ≤ die ∨ 64 ≤ channel ∨ 32 ≤ bank ∨ 8192 ≤ row ∨ m.repair.isSome ∨ s.inHold ∨ wearFull s then s
  else if 160 ≤ rowsUsedOf m channel bank then repairFail die s
  else
    let s1 := wearWrite 6 die 44 (rowsUsedOf m channel bank % 64) 0x3F (rpWhere channel bank row) (markCodewords die ue s)
    let used := rowsUsedOf m channel bank + 1
    let s2 := setMemCtl die { memCtl s1 die with
      rowsUsed := sput (fun _ => 0) m.rowsUsed (channel * 32 + bank) used
      remaps := m.remaps ++ [{ channel := channel, bank := bank, row := row, isBank := false }] } s1
    let s3 := pounceDone false (event (pSdramc die) 3 (wr (repairPage die) 0x104 (rd s2 (repairPage die) 0x104 &&& 1) s2))
    if 160 - used < fld (rd s3 (repairPage die) 0x114) 7 0 then event (pSdramc die) 4 s3 else s3

def execRepairRow (die channel bank row : Nat) (ue : List Nat) (s : State) : Res :=
  .next (repairRow die channel bank row ue s)

/-- RP_CMD with OP BANK (R410, R413, R427): the copy starts, RP_STAT.BUSY. -/
def repairBank (die channel bank row : Nat) (s : State) : State :=
  let m := memCtl s die
  if 8 ≤ die ∨ 64 ≤ channel ∨ 32 ≤ bank ∨ m.repair.isSome ∨ s.inHold ∨ wearFull s then s
  else if m.bankUsed.contains channel then repairFail die s
  else wr (repairPage die) 0x104 1 (setMemCtl die { m with
    repair := some { channel := channel, bank := bank, row := row, isBank := true } } s)

def execRepairBank (die channel bank row : Nat) (s : State) : Res := .next (repairBank die channel bank row s)

/-- BANK_REPAIR_COMMIT (R410, R710): the wear entry is written and the remap committed; the bank's rows are new. -/
def execBankRepairCommit (die : Nat) (ue : List Nat) (s : State) : Res :=
  let m := memCtl s die
  match m.repair with
  | some r =>
    if 8 ≤ die ∨ s.inHold then .next s
    else
      let s1 := wearWrite 7 die 44 32 0x3F (rpWhere r.channel r.bank r.row) (markCodewords die ue s)
      let s2 := setMemCtl die { memCtl s1 die with repair := none, bankUsed := setAdd r.channel m.bankUsed,
                                                   remaps := m.remaps ++ [r] } s1
      .next (pounceDone false (event (pSdramc die) 3 (wr (repairPage die) 0x104 0 s2)))
  | none => .next s

/-- CH_PPR_CMD without HARD (R411, R430): sPPR done, or FAIL where the package has no spare row. -/
def sppr (die pkg : Nat) (cmd : Word) (ok : Bool) (s : State) : State :=
  if 8 ≤ die ∨ 2 ≤ pkg ∨ !((memCtl s die).present.getD pkg false) ∨ s.inHold ∨ wearFull s then s
  else
    let p := pLpddrc die + 1 + pkg
    if ok then
      let s1 := wearWrite 8 die 45 0 0x3F (cmd.toNat % 0x1000000) s
      pounceDone false (event (pLpddrc die) 5 (wr p 0x114 (BitVec.ofNat 32 (4 * min (fld (rd s1 p 0x114) 9 2 + 1) 255)) s1))
    else
      captureErr (pLpddrc die) { cls := 0x20, detail := 0x04, srcDie := die, srcUnit := 45, srcLogical := 0x3F }
        (wr p 0x114 (rd s p 0x114 ||| 2) s)

def execSppr (die pkg : Nat) (cmd : Word) (ok : Bool) (s : State) : Res := .next (sppr die pkg cmd ok s)

/-- CH_PPR_CMD with HARD (R430): the row is recorded for hPPR at the next boot. -/
def hpprRecord (die pkg : Nat) (cmd : Word) (s : State) : State :=
  let m := memCtl s die
  if 8 ≤ die ∨ 2 ≤ pkg ∨ !(m.present.getD pkg false) then s
  else setMemCtl die { m with hppr := setAdd (pkg * 0x1000000 + cmd.toNat % 0x1000000) m.hppr } s

def execHpprRecord (die pkg : Nat) (cmd : Word) (s : State) : Res := .next (hpprRecord die pkg cmd s)

/-! ### Access counters -/

/-- Records the notify ring holds (R421, R428). -/
def notifyEntries (s : State) (die : Nat) : Nat :=
  let l := fld (rd s (acPage die) 0x118) 4 0
  2 ^ (if 6 ≤ l ∧ l ≤ 16 then l else 6)

/-- NOTIFY_PROD − NOTIFY_CONS modulo 2^17 (R421). -/
def notifyUsed (s : State) (die : Nat) : Nat :=
  (fld (rd s (acPage die) 0x11C) 16 0 + 0x20000 - fld (rd s (acPage die) 0x120) 16 0) % 0x20000

/-- The thresholds of a source: HOT, COLD, COLD_EPOCHS (R428, R431). -/
def acThresholds (s : State) (die src : Nat) : Nat × Nat × Nat :=
  let w := if src = 0 then rd s (acPage die) 0x104 else if src = 1 then rd s (pLpddrc die + 3) 0x100
    else rd s (acPage die) 0x108
  (fld w 15 0, fld w 23 16, max (fld w 31 24) 1)

/-- The new flag and streak of cold epochs of a region (R418). -/
def evalRegion (hot cold epochs : Nat) (r : Region) : Region :=
  let streak := if r.flag = 0 ∧ r.count ≤ cold then r.cold + 1 else 0
  if r.flag = 1 then { count := 0, flag := if 2 * r.count < hot then 0 else 1, cold := 0 }
  else if hot ≤ r.count then { count := 0, flag := 1, cold := 0 }
  else if r.flag = 2 then { count := 0, flag := if cold < r.count then 0 else 2, cold := 0 }
  else if epochs ≤ streak then { count := 0, flag := 2, cold := 0 }
  else { count := 0, flag := 0, cold := streak }

/-- One 16 B notify record (R420). -/
def notifyRecord (region src flag die count epoch : Nat) : List Byte :=
  leBytes 8 (region % 0x8000000 + 0x8000000 * src + 0x20000000 * flag + 0x80000000 * die) ++ leBytes 4 count ++ leBytes 4 epoch

/-- Evaluate one region (R418, R419): its record written, or, with the ring full, its flag kept and the drop counted. -/
def evalOne (die src key pa epoch : Nat) (s : State) : State :=
  let m := memCtl s die
  let r := sget (fun _ => ({} : Region)) m.regions key
  let t := acThresholds s die src
  let r' := evalRegion t.1 t.2.1 t.2.2 r
  let put (x : Region) (u : State) : State :=
    setMemCtl die { memCtl u die with regions := sput (fun _ => ({} : Region)) m.regions key x } u
  if r'.flag = r.flag then put r' s
  else if notifyUsed s die = notifyEntries s die then
    event (pSdramc die) 7 (satInc (acPage die) 0x124 1 (put { count := 0, flag := r.flag, cold := if r'.flag = 2 then r.cold + 1 else 0 } s))
  else
    let prod := fld (rd s (acPage die) 0x11C) 16 0
    let a := rd64 s (acPage die) 0x110 + 16 * (prod % notifyEntries s die)
    let s1 := cohWrite true none a (notifyRecord (pa / 0x200000) src r'.flag die r.count epoch) (put r' s)
    event (pSdramc die) 6 (wr (acPage die) 0x11C (BitVec.ofNat 32 ((prod + 1) % 0x20000)) s1)

/-- The regions of a die in the order of R419: source, region key, physical address. -/
def allRegions (s : State) (die : Nat) : List (Nat × Nat × Nat) :=
  ((List.range 16384).map fun k => (0, k, die * 0x800000000 + k * 0x200000)) ++
  ((List.range (if (memCtl s die).present.getD 1 false then 32768 else 16384)).map fun k =>
    (1, 0x100000 + k, 0x10000000000 + die * 0x1000000000 + k * 0x200000)) ++
  ((hostWindows s die).flatMap fun w => (List.range w.2.2).map fun k => (2, 0x200000 + w.2.1 + k, w.1 + k * 0x200000))

/-- EPOCH_END (R418 to R421): every region of a counting die is evaluated; AC_EPOCH_NO advances. -/
def execEpochEnd (die : Nat) (s : State) : Res :=
  if 8 ≤ die ∨ s.inHold ∨ !bitOf (rd s (acPage die) 0x100) 0 then .next s
  else
    let no := (rd s (acPage die) 0x10C).toNat
    let s1 := (allRegions s die).foldl (fun t r => evalOne die r.1 r.2.1 r.2.2 no t) s
    .next (wr (acPage die) 0x10C (BitVec.ofNat 32 (no + 1)) s1)

/-- A write of NOTIFY_BASE or NOTIFY_SIZE (R421, R428). -/
def notifyConfigWrite (die off : Nat) (data : DWord) (wide : Bool) (s : State) : State :=
  if 8 ≤ die ∨ ¬(off = 0x110 ∨ off = 0x114 ∨ off = 0x118) then s
  else if notifyUsed s die = 0 then stReg 0 (acPage die) off data (wide && off == 0x110) s
  else event (pSdramc die) 5 s

def execNotifyConfigWrite (die off : Nat) (data : DWord) (wide : Bool) (s : State) : Res :=
  .next (notifyConfigWrite die off data wide s)

/-- A write of AC_CFG, HWIN_BASE or HWIN_SIZE (R428): EPOCH_US and the windows are fixed while EN = 1; EN
itself is written. -/
def accessCounterConfigWrite (die off : Nat) (data : DWord) (wide : Bool) (s : State) : State :=
  let cfg := rd s (acPage die) 0x100
  let w := BitVec.ofNat 32 data.toNat
  let win := fld (rd s (acPage die) 0x128) 3 0
  if 8 ≤ die ∨ ¬(off = 0x100 ∨ off = 0x130 ∨ off = 0x134 ∨ off = 0x138) then s
  else if off = 0x100 then
    if bitOf cfg 0 then
      let s1 := wr (acPage die) 0x100 (setFld cfg 0 0 (fld w 0 0)) s
      if fld w 20 1 = fld cfg 20 1 then s1 else event (pSdramc die) 5 s1
    else
      let s1 := stReg 0 (acPage die) off data false s
      if bitOf w 0 then wr (acPage die) 0x10C 0 s1 else s1
  else if bitOf cfg 0 then event (pSdramc die) 5 s
  else stReg win (acPage die) off data (wide && off == 0x130) s

def execAccessCounterConfigWrite (die off : Nat) (data : DWord) (wide : Bool) (s : State) : Res :=
  .next (accessCounterConfigWrite die off data wide s)

end Sys2Proof.Machine
end

