-- ==== Sys2Proof/Machine/Xlate.lean ====
section
/-! DEFINITION. Address translation (10_translation.md): page-table entries, walks, the holders' entries, permission
checks, dirty logging, and invalidations. -/

namespace Sys2Proof.Machine

/-- How a translation ends (R445): the physical address with the leaf, a wait on MIGRATING, or a fault with its class
and detail (R478). -/
inductive XRes where
  | ok (pa : Nat) (leaf : DWord)
  | migrating
  | fault (cls detail : Nat)
deriving DecidableEq, Repr

/-- FAULT_XLATE, FAULT_WALK and FAULT_WALK_TARGET with CAUSE × 8 + LEVEL (R478). -/
def xfault (cause level : Nat) : Nat × Nat :=
  ((if cause ≤ 7 then 0x10 else if cause ≤ 12 then 0x11 else 0x12), cause * 8 + level)

/-- The PASID number the model gives Holog's own context: no 20-bit PASID, bound outside the binding table (R634). -/
def hologPasid : Nat := 0x100000

/-! ### Entries (R436) -/

def pteValid (e : Nat) : Bool := nbit e 0
def pteLeaf (e : Nat) : Bool := nbit e 1
def pteWrite (e : Nat) : Bool := nbit e 2
def pteExec (e : Nat) : Bool := nbit e 3
def pteMtype (e : Nat) : Nat := nfld e 5 4
def pteInterleaved (e : Nat) : Bool := nbit e 6
def pteMigrating (e : Nat) : Bool := nbit e 7
def pteAddr (e : Nat) : Nat := nfld e 47 8 * 0x100
def pteRun (e : Nat) : Bool := nbit e 50

/-- The index of a virtual address at a level (R435). -/
def walkIndex (level va : Nat) : Nat :=
  if level = 0 then nfld va 48 39 else if level = 1 then nfld va 38 30 else if level = 2 then nfld va 29 21 else nfld va 20 16

/-- The leaf page size of a level (R435); of L0 the span of an entry. -/
def levelSize (level : Nat) : Nat :=
  if level = 0 then 0x8000000000 else if level = 1 then 0x40000000 else if level = 2 then 0x200000 else 0x10000

/-- The bytes a size code covers (R472). -/
def sizeBytes (code : Nat) : Nat :=
  if code = 0 then 0x10000 else if code = 1 then 0x100000 else if code = 2 then 0x200000 else if code = 3 then 0x2000000
  else if code = 4 then 0x40000000 else 0x400000000

/-- The size code of a leaf of a level. -/
def sizeCode (level : Nat) (run : Bool) : Nat := 2 * (3 - level) + b2n run

/-- The level of the leaves of a size code. -/
def sizeLevel (code : Nat) : Nat := 3 - code / 2

/-- Whether a memory type is allowed for a frame of a range (R393). -/
def mtypeAllowed (s : State) (pa mtype : Nat) : Bool :=
  backed s pa && (match rangeOf pa with
    | .near _ | .far _ _ => mtype != 2
    | .bar0 | .chiplet _ => mtype == 3
    | .host => true
    | .unbacked => false)

/-- A permitted table target (R446). -/
def tableTarget (s : State) (pasid pa : Nat) : Bool :=
  (inTier pa || inHost pa) && backed s pa && (!inReserved pa || pasid == hologPasid)

/-- Whether a frame reaches into a die's reserved region (R397). -/
def frameReserved (pa size : Nat) : Bool := inReserved pa || inReserved (pa + size - 1)

/-- What a walker does with one entry (R445 steps 4 to 6). -/
inductive WalkStep where
  | fault (cls detail : Nat)
  | next (table : Nat)
  | leaf (size base : Nat) (entry : DWord)
  | migrating
deriving DecidableEq, Repr

/-- A leaf of a level (R445 step 6). -/
def walkLeaf (s : State) (pasid va level e : Nat) : WalkStep :=
  let size := levelSize level
  let addr := pteAddr e
  let i := walkIndex level va % 16
  let span := if pteRun e then 16 * size else size
  let frame := if pteRun e then addr - i * size else addr
  let f (c : Nat) : WalkStep := .fault (xfault c level).1 (xfault c level).2
  if addr % size ≠ 0 then f 11
  else if pteRun e ∧ addr / size % 16 ≠ i then f 12
  else if !mtypeAllowed s addr (pteMtype e) then f 6
  else if frameReserved addr size ∧ pasid ≠ hologPasid then f 7
  else if pteMigrating e then .migrating
  else .leaf (sizeCode level (pteRun e)) (va / span * span) (BitVec.ofNat 64 (e - addr + frame))

/-- One entry of a walk (R445 steps 4 to 6); `ue` for a read that returned poison or no data. -/
def walkEntry (s : State) (pasid va level table : Nat) (ue : Bool) : WalkStep :=
  let ea := table + 8 * walkIndex level va
  let e := leNat (cohBytes s true ea 8)
  let f (c l : Nat) : WalkStep := .fault (xfault c l).1 (xfault c l).2
  if ue || cohPoison s true ea then f 8 level
  else if !pteValid e then f 1 level
  else if nfld e 63 51 ≠ 0 ∨ (!pteLeaf e ∧ (nfld e 7 2 ≠ 0 ∨ nfld e 50 48 ≠ 0)) then f 9 level
  else if (pteLeaf e ∧ level = 0) ∨ (!pteLeaf e ∧ level = 3) then f 10 level
  else if pteLeaf e then walkLeaf s pasid va level e
  else if level < 2 ∧ pteAddr e % 0x1000 ≠ 0 then f 11 level
  else if !tableTarget s pasid (pteAddr e) then f 13 (level + 1)
  else .next (pteAddr e)

/-! ### Holders -/

/-- The unit that acknowledges a commit for a holder (R861): the tile for a tile's TLB. -/
def holderUnit (hp : Nat) : Nat := if pageKind hp = some .tlb then hp / 16 * 16 else hp

/-- Entries a holder keeps (R449). -/
def holderCapacity (hp : Nat) : Nat :=
  match pageKind hp with
  | some .tlb => 1024
  | some .copyEngine => 128
  | some .collective => 256
  | _ => 512

/-- The holders of the device (R449, R456): tile TLBs, copy engines, collective engines, walk caches, the dispatcher. -/
def allHolders : List Nat :=
  ((List.range 8).flatMap fun d =>
    ((List.range 15).map fun u => pTlb d u) ++ ((List.range 8).map fun n => pCopyEngine d n) ++ [pCollective d, pWalkers d])
  ++ [pDispatch]

/-- The entries of a holder, newest first. -/
def tlbOf (s : State) (hp : Nat) : List TlbEntry := sget (fun _ => []) s.xlate.tlb hp

def setTlb (hp : Nat) (l : List TlbEntry) (s : State) : State :=
  { s with xlate := { s.xlate with tlb := sput (fun _ => []) s.xlate.tlb hp l } }

/-- The entry of a PASID that covers an address (R445 step 2). -/
def tlbHit (s : State) (hp pasid va : Nat) : Option TlbEntry :=
  (tlbOf s hp).find? fun e => e.pasid == pasid && decide (e.va ≤ va) && decide (va < e.va + sizeBytes e.size)

/-- Install an entry (R445 step 6); the holder keeps its newest entries up to its capacity. -/
def tlbInstall (hp pasid size base : Nat) (leaf : DWord) (s : State) : State :=
  let e : TlbEntry := { pasid := pasid, va := base, size := size, leaf := leaf }
  let s1 := setTlb hp ((e :: (tlbOf s hp).filter fun x => !(x.pasid == pasid && x.va == base && x.size == size)).take
    (holderCapacity hp)) s
  if pageKind hp = some .tlb ∧ size % 2 = 1 then addProg hp 5 1 s1 else s1

/-- Permission and physical address of an access through an entry (R445 step 7). -/
def tlbAccess (e : TlbEntry) (va : Nat) (k : AccKind) : XRes :=
  let l := e.leaf.toNat
  if k = .write ∧ !pteWrite l then .fault (xfault 2 (sizeLevel e.size)).1 (xfault 2 (sizeLevel e.size)).2
  else if k = .exec ∧ !pteExec l then .fault (xfault 3 (sizeLevel e.size)).1 (xfault 3 (sizeLevel e.size)).2
  else .ok (pteAddr l + (va - e.va)) e.leaf

/-- The root of a PASID as a unit acts on the bindings (R434, R634). -/
def rootOf (s : State) (u pasid : Nat) : Option Nat :=
  match (bindingsAt s u).find? fun b => b.pasid == pasid with
  | some b => b.root
  | none => none

/-- The die whose walkers serve a die's misses (R452). -/
def walkDie (s : State) (d : Nat) : Option Nat :=
  ((List.range 8).map fun i => (d + i) % 8).find? fun k => decide ((unitSt s (pWalkers k)).state = .active)

/-- The die a holder's misses belong to: the dispatcher's are CD0's (R451). -/
def holderDie (hp : Nat) : Nat := if pageDie hp < 8 then pageDie hp else 0

/-- The walk cache of a die. -/
def wcacheOf (s : State) (d : Nat) : List WalkCacheEntry := sget (fun _ => []) s.xlate.wcache d

/-- Keep a non-leaf entry in a die's walk cache (R453), up to 256. -/
def wcacheAdd (d pasid level va table : Nat) (s : State) : State :=
  let e : WalkCacheEntry := { pasid := pasid, level := level, va := va / levelSize level * levelSize level, table := table }
  let l := (e :: (wcacheOf s d).filter fun x => decide (x ≠ e)).take 256
  { s with xlate := { s.xlate with wcache := sput (fun _ => []) s.xlate.wcache d l } }

/-- Whether a range of a PASID lies in an invalidation (R454). -/
def invOverlaps (v : Inval) (pasid va len : Nat) : Bool :=
  (v.pasid == none || v.pasid == some pasid) && decide (v.va < va + len)
    && (v.len == 0 || decide (va < v.va + v.len * 0x10000))

/-- The invalidations of a die's WALKERS page, front first. -/
def invalsOf (s : State) (d : Nat) : List Inval := sget (fun _ => []) s.xlate.invals d

/-- Whether an invalidation that a die's walk cache has still to acknowledge covers a cached entry: a walk made for a
holder that has acknowledged reads entries anew (R457). -/
def wcacheDoomed (s : State) (d : Nat) (e : WalkCacheEntry) : Bool :=
  (List.range 8).any fun k => (invalsOf s k).any fun v =>
    v.waiting.contains (pWalkers d) && invOverlaps v e.pasid e.va (levelSize e.level)

/-- Where a walk of an address starts: the level below the deepest cached entry, else L0 at the root (R453). -/
def walkStart (s : State) (d pasid va root : Nat) : Nat × Nat :=
  let hit (l : Nat) := (wcacheOf s d).find? fun e => e.pasid == pasid && e.level == l
    && e.va == va / levelSize l * levelSize l && !wcacheDoomed s d e
  match hit 2 with
  | some e => (3, e.table)
  | none =>
    match hit 1 with
    | some e => (2, e.table)
    | none =>
      match hit 0 with
      | some e => (1, e.table)
      | none => (0, root)

/-- The context of the work a tile's TLB serves (R671): that of the tile's task. -/
def holderCtx (s : State) (hp : Nat) : ErrRec :=
  if pageKind hp = some .tlb then
    match (tileSt s (pageDie hp) (pageUnit hp)).task with
    | some k => { ctxValid := true, slice := k.slice, ring := k.ring, seq := k.seq,
                  srcLogical := logicalTile s (pageDie hp) (pageUnit hp) }
    | none => { srcLogical := logicalTile s (pageDie hp) (pageUnit hp) }
  else { srcLogical := 0x3F }

/-- Record a translation fault at the holder and, for walk faults, at the walkers that found it (R473, R476, R478), with
the context `c` of the access (R671). -/
def recordXFaultC (c : ErrRec) (hp d cls detail pasid va : Nat) (s : State) : State :=
  let e : ErrRec := { c with
    cls := cls, detail := detail, gen := (unitSt s hp).gen.toNat, addr := va, addrValid := true, pasid := pasid
    srcDie := pageDie hp, srcUnit := pageUnit hp }
  let s1 := captureErr hp e s
  let s2 := if pageKind hp = some .tlb then event hp 0 s1 else s1
  if cls = 0x10 then s2
  else captureErr (pWalkers d) { e with gen := (unitSt s (pWalkers d)).gen.toNat } (event (pWalkers d) 0 s2)

/-- Record a translation fault with the context of the holder's own work. -/
def recordXFault (hp d cls detail pasid va : Nat) (s : State) : State :=
  recordXFaultC (holderCtx s hp) hp d cls detail pasid va s

/-- Count one walk that ended at the walkers and the holder (R473, R476). -/
def countWalk (hp d : Nat) (s : State) : State :=
  let s1 := addProg (pWalkers d) 0 1 s
  let s2 := if d = holderDie hp then s1 else addProg (pWalkers d) 6 1 s1
  if pageKind hp = some .tlb then addProg hp 0 1 s2 else s2

/-- Count one entry read. -/
def countEntryRead (d : Nat) (s : State) : State := addProg (pWalkers d) 2 1 (addProg (pWalkers d) 1 8 s)

/-- A whole walk made within one step by an engine (assumption log 12), from a level, at most `fuel` levels. -/
def walkNow (hp d pasid va : Nat) : Nat → Nat → Nat → State → WalkStep × State
  | 0, _, _, s => (.migrating, s)
  | fuel + 1, level, table, s =>
    let s1 := countEntryRead d s
    match walkEntry s pasid va level table false with
    | .next t => walkNow hp d pasid va fuel (level + 1) t (wcacheAdd d pasid level va t s1)
    | r => (r, countWalk hp d s1)

/-- Count at a tile's TLB (R473). -/
def countTlb (hp i n : Nat) (s : State) : State := if pageKind hp = some .tlb then addProg hp i n s else s

/-- Translate an access of an engine within one step (R445, assumption log 12); `c` is the context of the access. -/
def translateCtx (cx : ErrRec) (hp pasid va : Nat) (k : AccKind) (s0 : State) : XRes × State :=
  let s := countTlb hp 2 1 s0
  let d := (walkDie s (holderDie hp)).getD (holderDie hp)
  let bad (c l : Nat) : XRes × State :=
    (.fault (xfault c l).1 (xfault c l).2, recordXFaultC cx hp d (xfault c l).1 (xfault c l).2 pasid va s)
  if 0x2000000000000 ≤ va then bad 4 7
  else
    let fin (e : TlbEntry) (s : State) : XRes × State :=
      match tlbAccess e va k with
      | .fault c dt => (.fault c dt, recordXFaultC cx hp d c dt pasid va s)
      | r => (r, s)
    match tlbHit s hp pasid va with
    | some e => fin e s
    | none =>
      match rootOf s (holderUnit hp) pasid with
      | none => bad 5 4
      | some root =>
        if !tableTarget s pasid root then bad 13 4
        else
          let st := walkStart s d pasid va root
          let s1 := countTlb hp 4 1 (if st.1 = 0 then s else addProg (pWalkers d) 4 1 s)
          match walkNow hp d pasid va 4 st.1 st.2 s1 with
          | (.leaf size base leaf, s1) => fin { pasid := pasid, va := base, size := size, leaf := leaf } (tlbInstall hp pasid size base leaf s1)
          | (.fault c dt, s1) => (.fault c dt, recordXFaultC cx hp d c dt pasid va s1)
          | (_, s1) => (.migrating, s1)

/-- Translate an access made for the holder's own work. -/
def translateNow (hp pasid va : Nat) (k : AccKind) (s : State) : XRes × State :=
  translateCtx (holderCtx s hp) hp pasid va k s

/-- Record a stream that waits on MIGRATING (R462, R473). -/
def holdStream (hp stream pasid va : Nat) (s : State) : State :=
  let h : HeldStream := { holder := hp, stream := stream, pasid := pasid, va := va }
  if s.xlate.heldStreams.contains h then s
  else
    let s1 : State := { s with xlate := { s.xlate with heldStreams := s.xlate.heldStreams ++ [h] } }
    if pageKind hp = some .tlb then event hp 1 s1 else s1

/-- Whether a stream is held. -/
def streamHeld (s : State) (hp stream : Nat) : Bool :=
  s.xlate.heldStreams.any fun h => h.holder == hp && h.stream == stream

/-- Forget a stream's waits. -/
def dropHeld (hp stream : Nat) (s : State) : State :=
  { s with xlate := { s.xlate with heldStreams := s.xlate.heldStreams.filter fun h => !(h.holder == hp && h.stream == stream) } }

/-! ### Dirty logging -/

/-- The dirty-log extension page of a die. -/
def dlPage (d : Nat) : Nat := pWalkers d + 1

/-- The bit of a frame in its die's bitmap (R466). -/
def dirtyBit (pa : Nat) : Nat :=
  match rangeOf pa with
  | .near d => (pa - d * 0x800000000) / 0x10000
  | .far _ c => 524288 * (1 + c) + pa % 0x800000000 / 0x10000
  | _ => 0

/-- Log a write of a slice to a physical address (R465 to R467). -/
def logDirty (slice pa : Nat) (s : State) : State :=
  let d := ownerDie pa
  if inTier pa && bitOf (rdB s slice (dlPage d) 0x110) 0 then
    let a := rd64B s slice (dlPage d) 0x108 + dirtyBit pa / 8
    let b := cohByte s true a ||| BitVec.ofNat 8 (2 ^ (dirtyBit pa % 8))
    addProg (pWalkers d) 7 1 (cohWrite true (some slice) a [b] s)
  else s

/-- A write of DL_BASE or DL_CFG (R477) for the slice of DL_SEL. -/
def dlConfigWrite (die off : Nat) (data : DWord) (wide : Bool) (s : State) : State :=
  let sl := fld (rd s (dlPage die) 0x100) 5 0
  if 8 ≤ die ∨ ¬(off = 0x108 ∨ off = 0x10C ∨ off = 0x110) then s
  else if off ≠ 0x110 ∧ bitOf (rdB s sl (dlPage die) 0x110) 0 then event (pWalkers die) 4 s
  else stReg sl (dlPage die) off data (wide && off == 0x108) s

def execDlConfigWrite (die off : Nat) (data : DWord) (wide : Bool) (s : State) : Res :=
  .next (dlConfigWrite die off data wide s)

/-! ### Invalidations -/

/-- Whether an invalidation drops an entry (R454). -/
def invDrops (v : Inval) (e : TlbEntry) : Bool :=
  invOverlaps v e.pasid e.va (sizeBytes e.size) && nbit v.sizes (e.size / 2)

def setInvals (d : Nat) (l : List Inval) (s : State) : State :=
  { s with xlate := { s.xlate with invals := sput (fun _ => []) s.xlate.invals d l } }

/-- Whether a PASID is bound to a slice of a function (R460). -/
def pasidOfFn (s : State) (u fn pasid : Nat) : Bool :=
  (bindingsAt s u).any fun b => b.pasid == pasid && sliceEnabled s u b.slice && sliceFunc s u b.slice == fn

/-- A write of INV_GO by a function (R459, R460, R475). -/
def invGo (die fn tag : Nat) (s : State) : State :=
  let p := pWalkers die
  let w := rdB s fn p 0x110
  let refuse (n : Nat) := satInc p 0x134 1 (event p n s)
  if 8 ≤ die then s
  else if bitOf w 20 ∧ fn ≠ 0 then refuse 3
  else if !bitOf w 20 ∧ !pasidOfFn s p fn (fld w 19 0) then refuse 3
  else if 16 ≤ (invalsOf s die).length then refuse 2
  else
    setInvals die (invalsOf s die ++ [{
      tag := tag % 65536, pasid := if bitOf w 20 then none else some (fld w 19 0),
      va := rd64B s fn p 0x118 % 0x2000000000000 / 0x10000 * 0x10000, len := rd64B s fn p 0x120 % 0x200000000,
      sizes := fld w 23 21, fn := fn, waiting := allHolders }]) s

def execInvGo (die fn tag : Nat) (s : State) : Res := .next (invGo die fn tag s)

end Sys2Proof.Machine
end

