-- ==== Sys2Proof/Machine/Tiles.lean ====
section
/-! DEFINITION. Tiles, thread groups, barriers and parks (03_tiles.md): the shared operations, and the meanings of the
commands that need no memory access of a group (rows TASK_START, SREG, VECTOR_FP_OP, SPECIAL_FUNCTION, BRANCH, BAR_TILE,
BAR_CLUSTER, CLUSTER_BARRIER_RELEASE, GROUP_RETIRE, PARK_REPLAY, PARK_DISCARD, PARK_RING_CONFIG_WRITE). -/

namespace Sys2Proof.Machine

/-! ### Tiles and groups -/

/-- A resident group. -/
def groupOf (t : TileSt) (slot : Nat) : Option Group := slook t.resident slot

def setGroup (d u slot : Nat) (g : Group) (s : State) : State :=
  let t := tileSt s d u
  setTile d u { t with resident := sadd t.resident slot g } s

/-- A register of a thread; 0 until written (R106). -/
def Group.reg (g : Group) (thread r : Nat) : Word := sget (fun _ => 0) g.regs (thread * 256 + r)

def Group.setReg (thread r : Nat) (v : Word) (g : Group) : Group :=
  { g with regs := sput (fun _ => 0) g.regs (thread * 256 + r) v }

/-- The active threads of a group (R108). -/
def Group.active (g : Group) : List Nat := (List.range 32).filter fun i => g.mask.toNat / 2 ^ i % 2 == 1

/-- The vector-core page of a slot (R105). -/
def vcPage (d u slot : Nat) : Nat := pVC d u (slot / 16)

/-- Progress of a ring (R689). -/
def addRingProg (ring i n : Nat) (s : State) : State :=
  if s.inHold then s
  else { s with ringProg := sput (fun _ => 0) s.ringProg (ring * 3 + i) ((sget (fun _ => 0) s.ringProg (ring * 3 + i) + n) % 2 ^ 64) }

/-- The scratchpad size an L1 split leaves (R103). -/
def scratchSize (l1 : Nat) : Nat :=
  if l1 = 0 then 0x800000 else if l1 = 1 then 0x700000 else if l1 = 2 then 0x600000 else 0x400000

/-! ### The tile store -/

/-- What an unlisted scratchpad byte reads as: 0, or, beyond the pinned region of a task that follows one of its own
context, a free value (R107). -/
def TileSt.scratchDefault (t : TileSt) (off : Nat) : Byte :=
  match t.scratchFree with
  | none => 0
  | some n => if off < t.zeroTo * 65536 then 0 else BitVec.ofNat 8 (Config.freeValue (n + off)).toNat

/-- One scratchpad byte. -/
def TileSt.byte (t : TileSt) (off : Nat) : Byte := sget t.scratchDefault t.scratch off

/-- `n` scratchpad bytes. -/
def TileSt.bytes (t : TileSt) (off n : Nat) : List Byte := (List.range n).map fun i => t.byte (off + i)

/-- Whether any 64 B word of a range is poisoned (R120). -/
def TileSt.poisoned (t : TileSt) (off n : Nat) : Bool :=
  t.scratchPoison.any fun w => decide (w * 64 < off + n) && decide (off < w * 64 + 64)

/-- Write cells to a scratchpad: a word written whole loses its poison, a partial write keeps it (R120). -/
def TileSt.write (cells : List Cell) (t : TileSt) : TileSt :=
  let t1 : TileSt := { t with scratch := cells.foldl (fun m c => sput t.scratchDefault m c.1 c.2) t.scratch }
  { t1 with scratchPoison := t.scratchPoison.filter fun w => !((List.range 64).all fun k => hasCell cells (w * 64 + k)) }

/-- Mark the words of a range poisoned. -/
def TileSt.poison (off n : Nat) (t : TileSt) : TileSt :=
  if n = 0 then t
  else { t with scratchPoison := ((List.range ((off + n - 1) / 64 - off / 64 + 1)).map fun i => off / 64 + i).foldl
                                   (fun l w => setAdd w l) t.scratchPoison }

/-- Bytes from an offset, as cells. -/
def cellsFrom (off : Nat) : List Byte → List Cell
  | [] => []
  | b :: t => (off, b) :: cellsFrom (off + 1) t

/-- Write bytes to a tile's scratchpad; TSTORE counts them (R154). -/
def scratchWrite (d u off : Nat) (bs : List Byte) (s : State) : State :=
  addProg (pTstore d u) 1 bs.length (setTile d u ((tileSt s d u).write (cellsFrom off bs)) s)

/-- A store of a core met a region that operations in flight read or write: their outputs are undefined (R140). -/
def taintOps (d u : Nat) (cells : List (Nat × Nat)) (s : State) : State :=
  let t := tileSt s d u
  if t.mx.queues = [] then s
  else
    setTile d u { t with mx := { t.mx with queues := t.mx.queues.map fun e => (e.1, e.2.map fun o =>
      if !o.bad && !o.poison && rangesMeet cells ((opReads o.desc ++ opWrites o.desc).flatMap Span.list)
      then { o with tainted := true } else o) } } s

/-- Carry one store-buffer entry of the scratchpad to its target tile (R125, R132). -/
def drainScratchEntry (d u : Nat) (e : SbEntry) (s : State) : State :=
  let s0 := taintOps d e.tile (e.bytes.map fun c => (c.1, 1)) s
  let s1 := addProg (pTstore d e.tile) 1 e.bytes.length (setTile d e.tile ((tileSt s0 d e.tile).write e.bytes) s0)
  if e.tile = u then s1
  else addProg (pTstore d e.tile) 5 1 (add64 (pCluster d (u / 5)) 0x108 e.bytes.length s1)

/-- The store buffer of a core. -/
def sbOf (t : TileSt) (core : Nat) : List SbEntry := sget (fun _ => []) t.sb core

def setSb (d u core : Nat) (l : List SbEntry) (s : State) : State :=
  let t := tileSt s d u
  setTile d u { t with sb := sput (fun _ => []) t.sb core l } s

/-- Drain every scratchpad entry of a core, oldest first (R125, R128, R133, R139). -/
def drainScratch (d u core : Nat) (s : State) : State :=
  let l := sbOf (tileSt s d u) core
  (l.filter fun e => e.scratch).foldl (fun t e => drainScratchEntry d u e t) (setSb d u core (l.filter fun e => !e.scratch) s)

/-- Drain the scratchpad entries of every core of a tile. -/
def drainScratchTile (d u : Nat) (s : State) : State := [0, 1, 2, 3].foldl (fun t c => drainScratch d u c t) s

/-- Whether a slot has memory stores buffered, or writes issued and not yet accepted (R369). -/
def slotPending (t : TileSt) (slot : Nat) : Bool :=
  ((sbOf t (slot / 16)).any fun e => !e.scratch && e.slots.contains slot)
    || (match groupOf t slot with | some g => decide (g.unaccepted ≠ 0) | none => false)

/-- Whether a slot has any store buffered. -/
def slotBuffered (t : TileSt) (slot : Nat) : Bool :=
  slotPending t slot || (sbOf t (slot / 16)).any fun e => e.slots.contains slot

/-- Invalidate a tile's L1 (R107, R118, R133, R370, R379). -/
def l1Clear (d u : Nat) (s : State) : State := setTile d u { tileSt s d u with l1 := [] } s

/-! ### Parking -/

/-- Entries the park ring of a die holds (R157, R158). -/
def parkEntries (s : State) (d : Nat) : Nat :=
  let l := fld (rd s (pCluster d 0) 0x208) 4 0
  2 ^ (if 6 ≤ l ∧ l ≤ 16 then l else 6)

/-- Entries written and not consumed (R158). -/
def parkUsed (s : State) (d : Nat) : Nat :=
  (fld (rd s (pCluster d 0) 0x20C) 16 0 + 0x20000 - fld (rd s (pCluster d 0) 0x210) 16 0) % 0x20000

/-- The 32 B park entry (R143). -/
def parkEntry (slot tag u lt gen : Nat) (t : Task) (i : ParkInfo) : List Byte :=
  leBytes 4 (i.cause + 0x100 * slot + 0x10000 * tag + 0x1000000 * u) ++
  leBytes 4 (t.pasid % 0x100000 + 0x100000 * t.slice + 0x4000000 * lt) ++
  leBytes 4 (t.ring + 0x2000 * gen) ++ leBytes 4 t.seq ++
  leBytes 8 (i.addr % 0x2000000000000 + 0x4000000000000000 * b2n i.phys + 0x8000000000000000 * b2n i.addrValid) ++
  leBytes 8 i.pc

/-- A group parks (R142 to R144): its tag rises, the entry waits to be written, the core's events and counters follow,
and for a final cause the core records the error. -/
def park (d u slot : Nat) (i : ParkInfo) (s : State) : State :=
  let t := tileSt s d u
  match t.task, groupOf t slot with
  | some k, some g =>
    let tag := sget (fun _ => (0 : BitVec 8)) t.tags slot + 1
    let e := parkEntry slot tag.toNat u (logicalTile s d u) (unitSt s (pTile d u)).gen.toNat k i
    let s1 := setTile d u { t with
      resident := sadd t.resident slot { g with parked := some i, pendingFail := none, wait := .ready }
      tags := sput (fun _ => (0 : BitVec 8)) t.tags slot tag
      parkHeld := t.parkHeld ++ [e] } s
    let s2 := addProg (vcPage d u slot) 6 1 (event (vcPage d u slot) 0 s1)
    if i.cause = 0x0F then s2
    else
      let e : ErrRec := {
        cls := i.cls, detail := i.detail, gen := (unitSt s (pTile d u)).gen.toNat,
        addr := i.addr, phys := i.phys, addrValid := i.addrValid, ctxValid := true, pasid := k.pasid, slice := k.slice,
        ring := k.ring, seq := k.seq, srcDie := d, srcUnit := u, srcLogical := logicalTile s d u }
      captureErr (vcPage d u slot) e s2
  | _, _ => s

/-- Park with cause ILLEGAL at the group's instruction. -/
def parkIllegal (d u slot pc detail : Nat) (s : State) : State :=
  park d u slot { cause := 0x13, pc := pc, cls := 0x13, detail := detail } s

/-- Park on a translation fault (R142, R478). -/
def parkXlate (d u slot pc va cls detail : Nat) (s : State) : State :=
  park d u slot { cause := cls, addr := va, addrValid := true, pc := pc, cls := cls, detail := detail } s

/-! ### Barriers -/

/-- The barrier instance of a task's set: the set's own (R130), or for a lone task one of its tile's (numbers 2 to 6). -/
def barInst (k : Task) (u : Nat) : Nat := if k.cw = 1 then 2 + u % 5 else k.bar

/-- A cluster's barrier instance. -/
def clusterBar (s : State) (d c inst : Nat) : ClusterBar := sget (fun _ => ({} : ClusterBar)) s.tiles.bars ((d * 3 + c) * 8 + inst)

def setClusterBar (d c inst : Nat) (b : ClusterBar) (s : State) : State :=
  { s with tiles := { s.tiles with bars := sput (fun _ => ({} : ClusterBar)) s.tiles.bars ((d * 3 + c) * 8 + inst) b } }

/-- Release BAR.TILE when every group still resident has arrived (R128): the arriving groups' scratchpad stores are in
the tile store, and the groups go on. -/
def barTileCheck (d u : Nat) (s : State) : State :=
  let t := tileSt s d u
  if t.barTile ≠ [] ∧ (t.resident.all fun e => t.barTile.contains e.1) then
    let s1 := drainScratchTile d u s
    let t1 := tileSt s1 d u
    setTile d u { t1 with
      barTile := [], resident := t1.resident.map fun e => (e.1, { e.2 with wait := .ready, pc := e.2.pc + 8 }) } s1
  else s

/-- A group of a set leaves it: the expected count of the phases it has not passed falls by one (R133). -/
def barClusterLeave (d u slot : Nat) (k : Task) (s : State) : State :=
  let b := clusterBar s d (u / 5) (barInst k u)
  if b.active then
    setClusterBar d (u / 5) (barInst k u) { b with
      expected := b.expected - 1, arrived := b.arrived.filter fun a => decide (a ≠ (u, slot)) } s
  else s

/-- Remove a group from its slot: it counts as retired for the barriers (R128, R133, R146). -/
def removeGroup (d u slot : Nat) (s : State) : State :=
  let t := tileSt s d u
  match t.task, groupOf t slot with
  | some k, some _ =>
    let s1 := setTile d u { t with resident := serase slot t.resident, retired := t.retired + 1,
                                   barTile := t.barTile.filter fun x => decide (x ≠ slot) } s
    barTileCheck d u (barClusterLeave d u slot k s1)
  | _, _ => s

/-! ### Issue -/

/-- How a group's translation ends before any walk (R445). -/
inductive GX where
  | ok (pa : Nat) (leaf : DWord)
  | miss
  | fault (cls detail : Nat)
deriving DecidableEq, Repr

/-- Translate through a holder's entries only. -/
def lookupX (s : State) (hp pasid va : Nat) (k : AccKind) : GX :=
  if 0x2000000000000 ≤ va then .fault (xfault 4 7).1 (xfault 4 7).2
  else
    match tlbHit s hp pasid va with
    | some e =>
      match tlbAccess e va k with
      | .ok pa leaf => .ok pa leaf
      | .fault c dt => .fault c dt
      | .migrating => .miss
    | none =>
      match rootOf s (holderUnit hp) pasid with
      | none => .fault (xfault 5 4).1 (xfault 5 4).2
      | some root => if tableTarget s pasid root then .miss else .fault (xfault 13 4).1 (xfault 13 4).2

/-- Start the walk of a stream's miss (R450, R451), unless one is in flight or no walkers are active. -/
def startWalk (hp stream pasid va : Nat) (k : AccKind) (s : State) : State :=
  if s.xlate.walks.any fun w => w.holder == hp && w.stream == stream then s
  else
    match walkDie s (holderDie hp), rootOf s (holderUnit hp) pasid with
    | some d, some root =>
      let st := walkStart s d pasid va root
      let w : Walk := { holder := hp, stream := stream, die := d, pasid := pasid, va := va, kind := k, level := st.1, table := st.2 }
      let s1 : State := { s with xlate := { s.xlate with walks := s.xlate.walks ++ [w] } }
      let s2 := if st.1 = 0 then s1 else addProg (pWalkers d) 4 1 s1
      countTlb hp 4 1 s2
    | _, _ => s

/-- A group's access misses: the walk starts and the group waits on memory (R109). -/
def groupMiss (d u slot pasid va : Nat) (k : AccKind) (s : State) : State :=
  let s1 := startWalk (pTlb d u) slot pasid va k s
  let t := tileSt s1 d u
  match groupOf t slot with
  | some g =>
    if s1.xlate.walks.any fun w => w.holder == pTlb d u && w.stream == slot then setGroup d u slot { g with wait := .memory } s1
    else s1
  | none => s1

/-- The task and group of an instruction whose group may issue now: resident, ready, not parked, in no HOLD, of a task
that runs (R109, R149). -/
def issuer (s : State) (g : GRef) : Option (Task × Group) :=
  let t := tileSt s g.die g.unit
  match t.task, groupOf t g.slot with
  | some k, some gr =>
    if s.inHold ∨ k.aborted ∨ gr.wait ≠ .ready ∨ gr.parked.isSome then none else some (k, gr)
  | _, _ => none

/-- Whether the issuing group's instruction can be fetched and its register operands exist: no failure waits at the
boundary (R142), the PC translates with EXEC (R445), and every register is below REGS (R103). -/
def fetchOk (s : State) (g : GRef) (k : Task) (gr : Group) (regs : List Nat) : Bool :=
  gr.pendingFail.isNone
  && (match lookupX s (pTlb g.die g.unit) k.pasid gr.pc .exec with | .ok _ _ => true | _ => false)
  && regs.all fun r => decide (r < k.regs)

/-- One instruction of a group (R109, R142, R445): a failure waiting at the boundary parks it; the fetch is translated;
a register at or above REGS parks it; else the instruction `f` is performed, and counted where it was issued. -/
def issue (g : GRef) (regs : List Nat) (s : State) (f : Task → Group → State → State) : State :=
  match issuer s g with
  | none => s
  | some (k, gr) =>
    match gr.pendingFail with
    | some i => park g.die g.unit g.slot i s
    | none =>
      match lookupX s (pTlb g.die g.unit) k.pasid gr.pc .exec with
      | .miss => groupMiss g.die g.unit g.slot k.pasid gr.pc .exec s
      | .fault c dt =>
        parkXlate g.die g.unit g.slot gr.pc gr.pc c dt (recordXFault (pTlb g.die g.unit) (holderDie (pTlb g.die g.unit)) c dt k.pasid gr.pc s)
      | .ok _ _ =>
        if regs.all fun r => decide (r < k.regs) then f k gr s
        else parkIllegal g.die g.unit g.slot gr.pc 0x13 s

/-- Count an instruction issued, and the lookup of its fetch (R153, R473, R689). -/
def countIssue (g : GRef) (k : Task) (s : State) : State :=
  addRingProg k.ring 2 1 (addProg (vcPage g.die g.unit g.slot) 2 1 (addProg (pTlb g.die g.unit) 2 1 s))

/-- Finish an instruction: the group's new state, its PC advanced by 8 (R859), the instruction counted. -/
def finishIns (g : GRef) (k : Task) (gr : Group) (s : State) : State :=
  countIssue g k (setGroup g.die g.unit g.slot { gr with pc := gr.pc + 8 } s)

/-- OR flags into VC_FLAGS of the group's core (R113). -/
def orVcFlags (g : GRef) (fl : Nat) (s : State) : State :=
  let p := vcPage g.die g.unit g.slot
  if fl = 0 then s else wr p 0x108 (rd s p 0x108 ||| BitVec.ofNat 32 fl) s

/-! ### Register-only instructions -/

/-- SREG (R493). -/
def sregValue (k : Task) (slot : Nat) (sel : SregSel) (lane : Nat) : Nat :=
  match sel with
  | .task => k.index
  | .tasks => k.tasks
  | .member => k.member
  | .group => slot / 16 + 4 * (slot % 16)
  | .lane => lane
  | .argVaLo => k.argVa
  | .argVaHi => k.argVa / 0x100000000
  | .cmdSeq => k.seq
  | .stepVaLo => k.stepVa
  | .stepVaHi => k.stepVa / 0x100000000
  | .pinned => b2n k.pinned

/-- Write one register of every active thread. -/
def Group.setAll (dst : Nat) (f : Nat → Word) (g : Group) : Group :=
  g.active.foldl (fun acc t => acc.setReg t dst (f t)) g

def execSreg (g : GRef) (sel : SregSel) (dst : Nat) (s : State) : Res :=
  .next (issue g [dst] s fun k gr s =>
    finishIns g k (gr.setAll dst fun t => BitVec.ofNat 32 (sregValue k g.slot sel t)) s)

/-- One FP32 operation: result and flags (R111). -/
def fpApply (op : FpOp) (a b c : Word) : Word × Nat :=
  match op with
  | .add => fadd32 a b
  | .sub => fsub32 a b
  | .mul => fmul32 a b
  | .fma => ffma32 a b c
  | .div => fdiv32 a b
  | .sqrt => fsqrt32 a
  | .min => fmin32 a b
  | .max => fmax32 a b

/-- The flags of the active threads, ORed (R113). -/
def orFlags (l : List Nat) (f : Nat → Nat) : Nat := l.foldl (fun acc t => acc ||| f t) 0

def execVectorFpOp (g : GRef) (op : FpOp) (dst a b c : Nat) (s : State) : Res :=
  .next (issue g [dst, a, b, c] s fun k gr s =>
    let r (t : Nat) := fpApply op (gr.reg t a) (gr.reg t b) (gr.reg t c)
    orVcFlags g (orFlags gr.active fun t => (r t).2) (finishIns g k (gr.setAll dst fun t => (r t).1) s))

/-- One special function: result and flags (R112). -/
def sfApply (op : SfOp) (a : Word) : Word × Nat :=
  match op with
  | .rcp => rcpF32 a
  | .rsqrt => rsqrtF32 a
  | .exp2 => exp2F32 a
  | .log2 => log2F32 a
  | .exp => expF32 a
  | .ln => lnF32 a

def execSpecialFunction (g : GRef) (op : SfOp) (dst a : Nat) (s : State) : Res :=
  .next (issue g [dst, a] s fun k gr s =>
    orVcFlags g (orFlags gr.active fun t => (sfApply op (gr.reg t a)).2)
      (finishIns g k (gr.setAll dst fun t => (sfApply op (gr.reg t a)).1) s))

/-- A group with its PC and mask after a branch instruction (R108, assumption log 10). -/
def branchGroup (op : BranchOp) (gr : Group) : Group :=
  match op with
  | .jump target => { gr with pc := target }
  | .split r join =>
    let m := BitVec.ofNat 32 ((gr.active.filter fun t => decide (gr.reg t r ≠ 0)).foldl (fun acc t => acc + 2 ^ t) 0)
    { gr with stack := (gr.mask, join) :: gr.stack, mask := m, pc := if m = 0 then join else gr.pc + 8 }
  | .other target =>
    match gr.stack with
    | [] => { gr with pc := gr.pc + 8 }
    | (saved, _) :: _ =>
      let m := saved &&& ~~~gr.mask
      { gr with mask := m, pc := if m = 0 then target else gr.pc + 8 }
  | .join =>
    match gr.stack with
    | [] => { gr with pc := gr.pc + 8 }
    | (saved, _) :: rest => { gr with mask := saved, stack := rest, pc := gr.pc + 8 }

/-- The registers a branch reads. -/
def branchRegs : BranchOp → List Nat
  | .split r _ => [r]
  | _ => []

def execBranch (g : GRef) (op : BranchOp) (s : State) : Res :=
  .next (issue g (branchRegs op) s fun k gr s =>
    countIssue g k (setGroup g.die g.unit g.slot (branchGroup op gr) s))

/-! ### Barriers and retirement -/

/-- BAR.TILE (R128). The PC passes the instruction at the release. -/
def execBarTile (g : GRef) (s : State) : Res :=
  .next (issue g [] s fun k gr s =>
    let s1 := countIssue g k (setGroup g.die g.unit g.slot { gr with wait := .barTile } s)
    let t := tileSt s1 g.die g.unit
    barTileCheck g.die g.unit (setTile g.die g.unit { t with barTile := setAdd g.slot t.barTile } s1))

/-- BAR.CLUSTER (R133). -/
def execBarCluster (g : GRef) (mem : Bool) (s : State) : Res :=
  .next (issue g [] s fun k gr s =>
    let s1 := countIssue g k (setGroup g.die g.unit g.slot { gr with wait := .barCluster mem } s)
    let b := clusterBar s1 g.die (g.unit / 5) (barInst k g.unit)
    if b.arrived.contains (g.unit, g.slot) then s1
    else setClusterBar g.die (g.unit / 5) (barInst k g.unit) { b with arrived := b.arrived ++ [(g.unit, g.slot)], mem := b.mem || mem } s1)

/-- The arriving groups of a phase have no memory store left to be accepted (R133, MEM). -/
def barStoresDone (s : State) (d : Nat) (b : ClusterBar) : Bool :=
  b.arrived.all fun a => !slotPending (tileSt s d a.1) a.2

/-- CLUSTER_BARRIER_RELEASE (R133, R155, R156). -/
def execClusterBarrierRelease (die cluster inst : Nat) (s : State) : Res :=
  let b := clusterBar s die cluster inst
  if s.inHold ∨ !b.active ∨ b.arrived = [] ∨ b.arrived.length < b.expected ∨ (b.mem ∧ !barStoresDone s die b) then .next s
  else
    let s1 := b.members.foldl (fun t u => drainScratchTile die u t) s
    let s2 := if b.mem then b.members.foldl (fun t u => l1Clear die u t) s1 else s1
    let s3 := b.arrived.foldl (fun t a =>
      match groupOf (tileSt t die a.1) a.2 with
      | some g => setGroup die a.1 a.2 { g with wait := .ready, pc := g.pc + 8 } t
      | none => t) s2
    .next (add64 (pCluster die cluster) 0x110 1
      (setClusterBar die cluster inst { b with arrived := [], phase := !b.phase, mem := false } s3))

/-- GROUP_RETIRE (R102, R128, R133): the group ends; PROG_TASKS counts it (R153). -/
def execGroupRetire (g : GRef) (s : State) : Res :=
  .next (issue g [] s fun k _ s =>
    removeGroup g.die g.unit g.slot (addProg (vcPage g.die g.unit g.slot) 0 1 (countIssue g k s)))

/-! ### Task start -/

/-- The groups of a task in their slots (R105, R106). -/
def startGroups (k : Task) : List (Nat × Group) :=
  (List.range k.groups).foldl (fun m g => sadd m (16 * (g % 4) + g / 4) { pc := k.code }) []

/-- TASK_START (R103 to R107, R118, R174, R379, R520): the task placed on a tile starts, after any restore. -/
def taskStart (d u : Nat) (s : State) : State :=
  let t := tileSt s d u
  match t.issued, t.task with
  | some k, none =>
    if s.inHold || k.restore then s
    else
      let other := t.prevPasid != some k.pasid
      let kept := if k.pinned then min k.pin t.pin else 0
      let keep := fun off => decide (off < kept * 65536)
      let clearL1 := other || t.prevCmd != some (k.ring, k.seq) || t.l1Size != k.l1
      let t1 : TileSt := { t with
        issued := none, task := some k, prevPasid := some k.pasid, prevCmd := some (k.ring, k.seq), l1Size := k.l1, pin := k.pin
        scratch := t.scratch.filter fun c => keep c.1
        scratchFree := if other then none
          else if t.scratchFree.isSome && decide (t.zeroTo < kept) then t.scratchFree else some s.freeCtr
        zeroTo := if !k.pinned then k.pin else if t.scratchFree.isSome then min kept t.zeroTo else kept
        scratchPoison := t.scratchPoison.filter fun w => keep (w * 64) || (!other && (k.pinned || decide (k.pin * 65536 ≤ w * 64)))
        l1 := if clearL1 then [] else t.l1
        resident := startGroups k, sb := t.sb, replays := [], barTile := [], retired := 0
        mx := { t.mx with split := false, wantSplit := none, queues := [], next := [], firstFail := []
                          acc := if other then [] else t.mx.acc, accPoison := if other then [] else t.mx.accPoison } }
      let s1 := setTile d u t1 (tickFree (if other then 0 else 0x800000) s)
      let s2 := [0, 1, 2, 3].foldl (fun x n => wr (pVC d u n) 0x108 0 x) s1
      let s3 := if k.cw = 1 then
          setClusterBar d (u / 5) (barInst k u) { active := true, members := [u], cw := 1, expected := k.groups } s2
        else s2
      wr (pMatrix d u) 0x124 0 (wr (pMatrix d u) 0x120 0 s3)
  | _, _ => s

def execTaskStart (die unit : Nat) (s : State) : Res := .next (taskStart die unit s)

/-! ### Ends of parks -/

/-- Whether slot `slot` holds a parked group under tag `tag` (R146). -/
def parkMatches (s : State) (d u slot tag : Nat) : Bool :=
  let t := tileSt s d u
  (match groupOf t slot with | some g => g.parked.isSome | none => false)
    && (sget (fun _ => (0 : BitVec 8)) t.tags slot).toNat == tag

/-- REPLAY (R146): the group resumes at the faulting instruction. -/
def parkReplay (d u slot tag : Nat) (s : State) : State :=
  if parkMatches s d u slot tag then
    match groupOf (tileSt s d u) slot with
    | some g => addProg (vcPage d u slot) 7 1 (setGroup d u slot { g with parked := none } s)
    | none => s
  else satInc (pTile d u) 0x124 1 s

/-- DISCARD (R146): the group is removed and its slot freed. -/
def parkDiscard (d u slot tag : Nat) (s : State) : State :=
  if parkMatches s d u slot tag then removeGroup d u slot s else satInc (pTile d u) 0x124 1 s

def execParkReplay (die unit slot tag : Nat) (s : State) : Res := .next (parkReplay die unit slot tag s)

def execParkDiscard (die unit slot tag : Nat) (s : State) : Res := .next (parkDiscard die unit slot tag s)

/-- Whether any tile of a die holds a park entry. -/
def anyHeldPark (s : State) (d : Nat) : Bool := (List.range 15).any fun u => decide ((tileSt s d u).parkHeld ≠ [])

/-- A write of PARK_BASE or PARK_SIZE (R157, R158). -/
def parkRingConfigWrite (die off : Nat) (data : DWord) (wide : Bool) (s : State) : State :=
  if 8 ≤ die ∨ ¬(off = 0x200 ∨ off = 0x204 ∨ off = 0x208) then s
  else if parkUsed s die = 0 ∧ !anyHeldPark s die then stReg 0 (pCluster die 0) off data (wide && off == 0x200) s
  else event pIntr 1 s

def execParkRingConfigWrite (die off : Nat) (data : DWord) (wide : Bool) (s : State) : Res :=
  .next (parkRingConfigWrite die off data wide s)

/-! ### Abort -/

/-- Raise GEN of a page (R78). -/
def bumpGen (p : Nat) (s : State) : State := setUnit p { unitSt s p with gen := (unitSt s p).gen + 1 } s

/-- Raise GEN of a tile's header and member pages (R135, R856). -/
def bumpTileGen (d u : Nat) (s : State) : State :=
  (List.range 11).foldl (fun t b => bumpGen (pageOf d u b) t) s

/-- Raw requests of a tile that a test names no longer answer to its groups. -/
def forgetRaw (d u : Nat) (p : RawReq → Bool) (s : State) : State :=
  { s with host := { s.host with raw := s.host.raw.map fun r =>
      match r.slot with
      | some (rd, ru, _) => if rd = d ∧ ru = u ∧ p r then { r with slot := none } else r
      | none => r } }

/-- Remove a tile's groups, buffered scratchpad stores, matrix work and walks: its task is aborted (R135, R148). The
memory stores its groups have issued still drain. -/
def abortTile (d u : Nat) (s : State) : State :=
  let t := tileSt s d u
  match t.task with
  | some k =>
    let s1 := setTile d u { t with
      task := some { k with aborted := true, abortAt := s.now }, resident := [], barTile := [], replays := []
      sb := t.sb.map fun e => (e.1, e.2.filter fun x => !x.scratch)
      mx := { t.mx with queues := [] } } s
    forgetRaw d u (fun r => !r.write) { s1 with
      xlate := { s1.xlate with walks := s1.xlate.walks.filter fun w => decide (w.holder ≠ pTlb d u),
                               heldStreams := s1.xlate.heldStreams.filter fun h => decide (h.holder ≠ pTlb d u) } }
  | none => s

/-- The tiles of the set of the task a tile runs, or has been issued (R129). -/
def setOf (s : State) (d u : Nat) : List Nat :=
  match (tileSt s d u).task, (tileSt s d u).issued with
  | some k, _ => if k.setTiles = [] then [u] else k.setTiles
  | none, some k => if k.setTiles = [] then [u] else k.setTiles
  | none, none => []

/-- Abort the task of a tile with every task of its set, GEN of each member tile rising (R135). -/
def abortSet (d u : Nat) (s : State) : State :=
  match (tileSt s d u).task with
  | some k =>
    let s1 := (setOf s d u).foldl (fun t x => bumpTileGen d x (abortTile d x t)) s
    setClusterBar d (u / 5) (barInst k u) {} s1
  | none => s

end Sys2Proof.Machine
end

