-- ==== Sys2Proof/Machine/Access.lean ====
section
/-! DEFINITION. Accesses that the dispatcher, the batch steward and the engines make to virtual memory: one range is cut
into page frames, each frame translated (R445), then read or written at its home (R367). -/

namespace Sys2Proof.Machine

/-- How an access of a range ends: done, held on MIGRATING (R462) or faulted (R478), with the address. -/
inductive VRes (α : Type) where
  | ok (v : α) (s : State)
  | migrating (va : Nat) (s : State)
  | fault (cls dt va : Nat) (s : State)

/-- Continue an access that succeeded. -/
def VRes.bind {α β : Type} (x : VRes α) (f : α → State → VRes β) : VRes β :=
  match x with
  | .ok v s => f v s
  | .migrating va s => .migrating va s
  | .fault c d va s => .fault c d va s

/-- The parts of a range in the 64 KiB frames it meets: address and length. -/
def frames (va n : Nat) : List (Nat × Nat) :=
  ((List.range ((va % 0x10000 + n + 0xFFFF) / 0x10000)).map fun i =>
    let a := if i = 0 then va else va / 0x10000 * 0x10000 + i * 0x10000
    (a, min (va + n) (va / 0x10000 * 0x10000 + (i + 1) * 0x10000) - a)).filter fun p => decide (0 < p.2)

/-- One translated part of a range. -/
structure Piece where
  va : Nat
  pa : Nat
  len : Nat
  leaf : Nat
deriving DecidableEq, Repr

/-- Memory type of a part (R440). -/
def Piece.mtype (p : Piece) : Nat := pteMtype p.leaf

/-- Whether a part is homed INTERLEAVED: always for host memory (R46, R47). -/
def Piece.il (p : Piece) : Bool := pteInterleaved p.leaf || inHost p.pa

/-- Translate the parts of a range through a holder for a context. -/
def xlateParts (c : ErrRec) (hp pasid : Nat) (k : AccKind) : List (Nat × Nat) → State → VRes (List Piece)
  | [], s => .ok [] s
  | p :: t, s =>
    match translateCtx c hp pasid p.1 k s with
    | (.migrating, s1) => .migrating p.1 s1
    | (.fault cl dt, s1) => .fault cl dt p.1 s1
    | (.ok pa leaf, s1) =>
      (xlateParts c hp pasid k t s1).bind fun l s2 => .ok ({ va := p.1, pa := pa, len := p.2, leaf := leaf.toNat } :: l) s2

/-- Translate a range. -/
def xlateRange (c : ErrRec) (hp pasid va n : Nat) (k : AccKind) (s : State) : VRes (List Piece) :=
  xlateParts c hp pasid k (frames va n) s

/-- The bytes of translated parts: DEVICE type reads the target itself, any other type the home (R366, R380). -/
def readPieces (s : State) (l : List Piece) : List Byte :=
  l.flatMap fun p => if p.mtype = 3 then rdMemN s p.pa p.len else cohBytes s p.il p.pa p.len

/-- Whether any byte of translated parts is poisoned. -/
def piecesPoison (s : State) (l : List Piece) : Bool :=
  l.any fun p => if p.mtype = 3 then directPoison s p.pa p.len else cohPoisonN s p.il p.pa p.len

/-- What the read of translated parts leaves at the homes and the controllers (R299, R324, R416, R855). -/
def readTouch (slice : Option Nat) (l : List Piece) (s : State) : State :=
  l.foldl (fun t p => if p.mtype = 3 then directAccess p.pa p.len t else touch p.il slice p.pa p.len t) s

/-- The bit of a command's write-home mask (R700) for a write accepted at a physical address. -/
def homeBit (il : Bool) (pa : Nat) : Nat := homeSeg pa il

/-- Set bits of a command's write-home mask (R700). -/
def noteHomes (ring no : Nat) (bits : List Nat) (s : State) : State :=
  { s with disp := { s.disp with cmds := s.disp.cmds.map fun c =>
      if c.ring = ring ∧ c.no = no then { c with homes := bits.foldl (fun l b => setAdd b l) c.homes } else c } }

/-- Write one translated part for a slice: the write is logged before it is accepted (R467). -/
def writePiece (slice : Nat) (p : Piece) (bs : List Byte) (s : State) : State :=
  let s1 := logDirty slice p.pa s
  if p.mtype = 3 then wrMemN p.pa bs (directAccess p.pa p.len s1) else cohWrite p.il (some slice) p.pa bs s1

/-- Write bytes over translated parts. -/
def writePieces (slice : Nat) : List Piece → List Byte → State → State
  | [], _, s => s
  | p :: t, bs, s => writePieces slice t (bs.drop p.len) (writePiece slice p (bs.take p.len) s)

/-- Write bytes over translated parts for a command, whose write-home mask takes the homes. -/
def writeFor (ring no slice : Nat) (l : List Piece) (bs : List Byte) (s : State) : State :=
  noteHomes ring no ((l.filter fun p => p.mtype != 3).flatMap fun p => (linesOf p.pa p.len).map fun n => homeBit p.il (n * 1024))
    (writePieces slice l bs s)

/-- Poison the sectors translated parts touch (R604). -/
def poisonPieces (l : List Piece) (s : State) : State :=
  l.foldl (fun t p => if p.mtype = 3 then t
    else (List.range ((p.pa + p.len - 1) / 256 - p.pa / 256 + 1)).foldl
      (fun x i => cohPoisonWrite p.il ((p.pa / 256 + i) * 256) x) t) s

/-- Bits of a byte list read as a little-endian number at an offset. -/
def bytesAt (l : List Byte) (off n : Nat) : Nat := leNat ((l.drop off).take n)

end Sys2Proof.Machine
end

