-- ==== Sys2Proof/Machine/Matrix.lean ====
section
/-! DEFINITION. The matrix array (04_matrix_array.md; R136 to R141): queues, issue and wait, exact K-block accumulation,
output conversion, and the meanings of rows MX_ISSUE to ACC_STORE. -/

namespace Sys2Proof.Machine

/-! ### Queues -/

/-- A queue's operations not yet completed, oldest first. -/
def MxSt.queue (m : MxSt) (q : Nat) : List MxOp := sget (fun _ => []) m.queues q

/-- How many operations a queue has numbered since task start. -/
def MxSt.issued (m : MxSt) (q : Nat) : Nat := sget (fun _ => 0) m.next q

/-- The operations a queue has completed since task start. -/
def MxSt.done (m : MxSt) (q : Nat) : Nat := m.issued q - (m.queue q).length

/-- Entries of a queue in the mode in force (R137). -/
def MxSt.depth (m : MxSt) : Nat := if m.split then 4 else 16

/-- No operation is queued or in flight (R165, R202). -/
def MxSt.idle (m : MxSt) : Bool := [0, 1, 2, 3].all fun q => (m.queue q).isEmpty

def setMx (d u : Nat) (m : MxSt) (s : State) : State := setTile d u { tileSt s d u with mx := m } s

/-- The first failure of a queue among its operations up to number `n` (R141). -/
def MxSt.failureUpTo (m : MxSt) (q n : Nat) : Option (Nat × Nat) :=
  match slook m.firstFail q with
  | some (k, cls, dt) => if k ≤ n then some (cls, dt) else none
  | none => none

/-- Release, or park with MX_FAULT, the groups whose awaited operations have completed (R138, R141). -/
def mxWake (d u : Nat) (s : State) : State :=
  (tileSt s d u).resident.foldl (fun t e =>
    match e.2.wait with
    | .matrix q n =>
      let m := (tileSt t d u).mx
      if m.done q ≤ n then t
      else
        match m.failureUpTo q n with
        | some (cls, dt) => park d u e.1 { cause := 0x2F, pc := e.2.pc, cls := cls, detail := dt } t
        | none => setGroup d u e.1 { e.2 with wait := .ready, pc := e.2.pc + 8 } t
    | _ => t) s

/-! ### MX.ISSUE, MX.WAIT and the mode -/

/-- The lowest active thread of a group (R136). -/
def Group.first (g : Group) : Nat := g.active.headD 0

/-- The address an address form gives a thread. -/
def formAddr (f : AddrForm) (g : Group) (t : Nat) : Nat :=
  f.base + t * f.stride + (match f.lo with | some r => (g.reg t r).toNat | none => 0)
    + 0x100000000 * (match f.hi with | some r => (g.reg t r).toNat | none => 0)

/-- The registers an address form reads. -/
def formRegs (f : AddrForm) : List Nat := f.lo.toList ++ f.hi.toList

/-- The queue and mode an operation asks for: QUAD of an attention descriptor (R228), else the instruction's quadrant
operand (R165). -/
def mxTarget (desc : List Byte) (bad : Bool) (quad : Option Nat) : Option Nat :=
  if !bad && dAttn desc then (if dBit desc 0 27 then some (dFld desc 0 29 28) else none) else quad.map (· % 4)

/-- MX.ISSUE (R136, R137, R139, R165, R167): the core's older scratchpad stores drain, the descriptor is read, and the
operation joins its queue; it waits while the mode or the queue has no room. -/
def execMxIssue (g : GRef) (addr : AddrForm) (quad : Option Nat) (dst : Nat) (s : State) : Res :=
  .next (issue g (dst :: formRegs addr) s fun k gr s =>
    let s1 := drainScratch g.die g.unit (g.slot / 16) s
    let t := tileSt s1 g.die g.unit
    let a := formAddr addr gr gr.first
    let bad := a % 128 != 0 || !spanOk k.member (scratchSize k.l1) ⟨a, 0, 1, 128⟩
    let desc := if bad then [] else t.bytes (a % 0x800000) 128
    let target := mxTarget desc bad quad
    let q := target.getD 0
    let m := t.mx
    if m.split ≠ target.isSome then setMx g.die g.unit { m with wantSplit := some target.isSome } s1
    else if m.depth ≤ (m.queue q).length then s1
    else
      let op : MxOp := { num := m.issued q, desc := desc, slot := g.slot, bad := bad
                         poison := !bad && t.poisoned (a % 0x800000) 128 }
      let s2 := setMx g.die g.unit { m with queues := sput (fun _ => []) m.queues q (m.queue q ++ [op])
                                            next := sput (fun _ => 0) m.next q (m.issued q + 1) } s1
      finishIns g k (gr.setReg gr.first dst (BitVec.ofNat 32 (m.issued q % 65536))) s2)

/-- The number of the operation a 16-bit sequence number names: the newest issued one with it, within the window of
32,768 behind the last issued (R138). -/
def mxNumber (issued n : Nat) : Option Nat :=
  let back := (issued + 0x10000 - 1 - n % 0x10000) % 0x10000
  if issued = 0 ∨ 32768 ≤ back ∨ issued ≤ back then none else some (issued - 1 - back)

/-- MX.WAIT (R138, R141). -/
def execMxWait (g : GRef) (queue src : Nat) (s : State) : Res :=
  .next (issue g [src] s fun k gr s =>
    let m := (tileSt s g.die g.unit).mx
    let s1 := countIssue g k s
    match (if queue < 4 then mxNumber (m.issued queue) (gr.reg gr.first src).toNat else none) with
    | none => parkIllegal g.die g.unit g.slot gr.pc 0x13 s1
    | some n => mxWake g.die g.unit (setGroup g.die g.unit g.slot { gr with wait := .matrix queue n } s1))

/-- The array changes mode when an MX.ISSUE waits for the other mode and nothing is queued or in flight (R165). -/
def execMxModeChange (die unit : Nat) (s : State) : Res :=
  let m := (tileSt s die unit).mx
  match m.wantSplit with
  | some w =>
    if s.inHold ∨ !m.idle then .next s
    else
      let s1 := setMx die unit { m with split := w, wantSplit := none } s
      .next (if w = m.split then s1 else addProg (pMatrix die unit) 7 1 s1)
  | none => .next s

/-! ### Completion -/

/-- Record the failure of an operation: the queue's error flag and first failure, MX_ERRCODE, the events, the counter
and the captured error at the page that found it (R141, R202 to R204, R254). -/
def mxFail (d u q : Nat) (op : MxOp) (page unitPage cls dt addr : Nat) (addrValid : Bool) (s : State) : State :=
  let t := tileSt s d u
  let first := t.mx.firstFail.isEmpty
  let m := { t.mx with firstFail := if (slook t.mx.firstFail q).isSome then t.mx.firstFail
                                    else sadd t.mx.firstFail q (op.num, cls, dt) }
  let s1 := setMx d u m s
  let s2 := if first then wr (pMatrix d u) 0x124 (BitVec.ofNat 32 (dt + 0x100 * q)) s1 else s1
  let s3 := addProg (pMatrix d u) 5 1 (raiseEvt (pMatrix d u) (if cls = 0x20 then 3 else 1) s2)
  let k := t.task.getD { pasid := 0, slice := 0, ring := 0, seq := 0 }
  captureErr page {
    cls := cls, detail := dt, gen := (unitSt s (pTile d u)).gen.toNat, addr := addr, addrValid := addrValid
    ctxValid := true, pasid := k.pasid, slice := k.slice, ring := k.ring, seq := k.seq, srcDie := d, srcUnit := unitPage
    srcLogical := logicalTile s d u } s3

/-- Taint the operations of other queues whose operands meet an output just written (R172). -/
def taintCross (d u q : Nat) (w : List Span) (s : State) : State :=
  let t := tileSt s d u
  if w = [] then s
  else
    setMx d u { t.mx with queues := t.mx.queues.map fun e =>
      if e.1 = q then e
      else (e.1, e.2.map fun o => if !o.bad && !o.poison && spansMeet w (opReads o.desc) then { o with tainted := true } else o) } s

/-- Complete the oldest operation of a queue: it leaves the queue, its flags join MX_FLAGS, and waits it covers end
(R137, R138, R197). -/
def mxComplete (d u q flags : Nat) (fail : Bool) (s : State) : State :=
  let w := match (tileSt s d u).mx.queue q with
    | o :: _ => if fail || o.bad || o.poison then [] else opWrites o.desc
    | [] => []
  let s0 := taintCross d u q w s
  let m := (tileSt s0 d u).mx
  let s1 := setMx d u { m with queues := sput (fun _ => []) m.queues q ((m.queue q).drop 1) } s0
  let s2 := wr (pMatrix d u) 0x120 (rd s1 (pMatrix d u) 0x120 ||| BitVec.ofNat 32 flags) s1
  mxWake d u (addProg (pMatrix d u) 0 1 s2)

/-- The head of a queue, if the array may finish an operation: not in HOLD, a task runs. -/
def mxHead (s : State) (d u q : Nat) : Option (MxOp × Task) :=
  match (tileSt s d u).task, (tileSt s d u).mx.queue q with
  | some k, o :: _ => if s.inHold || k.aborted then none else some (o, k)
  | _, _ => none

/-- Fail the head of a queue with a status found by the MATRIX unit. -/
def mxFailHere (d u q : Nat) (op : MxOp) (cls dt : Nat) (s : State) : State :=
  mxComplete d u q 0 true (mxFail d u q op (pMatrix d u) u cls dt 0 false s)

/-! ### Accumulators (R159, R164) -/

/-- The index of element (m, n) of queue `q`'s accumulator. -/
def accIdx (split : Bool) (q buf m n : Nat) : Nat :=
  if split then buf * 65536 + (128 * (q / 2) + m) * 256 + 128 * (q % 2) + n else buf * 65536 + m * 256 + n

/-- The indices of an M × N region, row by row. -/
def accRegion (split : Bool) (q buf m n : Nat) : List Nat :=
  (List.range m).flatMap fun i => (List.range n).map fun j => accIdx split q buf i j

def MxSt.cell (m : MxSt) (i : Nat) : Word := sget (fun _ => 0) m.acc i

/-- Whether any element of a region is poisoned (R173). -/
def MxSt.regionPoison (m : MxSt) (l : List Nat) : Bool := m.accPoison.any fun i => l.contains i

/-- Write accumulator elements and clear their poison. -/
def MxSt.setCells (l : List (Nat × Word)) (m : MxSt) : MxSt :=
  { m with acc := l.foldl (fun a e => sput (fun _ => 0) a e.1 e.2) m.acc
           accPoison := m.accPoison.filter fun i => !(l.any fun e => e.1 == i) }

/-- Mark a region poisoned. -/
def MxSt.poisonCells (l : List Nat) (m : MxSt) : MxSt :=
  { m with accPoison := l.foldl (fun a i => setAdd i a) m.accPoison }

/-! ### Exact K-block sums (R186, R187) -/

/-- The sum of a block's products: NaN, infinities, an exact dyadic sum m × 2^e, and flags. -/
structure KSum where
  nan : Bool := false
  pinf : Bool := false
  ninf : Bool := false
  m : Int := 0
  e : Int := 0
  fl : Nat := 0
deriving DecidableEq, Repr

/-- Add one product. -/
def KSum.add (x : KSum) (p : FV × Nat) : KSum :=
  match p.1 with
  | .nan _ => { x with nan := true, fl := x.fl ||| p.2 }
  | .inf neg => { x with pinf := x.pinf || !neg, ninf := x.ninf || neg, fl := x.fl ||| p.2 }
  | .fin neg m e =>
    if m = 0 then x
    else
      let e' := if x.m = 0 then e else min x.e e
      let a := x.m * ((2 ^ (x.e - e').toNat : Nat) : Int)
      let b := ((m * 2 ^ (e - e').toNat : Nat) : Int)
      { x with m := a + (if neg then -b else b), e := e', fl := x.fl ||| p.2 }

/-- The sum as a value, times the exact factor of the operands, and the flags raised. -/
def KSum.value (x : KSum) (f : FV) : FV × Nat :=
  if x.pinf ∧ x.ninf then (.nan false, x.fl ||| flInvalid)
  else if x.nan then (.nan false, x.fl)
  else
    let r := mulV (if x.pinf || x.ninf then .inf x.ninf else .fin (decide (x.m < 0)) x.m.natAbs x.e) f
    (r.1, x.fl ||| r.2)

/-- A value with every NaN quiet: the array does not tell them apart (R187). -/
def quietV : FV → FV
  | .nan _ => .nan false
  | v => v

/-- acc + v (R187): a v of exactly zero leaves acc unchanged. -/
def accAdd (acc : Word) (v : FV) : Word × Nat :=
  match v with
  | .fin _ 0 _ => (acc, 0)
  | _ => enc32 (fmt32.addV (quietV (dec32 acc)) v)

/-- Products of one K-block; a pruned position forms none (R191). -/
def kProducts (l : List (FV × Option FV)) : KSum :=
  l.foldl (fun x p => match p.2 with | some b => x.add (mulV p.1 b) | none => x) {}

/-- One accumulator element over the K-blocks of its operands (R186): value and flags. -/
def mmaElem (kb : Nat) (f : FV) : Nat → List (FV × Option FV) → Word → Word × Nat
  | 0, _, acc => (acc, 0)
  | n + 1, l, acc =>
    let v := (kProducts (l.take kb)).value f
    let a := accAdd acc v.1
    let r := mmaElem kb f n (l.drop kb) a.1
    (r.1, r.2 ||| a.2 ||| v.2)

/-- A word as a signed number, and a number saturated to INT32 (R188). -/
def satI32 (x : Int) : Word × Nat :=
  if x < -2147483648 then (0x80000000, flOverflow) else if 2147483647 < x then (0x7FFFFFFF, flOverflow)
  else (BitVec.ofInt 32 x, 0)

/-- One INT32 accumulator element (R188). -/
def mmaInt (kb : Nat) : Nat → List (FV × Option FV) → Word → Word × Nat
  | 0, _, acc => (acc, 0)
  | n + 1, l, acc =>
    let x := kProducts (l.take kb)
    let a := satI32 (acc.toInt + x.m * ((2 ^ x.e.toNat : Nat) : Int))
    let r := mmaInt kb n (l.drop kb) a.1
    (r.1, r.2 ||| a.2)

/-! ### Operands (R170, R190) -/

/-- Elements of a row of a region as encoded, `n` of `w` bits. -/
def rowElems (t : TileSt) (off w n : Nat) : List Nat :=
  let row := leNat (t.bytes off (rowBytes w n))
  (List.range n).map fun i => rowElem w row i

/-- A dense row of `n` elements of a format with its block scales. -/
def denseRow (t : TileSt) (fmt : Nat) (p sc : Span) (r n : Nat) : List FV :=
  let row := leNat (t.bytes (p.off r) (rowBytes (codeWidth fmt) n))
  (List.range n).map fun i =>
    scaledValue fmt (rowElem (codeWidth fmt) row i) (if codeBlock fmt then (t.byte (sc.off r + i / 32)).toNat else 0)

/-- The metadata nibble of group `g` of a row (R190). -/
def metaNibble (t : TileSt) (p : Span) (r g : Nat) : Nat := (t.byte (p.off r + g / 2)).toNat / 16 ^ (g % 2) % 16

/-- A 2:4 sparse row expanded to `n` positions, with nothing at the pruned ones (R190, R191). -/
def sparseRow (t : TileSt) (fmt : Nat) (p sc mt : Span) (r n : Nat) : List (Option FV) :=
  let w := codeWidth fmt
  let row := leNat (t.bytes (p.off r) (rowBytes w (n / 2)))
  (List.range n).map fun i =>
    let nib := metaNibble t mt r (i / 4)
    let scale := if codeBlock fmt then (t.byte (sc.off r + i / 32)).toNat else 0
    if i % 4 = nib % 4 then some (scaledValue fmt (rowElem w row (2 * (i / 4))) scale)
    else if i % 4 = nib / 4 then some (scaledValue fmt (rowElem w row (2 * (i / 4) + 1)) scale)
    else none

/-- Whether any metadata nibble breaks idx0 < idx1 (R190). -/
def metaBad (t : TileSt) (d : List Byte) : Bool :=
  let p : Span := ⟨dWord d 0x30, dWord d 0x34, dN d, 0⟩
  (List.range (dN d)).any fun r => (List.range (dK d / 4)).any fun g =>
    let nib := metaNibble t p r g
    decide (nib / 4 ≤ nib % 4)

/-- Whether a region holds a poisoned word. -/
def spanPoison (t : TileSt) (p : Span) : Bool := p.list.any fun x => t.poisoned x.1 x.2

/-- The new accumulator elements of an MMA and its flags (R186 to R191). -/
def mmaCells (t : TileSt) (split : Bool) (q : Nat) (d : List Byte) : List (Nat × Word) × Nat :=
  let fa := dFld d 0 7 4
  let fb := dFld d 0 11 8
  let k := dK d
  let kb := kBlock fa fb
  let rowsA := (List.range (dM d)).map fun r => denseRow t fa ⟨dWord d 0x10, dWord d 0x14, 0, 0⟩ ⟨dWord d 0x18, dWord d 0x1C, 0, 0⟩ r k
  let rowsB := (List.range (dN d)).map fun r =>
    if dBit d 0 19 then
      sparseRow t fb ⟨dWord d 0x20, dWord d 0x24, 0, 0⟩ ⟨dWord d 0x28, dWord d 0x2C, 0, 0⟩ ⟨dWord d 0x30, dWord d 0x34, 0, 0⟩ r k
    else (denseRow t fb ⟨dWord d 0x20, dWord d 0x24, 0, 0⟩ ⟨dWord d 0x28, dWord d 0x2C, 0, 0⟩ r k).map some
  let f := (mulV (dec32 (BitVec.ofNat 32 (dWord d 0x38))) (dec32 (BitVec.ofNat 32 (dWord d 0x3C)))).1
  let cells := rowsA.zipIdx.flatMap fun a => rowsB.zipIdx.map fun b =>
    let i := accIdx split q (dFld d 0 20 20) a.2 b.2
    let acc := if dBit d 0 21 then 0 else t.mx.cell i
    (i, if dBit d 0 23 then mmaInt kb (k / kb) (a.1.zip b.1) acc else mmaElem kb f (k / kb) (a.1.zip b.1) acc)
  (cells.map fun c => (c.1, c.2.1), cells.foldl (fun fl c => fl ||| c.2.2) 0)

/-! ### Output conversion (R192 to R197) -/

/-- y of R192 for an FP32 element: y0, or the rounded quotient by the tensor factor, with the division's flags. -/
def tensorOut (w tensor : Word) : FV × Nat :=
  if tensor = 0x3F800000 then (quietV (dec32 w), 0)
  else
    let r := fdiv32 w tensor
    (quietV (dec32 r.1), r.2 &&& (flOverflow + flUnderflow + flInexact))

/-- The rounding modes of `n` elements and the generator's state after them (R194). -/
def outModes (rnd fmt n x : Nat) : List Rnd × Nat :=
  if fmt = 13 ∨ fmt = 14 ∨ rnd = 0 then (List.replicate n .rne, x)
  else if rnd = 1 then (List.replicate n .rtz, x)
  else srModes n x

/-- A converted output row: scale bytes, element bytes, flags. -/
structure OutRow where
  sc : List Byte := []
  el : List Byte := []
  fl : Nat := 0
deriving DecidableEq, Repr

/-- A row of values converted to a format (R192, R195, R196). -/
def convRow (fmt : Nat) (sat : Bool) (ys : List FV) (modes : List Rnd) : OutRow :=
  if codeBlock fmt then
    let blocks := (List.range (ys.length / 32)).map fun j =>
      let y := (ys.drop (32 * j)).take 32
      let m := (modes.drop (32 * j)).take 32
      if fmt = 9 then chv4Block y m else mxBlock fmt y m
    { sc := blocks.map fun b => BitVec.ofNat 8 b.1, el := packRow (codeWidth fmt) (blocks.flatMap fun b => b.2.1)
      fl := blocks.foldl (fun a b => a ||| b.2.2) 0 }
  else
    let r := List.zipWith (fun y m => scalarOut fmt sat y m) ys modes
    { el := packRow (codeWidth fmt) (r.map fun x => x.1), fl := r.foldl (fun a x => a ||| x.2) 0 }

/-- Rows converted one after the other, the generator running on (R194). -/
def convRows (fmt rnd : Nat) (sat : Bool) : List (List FV) → Nat → List OutRow
  | [], _ => []
  | ys :: rest, x =>
    let m := outModes rnd fmt ys.length x
    convRow fmt sat ys m.1 :: convRows fmt rnd sat rest m.2

/-- The flags of converted rows, ORed. -/
def rowFlags (l : List OutRow) : Nat := l.foldl (fun a r => a ||| r.fl) 0

/-- The generator's first state for an operation (R193). -/
def opSeed (s : State) (d u q : Nat) (op : MxOp) : Nat :=
  srInit (dLong op.desc 0x60) (d * 12 + logicalTile s d u) (if (tileSt s d u).mx.split then q else 0) (op.num % 65536)

/-- The output rows of an operation's region (R188, R192 to R197). -/
def storeRows (m : MxSt) (q : Nat) (d : List Byte) (seed : Nat) : List OutRow :=
  let fo := dFld d 0 15 12
  let rows := (List.range (dM d)).map fun i => (List.range (dN d)).map fun j => m.cell (accIdx m.split q (dFld d 0 20 20) i j)
  if dBit d 0 23 then
    if fo = 14 then rows.map fun r => { el := r.flatMap fun w => leBytes 4 w.toNat }
    else
      rows.map fun r =>
        let c := r.map fun w => fmt32.ofV (intFV 32 w.toNat 0)
        { el := c.flatMap fun x => leBytes 4 x.1, fl := c.foldl (fun a x => a ||| x.2) 0 }
  else
    let ys := rows.map fun r => r.map fun w => tensorOut w (BitVec.ofNat 32 (dWord d 0x50))
    let c := convRows fo (dFld d 0 17 16) (dBit d 0 18) (ys.map fun r => r.map fun y => y.1) seed
    List.zipWith (fun (x : OutRow) (y : List (FV × Nat)) => { x with fl := y.foldl (fun a z => a ||| z.2) x.fl }) c ys

/-- Write output rows to the scratchpad: elements, and scales where the format has them. -/
def writeRows (d u : Nat) (out scale : Span) (rows : List OutRow) (s : State) : State :=
  rows.zipIdx.foldl (fun t r =>
    let t1 := scratchWrite d u (out.off r.2) r.1.el t
    if r.1.sc = [] then t1 else scratchWrite d u (scale.off r.2) r.1.sc t1) s

/-- Undefined outputs: every byte of the output regions takes a free value (R140, R172). -/
def freeSpans (d u : Nat) (w : List Span) (s : State) : State :=
  (w.flatMap Span.list).foldl (fun t x =>
    scratchWrite d u x.1 ((List.range x.2).map fun i => BitVec.ofNat 8 (Config.freeValue (s.freeCtr + x.1 + i)).toNat) t) s

/-- Poison every 64 B word of output regions (R173). -/
def poisonSpans (d u : Nat) (w : List Span) (s : State) : State :=
  setTile d u ((w.flatMap Span.list).foldl (fun t x => t.poison x.1 x.2) (tileSt s d u)) s

/-- Whether an operation's outputs are undefined: a store met its regions in flight (R140), its output meets its own
operands, or another queue's operation in flight writes what it reads (R172). -/
def opUndefined (m : MxSt) (q : Nat) (op : MxOp) : Bool :=
  op.tainted || spansMeet (opWrites op.desc) (opReads op.desc)
    || m.queues.any fun e => e.1 != q && e.2.any fun o => !o.bad && !o.poison && spansMeet (opWrites o.desc) (opReads op.desc)

/-! ### Passes and counters (R162, R204) -/

/-- K per pass of an MMA (R162, R190). -/
def kPerPass (split : Bool) (d : List Byte) : Nat :=
  let cls := min (codeClass (dFld d 0 7 4)) (codeClass (dFld d 0 11 8))
  let base := if cls = 2 then 512 else 256
  let b := if split then base / 2 else base
  if dBit d 0 19 ∧ cls ≠ 0 then 2 * b else b

/-- Bytes of regions. -/
def spansBytes (l : List Span) : Nat := l.foldl (fun a p => a + p.rows * p.len) 0

/-- Count an operation's work: bytes read and written, passes, MACs. -/
def countOp (d u : Nat) (desc : List Byte) (accRead : Nat) (s : State) : State :=
  let p := pMatrix d u
  let s1 := addProg p 1 (spansBytes (opReads desc) + accRead + spansBytes (opWrites desc)) s
  if dOpc desc = 1 then
    let t := tileSt s1 d u
    let kp := kPerPass t.mx.split desc
    let n := t.mx.macs + dM desc * dN desc * dK desc
    addProg p 4 (n / 65536) (addProg p 2 ((dK desc + kp - 1) / kp) (setMx d u { t.mx with macs := n % 65536 } s1))
  else s1

/-! ### The operations -/

/-- Fail an operation on poison: its accumulator region is marked, and a storing operation poisons its output (R173). -/
def failPoison (d u q : Nat) (op : MxOp) (dt : Nat) (s : State) : State :=
  let t := tileSt s d u
  let l := accRegion t.mx.split q (dFld op.desc 0 20 20) (dM op.desc) (dN op.desc)
  let s1 := setMx d u (t.mx.poisonCells l) s
  mxFailHere d u q op 0x20 dt (if dStores op.desc then poisonSpans d u (mxWrites op.desc) s1 else s1)

/-- Convert and store an operation's region (R192); undefined outputs take free values. The flags are returned. -/
def storeOut (d u q : Nat) (op : MxOp) (undef : Bool) (s : State) : State × Nat :=
  let dsc := op.desc
  if undef then (freeSpans d u (mxWrites dsc) s, 0)
  else
    let r := storeRows (tileSt s d u).mx q dsc (opSeed s d u q op)
    (writeRows d u ⟨dWord dsc 0x40, dWord dsc 0x44, 0, 0⟩ ⟨dWord dsc 0x48, dWord dsc 0x4C, 0, 0⟩ r s, rowFlags r)

/-- The free flags of an operation whose values are undefined. -/
def freeFlags (s : State) : Nat := (Config.freeValue (s.freeCtr + 0x1000000)).toNat % 32 &&& 0x1D

/-- Free values for the accumulator elements of a region. -/
def freeCells (s : State) (l : List Nat) : List (Nat × Word) :=
  l.map fun i => (i, BitVec.ofNat 32 (Config.freeValue (s.freeCtr + 0x800000 + i)).toNat)

/-- A legal MMA whose operands are clean (R186): accumulate, then convert and store under STORE. -/
def runMma (d u q : Nat) (op : MxOp) (s : State) : State :=
  let t := tileSt s d u
  let dsc := op.desc
  let undef := opUndefined t.mx q op
  let l := accRegion t.mx.split q (dFld dsc 0 20 20) (dM dsc) (dN dsc)
  let r := if undef then (freeCells s l, freeFlags s) else mmaCells t t.mx.split q dsc
  let s1 := setMx d u (t.mx.setCells r.1) s
  let s2 := if dBit dsc 0 22 then storeOut d u q op undef s1 else (s1, 0)
  let s3 := countOp d u dsc (if dBit dsc 0 21 then 0 else 4 * dM dsc * dN dsc) s2.1
  mxComplete d u q (r.2 ||| s2.2) false (if undef then tickFree 0x2000000 s3 else s3)

/-- The checks every matrix operation passes before its work (R171, R173): a failure completes it. -/
def mxChecked (d u q : Nat) (op : MxOp) (k : Task) (s : State) (run : State → State) : State :=
  let t := tileSt s d u
  let dt := mxCheck op.desc t.mx.split k.member (scratchSize k.l1)
  if dt ≠ 0 then mxFailHere d u q op 0x13 dt s
  else if (mxReads op.desc).any (spanPoison t) then failPoison d u q op 0x07 s
  else run s

/-- Whether an operation is one row's: a descriptor that can be read, is trusted and has the opcode. -/
def isOp (op : MxOp) (opc : Nat) : Bool := !op.bad && !op.poison && dOpc op.desc == opc

/-- NOP (R169): also how an operation ends whose descriptor breaks R167, is poisoned (R173) or has a reserved opcode
(R171). -/
def execNop (die unit queue : Nat) (s : State) : Res :=
  match mxHead s die unit queue with
  | none => .next s
  | some (op, k) =>
    if op.bad then .next (mxFailHere die unit queue op 0x13 0x04 s)
    else if op.poison then .next (mxFailHere die unit queue op 0x20 0x07 s)
    else if dOpc op.desc = 0 ∨ (4 ≤ dOpc op.desc ∧ dOpc op.desc < 8) ∨ 12 ≤ dOpc op.desc then
      .next (mxChecked die unit queue op k s fun t => mxComplete die unit queue 0 false t)
    else .next s

/-- MMA (R186). Broken metadata is illegal unless it lies in a poisoned word, which is an operand read (R173, R190). -/
def execMma (die unit queue : Nat) (s : State) : Res :=
  match mxHead s die unit queue with
  | none => .next s
  | some (op, k) =>
    if isOp op 1 then
      let t := tileSt s die unit
      let dsc := op.desc
      let mt : Span := ⟨dWord dsc 0x30, dWord dsc 0x34, dN dsc, (dK dsc + 7) / 8⟩
      if mxCheck dsc t.mx.split k.member (scratchSize k.l1) = 0 ∧ dBit dsc 0 19 ∧ !spanPoison t mt ∧ metaBad t dsc then
        .next (mxFailHere die unit queue op 0x13 0x06 s)
      else
        .next (mxChecked die unit queue op k s fun s =>
          let l := accRegion t.mx.split queue (dFld dsc 0 20 20) (dM dsc) (dN dsc)
          if !dBit dsc 0 21 ∧ t.mx.regionPoison l then failPoison die unit queue op 0x08 s
          else runMma die unit queue op s)
    else .next s

/-- The values an ACC_LOAD reads (R169, R170): FP32 NaNs become the canonical one (R178, R187). -/
def accLoadCells (t : TileSt) (split : Bool) (q : Nat) (d : List Byte) : List (Nat × Word) :=
  let p : Span := ⟨dWord d 0x54, dWord d 0x58, 0, 0⟩
  (List.range (dM d)).flatMap fun m => (List.range (dN d)).map fun n =>
    let w := BitVec.ofNat 32 (leNat (t.bytes (p.off m + 4 * n) 4))
    (accIdx split q (dFld d 0 20 20) m n, if !dBit d 0 23 ∧ isNan32 w then nan32 else w)

/-- ACC_LOAD (R169). -/
def execAccLoad (die unit queue : Nat) (s : State) : Res :=
  match mxHead s die unit queue with
  | none => .next s
  | some (op, k) =>
    if isOp op 2 then
      .next (mxChecked die unit queue op k s fun s =>
        let t := tileSt s die unit
        let undef := opUndefined t.mx queue op
        let l := accRegion t.mx.split queue (dFld op.desc 0 20 20) (dM op.desc) (dN op.desc)
        let cells := if undef then freeCells s l else accLoadCells t t.mx.split queue op.desc
        let s1 := countOp die unit op.desc 0 (setMx die unit (t.mx.setCells cells) s)
        mxComplete die unit queue 0 false (if undef then tickFree 0x2000000 s1 else s1))
    else .next s

/-- ACC_STORE (R169, R192). -/
def execAccStore (die unit queue : Nat) (s : State) : Res :=
  match mxHead s die unit queue with
  | none => .next s
  | some (op, k) =>
    if isOp op 3 then
      .next (mxChecked die unit queue op k s fun s =>
        let t := tileSt s die unit
        let l := accRegion t.mx.split queue (dFld op.desc 0 20 20) (dM op.desc) (dN op.desc)
        if t.mx.regionPoison l then failPoison die unit queue op 0x08 s
        else
          let undef := opUndefined t.mx queue op
          let r := storeOut die unit queue op undef s
          let s1 := countOp die unit op.desc (4 * dM op.desc * dN op.desc) r.1
          mxComplete die unit queue (if undef then freeFlags s else r.2) false (if undef then tickFree 0x2000000 s1 else s1))
    else .next s

end Sys2Proof.Machine
end

