-- ==== Sys2Proof/Machine/Attention.lean ====
section
/-! DEFINITION. Fused attention and the KV codec (05_attention.md): the codec, gather reads, online softmax, partial
records, and the meanings of rows ATTN_FUSED to ATTN_NORM. An attention operation translates and reads in one step; one
that meets a MIGRATING page holds its stream, changes nothing else, and runs again when the stream is resumed
(assumption log 12). -/

namespace Sys2Proof.Machine

/-! ### The KV codec (R219 to R222) -/

/-- An encoded vector: element bytes, scale bytes, vectors or blocks made NaN, elements saturated, flags. -/
structure KvEnc where
  el : List Byte
  sc : List Byte
  nan : Nat := 0
  sat : Nat := 0
  fl : Nat := 0
deriving DecidableEq, Repr

/-- The larger magnitude of finite values. -/
def amaxOf (l : List FV) : Nat × Nat := l.foldl (fun a y => ratMax a (magRat y)) (0, 1)

/-- FP32 as an element format. -/
def eFP32 : EFmt := ⟨23, 8, 127, 16777215, 104, true, true, 0x7FC00000⟩

/-- The FP8 scale of a finite vector (R220): 1.0 at amax 0, else the rounded amax / 448, at least 2^−126. -/
def fp8Scale (a : Nat × Nat) : Word :=
  if a.1 = 0 then 0x3F800000 else BitVec.ofNat 32 (max 0x00800000 (eFP32.convert true false a.1 (a.2 * 448) .rne).1)

/-- Encode one vector for FP8_E4M3 (R220). -/
def fp8Encode (x : List FV) : KvEnc :=
  if anyNan x ∨ x.any FV.isInf then
    { el := x.map fun _ => 0, sc := leBytes 4 0x7FC00000, nan := 1, fl := if x.any FV.isInf then flOverflow + flInexact else 0 }
  else
    let s := fp8Scale (amaxOf x)
    let sr := magRat (dec32 s)
    let r := x.map fun y =>
      let a := magRat y
      eE4M3.convert true y.isNeg (a.1 * sr.2) (a.2 * sr.1) .rne
    { el := r.map fun e => BitVec.ofNat 8 e.1, sc := leBytes 4 s.toNat
      sat := (x.filter fun y => let a := magRat y; decide (448 * a.2 * sr.1 < a.1 * sr.2)).length
      fl := r.foldl (fun a e => a ||| (e.2 &&& (flInexact + flUnderflow))) 0 }

/-- Encode one vector for CHV4 under tensor factor `t` (R184, R185, R221). -/
def chv4Encode (t : Word) (x : List Word) : KvEnc :=
  let ys := x.map fun w => fdiv32 w t
  let y := ys.map fun r => quietV (dec32 r.1)
  let dfl := ys.foldl (fun a r => a ||| (r.2 &&& (flOverflow + flUnderflow + flInexact))) 0
  let blocks := (List.range (x.length / 32)).map fun b =>
    let l := (y.drop (32 * b)).take 32
    (chv4Block l (List.replicate 32 .rne), l)
  let excess (b : (Nat × List Nat × Nat) × List FV) : Nat :=
    if b.1.1 = 0xFF then 0
    else
      let s := chv4S ((b.1.1 : Int) - 128)
      (b.2.filter fun v => let a := magRat v; let z := inUnits a.1 (a.2 * s.1) s.2; decide (6 * z.2 < z.1)).length
  { el := packRow 4 (blocks.flatMap fun b => b.1.2.1), sc := blocks.map fun b => BitVec.ofNat 8 b.1.1
    nan := (blocks.filter fun b => b.1.1 == 0xFF).length, sat := blocks.foldl (fun a b => a + excess b) 0
    fl := blocks.foldl (fun a b => a ||| b.1.2.2) dfl }

/-- Encode one vector of FP32 words (R219 to R221). -/
def kvEncode (chv4 : Bool) (t : Word) (x : List Word) : KvEnc :=
  if chv4 then chv4Encode t x else fp8Encode (x.map fun w => quietV (dec32 w))

/-- A decoded vector: elements with their block scales, and the factor ks of R233. -/
def kvDecode (chv4 : Bool) (t : Word) (dim : Nat) (el sc : List Byte) : List FV × FV :=
  if chv4 then
    let row := leNat el
    ((List.range dim).map fun i => scaledValue 9 (rowElem 4 row i) (sc.getD (i / 32) 0).toNat, dec32 t)
  else (el.map fun b => eE4M3.decode b.toNat, quietV (dec32 (BitVec.ofNat 32 (leNat sc))))

/-- NaN scales of a vector: the vector's for FP8, the blocks' for CHV4 (R222, R252). -/
def kvNanScales (chv4 : Bool) (sc : List Byte) : Nat :=
  if chv4 then (sc.filter fun b => b == 0xFF).length else b2n (isNan32 (BitVec.ofNat 32 (leNat sc)))

/-- An element of a local source row widened to FP32 (R223). -/
def localWord (t : TileSt) (d : List Byte) (row i : Nat) : Word :=
  let off := (aLocalSpan d).off row
  if aLocalF32 d then BitVec.ofNat 32 (leNat (t.bytes (off + 4 * i) 4))
  else BitVec.ofNat 32 (leNat (t.bytes (off + 2 * i) 2) * 0x10000)

/-- The K (`v` false) or V vector of a head in a local row (R223). -/
def localVec (t : TileSt) (d : List Byte) (row head : Nat) (v : Bool) : List Word :=
  (List.range (aD d)).map fun i => localWord t d row (((if v then aH d else 0) + head) * aD d + i)

/-! ### Gather reads (R213 to R218) -/

/-- The outcome of an attention operation's memory stage: a value; a hold on MIGRATING at an address, or a failure with
the page of the engine that found it. -/
inductive ARes (α : Type) where
  | ok (v : α) (s : State)
  | hold (stream : Nat) (va : Nat) (s : State)
  | fail (page unitNo cls dt : Nat) (addr : Option Nat) (s : State)

/-- Continue a successful stage. -/
def ARes.bind {α β : Type} (x : ARes α) (f : α → State → ARes β) : ARes β :=
  match x with
  | .ok v s => f v s
  | .hold st va s => .hold st va s
  | .fail p u c dt a s => .fail p u c dt a s

/-- Detail XLATE, WALK or WALK_TARGET of a fault class (R217). -/
def attnXDetail (cls : Nat) : Nat := cls + 2

/-- Translate for a gather, append or merge access; `nonDev` refuses only DEVICE, else only NORMAL passes (R215, R241). -/
def attnXlate (d u stream page : Nat) (k : Task) (va : Nat) (kind : AccKind) (onlyNormal : Bool) (s : State) :
    ARes (Nat × DWord) :=
  match translateNow (pTlb d u) k.pasid va kind s with
  | (.ok pa leaf, s1) =>
    let m := pteMtype leaf.toNat
    if m = 3 ∨ (onlyNormal ∧ m ≠ 0) then .fail page u 0x13 0x15 (some va) s1 else .ok (pa, leaf) s1
  | (.migrating, s1) => .hold stream va s1
  | (.fault c _, s1) => .fail page u c (attnXDetail c) (some va) s1

/-- Read bytes for the gather unit: they lie within one page. -/
def gatherRead (d u q : Nat) (k : Task) (va n : Nat) (s : State) : ARes (List Byte) :=
  (attnXlate d u (64 + q) (pGather d u) k va .read false s).bind fun x s1 =>
    let il := pteInterleaved x.2.toNat
    if cohPoisonN s1 il x.1 n then .fail (pGather d u) u 0x20 0x16 (some va) s1
    else .ok (cohBytes s1 il x.1 n) (addProg (pGather d u) 1 n (touch il (some k.slice) x.1 n s1))

/-- One page-list entry (R213, R216): the page's and the scale slot's addresses. -/
def gatherList (d u q : Nat) (k : Task) (dsc : List Byte) (e : Nat) (s : State) : ARes (Nat × Nat) :=
  let va := dLong dsc 0x20 + 16 * e
  (gatherRead d u q k va 16 s).bind fun b s1 =>
    let lo := leNat (b.take 8)
    let hi := leNat (b.drop 8)
    let s2 := wr (pGather d u) (0x110 + 4 * q) (BitVec.ofNat 32 (e % 0x400000)) (addProg (pGather d u) 2 1 s1)
    if !nbit lo 0 ∨ nfld lo 15 1 ≠ 0 ∨ nfld lo 63 49 ≠ 0 ∨ nfld hi 11 0 ≠ 0 ∨ nfld hi 63 49 ≠ 0 then
      .fail (pGather d u) u 0x13 0x10 (some va) s2
    else .ok (lo / 0x10000 * 0x10000 % 0x2000000000000, hi / 0x1000 * 0x1000 % 0x2000000000000) s2

/-- Where the vectors of a head start in a page, and its scales in a slot (R211, R212). -/
def headOff (dsc : List Byte) (h : Nat) : Nat := 2 * aT dsc * aB dsc * h
def scaleOff (dsc : List Byte) (h : Nat) : Nat := 2 * aT dsc * aScaleB dsc * h

/-- The head region of a page and of its scale slot (R215). -/
def gatherEntry (d u q : Nat) (k : Task) (dsc : List Byte) (e : Nat) (s : State) : ARes (List Byte × List Byte) :=
  let h := dFld dsc 4 25 21
  (gatherList d u q k dsc e s).bind fun p s1 =>
  (gatherRead d u q k (p.1 + headOff dsc h) (2 * aT dsc * aB dsc) s1).bind fun b s2 =>
  (gatherRead d u q k (p.2 + scaleOff dsc h) (2 * aT dsc * aScaleB dsc) s2).bind fun c s3 =>
    .ok (b, c) (addProg (pGather d u) 4 1 s3)

/-- A key of a chunk (R231): position, slot, K elements with their factor ks (R233), V values (R222). -/
structure KvKey where
  pos : Nat
  slot : Nat
  kv : List FV
  ks : FV
  vv : List FV
deriving DecidableEq, Repr

/-- A key from encoded vectors and scales. -/
def mkKey (dsc : List Byte) (pos slot : Nat) (kel ksc vel vsc : List Byte) : KvKey :=
  let t := BitVec.ofNat 32 (dWord dsc 0x34)
  let k := kvDecode (aChv4 dsc) t (aD dsc) kel ksc
  let v := kvDecode (aChv4 dsc) t (aD dsc) vel vsc
  { pos := pos, slot := slot, kv := k.1, ks := k.2, vv := v.1.map fun x => (mulV x v.2).1 }

/-- Bytes [a, a + n) of a list. -/
def slice (l : List Byte) (a n : Nat) : List Byte := (l.drop a).take n

/-- Element and scale bytes of slot `j` in a head region: K, then V. -/
def slotParts (dsc : List Byte) (b c : List Byte) (j : Nat) : List Byte × List Byte × List Byte × List Byte :=
  let n := aB dsc
  let m := aScaleB dsc
  (slice b (j * n) n, slice c (j * m) m, slice b ((aT dsc + j) * n) n, slice c ((aT dsc + j) * m) m)

/-- The present keys of a page chunk, in slot order. -/
def pageKeys (dsc : List Byte) (e : Nat) (b c : List Byte) : List KvKey :=
  ((List.range (aT dsc)).filter fun j =>
      decide (dWord dsc 0x08 ≤ e * aT dsc + j) && decide (e * aT dsc + j < dWord dsc 0x0C)).map fun j =>
    let p := slotParts dsc b c j
    mkKey dsc (e * aT dsc + j) j p.1 p.2.1 p.2.2.1 p.2.2.2

/-- NaN scales among the present keys of a page chunk. -/
def pageNans (dsc : List Byte) (keys : List KvKey) (b c : List Byte) : Nat :=
  keys.foldl (fun a k => let p := slotParts dsc b c k.slot
                         a + kvNanScales (aChv4 dsc) p.2.1 + kvNanScales (aChv4 dsc) p.2.2.2) 0

/-- The page-list entries an ATTN_FUSED visits (R231). -/
def visitEntries (dsc : List Byte) : List Nat :=
  let t := aT dsc
  let start := dWord dsc 0x08
  let stop := dWord dsc 0x0C
  let st := dFld dsc 0x1C 7 0 + 1
  let ph := dFld dsc 0x1C 15 8
  ((List.range ((stop + t - 1) / t)).drop (start / t)).filter fun e => decide (e % st = ph) && decide (start < stop)

/-! ### Codec counters (R252, R253) -/

/-- Count vectors encoded, NaNs and saturations of the codec. -/
def noteEnc (d u vectors nan sat : Nat) (s : State) : State :=
  let p := pCodec d u
  let s1 := addProg p 5 sat (addProg p 2 vectors s)
  let s2 := if nan = 0 then s1 else event p 0 (satInc p 0x104 nan s1)
  if sat = 0 then s2 else satInc p 0x108 sat s2

/-- Count vectors decoded and NaN scales met. -/
def noteDec (d u vectors nan : Nat) (s : State) : State :=
  let p := pCodec d u
  let s1 := addProg p 4 vectors s
  if nan = 0 then s1 else event p 1 (satInc p 0x10C nan s1)

/-! ### Which keys a row sees, and the online softmax (R230 to R235) -/

/-- Whether a present key is allowed for a row (R232). -/
def keyAllowed (dsc : List Byte) (qpos anc p : Nat) : Bool :=
  let base := dWord dsc 0x2C
  let win := dWord dsc 0x28
  (if dBit dsc 0 25 ∧ base ≤ p then decide (p - base < 64) && nbit anc (p - base)
   else !dBit dsc 0 24 || decide (p ≤ qpos))
  && (win == 0 || decide (qpos < p + win))

/-- A row's running state: m, l, o, whether a NaN score ended it, allowed and denied keys, flags. -/
structure ARow where
  m : Word
  l : Word
  o : List Word
  nan : Bool := false
  allowed : Nat := 0
  denied : Nat := 0
  fl : Nat := 0
deriving DecidableEq, Repr

/-- The score of a row for a key (R233). -/
def score (dsc : List Byte) (q : List FV) (k : KvKey) : Word × Nat :=
  let kb := if dFld dsc 0 7 4 = 11 then 16 else 32
  let f := mulV (dec32 (BitVec.ofNat 32 (dWord dsc 0x30))) k.ks
  mmaElem kb f.1 (aD dsc / kb) (q.zip (k.kv.map some)) 0

/-- p rounded to PFMT under RNE (R234). -/
def roundP (dsc : List Byte) (p : Word) : FV × Nat :=
  let f := if dBit dsc 0 19 then eE4M3 else eBF16
  let r := f.convertV false (quietV (dec32 p)) .rne
  (f.decode r.1, r.2)

/-- l × a + Σ p, exact inside, rounded once (R234). -/
def sumP (l a : Word) (ps : List Word) : Word × Nat :=
  let x := ps.foldl (fun acc p => acc.add (quietV (dec32 p), 0))
    (({} : KSum).add (mulV (quietV (dec32 l)) (quietV (dec32 a))))
  let v := x.value (.fin false 1 0)
  let r := enc32 (fmt32.ofV v.1)
  (r.1, v.2 ||| r.2)

/-- One chunk for one row (R234); `width` is the number of its slots. -/
def rowChunk (dsc : List Byte) (q : List FV) (qpos anc width : Nat) (keys : List KvKey) (r : ARow) : ARow :=
  let js := keys.filter fun k => keyAllowed dsc qpos anc k.pos
  let r0 := { r with denied := r.denied + (keys.length - js.length) }
  if r.nan ∨ js = [] then r0
  else
    let zs := js.map fun k => score dsc q k
    let zfl := zs.foldl (fun a z => a ||| z.2) 0
    let r1 := { r0 with allowed := r0.allowed + js.length, fl := r0.fl ||| zfl }
    if zs.any fun z => isNan32 z.1 then
      { r1 with m := nan32, l := nan32, o := r.o.map fun _ => nan32, nan := true }
    else
      let mn := zs.foldl (fun a z => (fmax32 a z.1).1) r.m
      if mn = negInf32 then r1
      else
        let da := fsub32 r.m mn
        let a := exp2F32 da.1
        let ps := zs.map fun z =>
          let dz := fsub32 z.1 mn
          let e := exp2F32 dz.1
          (e.1, dz.2 ||| e.2)
        let pfl := ps.foldl (fun x p => x ||| p.2) 0
        let l := sumP r.l a.1 (ps.map fun p => p.1)
        let kb := if dBit dsc 0 19 then 32 else 16
        let blocks := (width + kb - 1) / kb
        let pr := ps.map fun p => roundP dsc p.1
        let rfl := pr.foldl (fun x p => x ||| p.2) 0
        let jp := js.zip (pr.map fun p => p.1)
        let o := r.o.zipIdx.map fun od =>
          let ops := (List.range (blocks * kb)).map fun sl =>
            match jp.find? fun x => x.1.slot == sl with
            | some x => (x.2, some (x.1.vv.getD od.2 (.fin false 0 0)))
            | none => (FV.fin false 0 0, none)
          let t := mmaElem kb (.fin false 1 0) blocks ops 0
          let w := lseTerm od.1 a.1 t.1 0x3F800000
          (w.1, t.2 ||| w.2)
        { r1 with m := mn, l := l.1, o := o.map fun x => x.1
                  fl := o.foldl (fun x y => x ||| y.2) (r1.fl ||| da.2 ||| a.2 ||| pfl ||| l.2 ||| rfl) }

/-! ### Rows, records and outputs (R230, R237 to R240) -/

/-- A query row: elements, position, ancestry. -/
structure QRow where
  q : List FV
  pos : Nat
  anc : Nat
deriving DecidableEq, Repr

/-- Query row `r` and its row-table entry (R227, R230). -/
def qRow (t : TileSt) (d : List Byte) (r : Nat) : QRow :=
  let fq := dFld d 0 7 4
  let e := dWord d 0x18 % 0x800000 + 16 * r
  { q := denseRow t fq ⟨dWord d 0x10, dWord d 0x14, 0, 0⟩ ⟨0, 0, 0, 0⟩ r (aD d)
    pos := leNat (t.bytes e 4) % 0x200000, anc := leNat (t.bytes (e + 8) 8) }

/-- A word of a scratchpad record. -/
def recAt (t : TileSt) (off k : Nat) : Word := BitVec.ofNat 32 (leNat (t.bytes (off + k) 4))

/-- Whether a row's partial records are poisoned: a poisoned word, or FLAGS.POISON in either half (R239, R240). -/
def recPoison (t : TileSt) (d : List Byte) (r : Nat) : Bool :=
  (List.range (aRecs d)).any fun h =>
    let off := (aStateSpan d).off r + 1024 * h
    t.poisoned off 1024 || bitOf (recAt t off 12) 0

/-- The o elements of a row's records (R238). -/
def recO (t : TileSt) (d : List Byte) (r : Nat) : List Word :=
  (List.range (aD d)).map fun i => recAt t ((aStateSpan d).off r + 1024 * (i / 128)) (256 + 4 * (i % 128))

/-- A row as ATTN_FUSED starts it (R234, R239). -/
def startRow (t : TileSt) (d : List Byte) (r : Nat) : ARow :=
  let off := (aStateSpan d).off r
  if aInit d ∧ recAt t off 8 ≠ 0 then { m := recAt t off 0, l := recAt t off 4, o := recO t d r }
  else { m := negInf32, l := 0, o := List.replicate (aD d) 0 }

/-- The record bytes of half `h` of a row (R238). -/
def rowRecord (n : Nat) (r : ARow) (h : Nat) : List Byte :=
  mkRecord r.m r.l n 0 (((r.o.drop (128 * h)).take 128).flatMap fun w => leBytes 4 w.toNat)

/-- y_d of an output row (R239): o / l rounded, +0 where l is zero. -/
def normRow (l : Word) (o : List Word) : List FV × Nat :=
  let y := o.map fun w =>
    if l.toNat % 0x80000000 = 0 then (FV.fin false 0 0, 0)
    else
      let r := fdiv32 w l
      (quietV (dec32 r.1), if isNan32 w ∨ isNan32 l then 0 else r.2)
  (y.map fun x => x.1, y.foldl (fun a x => a ||| x.2) 0)

/-- Output rows from (l, o) pairs: the converted rows with their flags, in row order (R239, R240). -/
def outRows (d : List Byte) (seed : Nat) (rows : List (Word × List Word)) : List OutRow :=
  let ys := rows.map fun r => normRow r.1 r.2
  List.zipWith (fun (c : OutRow) (y : List FV × Nat) => { c with fl := c.fl ||| y.2 })
    (convRows (dFld d 0 15 12) (dFld d 0 17 16) (dBit d 0 18) (ys.map fun y => y.1) seed) ys

/-! ### Shared steps of the attention operations -/

/-- The head of a queue as one attention opcode, not held. -/
def attnHead (s : State) (d u q opc : Nat) : Option (MxOp × Task) :=
  match mxHead s d u q with
  | some (op, k) =>
    if isOp op opc && !([64, 68, 72].any fun b => streamHeld s (pTlb d u) (b + q)) then some (op, k) else none
  | none => none

/-- Begin a hold of a stream (R217, R248, R249, R462): of what the operation has done, only its translations stay. -/
def attnHold (d u stream va : Nat) (k : Task) (x : XlateSt) (s : State) : State :=
  let s1 := holdStream (pTlb d u) stream k.pasid va { s with xlate := x }
  if stream < 68 then addProg (pGather d u) 6 1 (event (pGather d u) 0 s1) else s1

/-- Record the failure at its page, with the engine's event (R249, R253, R254). -/
def attnFail (d u q : Nat) (op : MxOp) (page unitNo cls dt : Nat) (addr : Option Nat) (s : State) : State :=
  let s1 := if page = pGather d u then event page 1 s else if page = pCodec d u then event page 2 s else s
  mxFail d u q op page unitNo cls dt (addr.getD 0) addr.isSome s1

/-- Bits a descriptor's checks fail with complete the operation at once (R229). -/
def attnIllegal (d u q : Nat) (op : MxOp) (k : Task) (s : State) : Option State :=
  let dt := attnCheck op.desc (tileSt s d u).mx.split k.member (scratchSize k.l1)
  if dt = 0 then none else some (mxFailHere d u q op 0x13 dt s)

/-- The accumulator region of an attention operation (R237). -/
def attnRegion (m : MxSt) (q : Nat) (d : List Byte) : List Nat := accRegion m.split q (dFld d 0 20 20) (dM d) (aD d)

/-! ### Merge contributions (R241 to R244) -/

/-- The virtual addresses of the records an operation sends to, in order (R239). -/
def mergeVas (d : List Byte) : List Nat :=
  (List.range (dM d)).flatMap fun r => (List.range (aRecs d)).map fun h => dLong d 0x58 + r * dWord d 0x68 + 1024 * h

/-- Translate every record before the first contribution (R244). -/
def mergeTargets (d u q : Nat) (k : Task) : List Nat → State → ARes (List (Nat × DWord))
  | [], s => .ok [] s
  | va :: t, s =>
    (attnXlate d u (68 + q) (pSmu d u) k va .write true s).bind fun x s1 =>
    (mergeTargets d u q k t s1).bind fun l s2 => .ok (x :: l) s2

/-- Send one contribution to each record (R241): flags, the first refusal's detail; `none` where a home cannot take one
yet, and then nothing has been sent. -/
def mergeSend (d u q : Nat) (k : Task) (dsc : List Byte) :
    List ((Nat × DWord) × List Byte) → State → Option (State × Nat × Nat)
  | [], s => some (s, 0, 0)
  | (x, c) :: t, s =>
    let r : FReq := {
      kind := .lse, agent := d, stream := 0, slice := some k.slice, code := 0x20, off := 0, size := 1024, operand := c, cmd := some (k.ring, k.no)
      ordered := dBit dsc 0 26, cidx := dFld dsc 0x6C 15 0, ccount := dFld dsc 0x6C 31 16 + 1 }
    let res := cohOp (pteInterleaved x.2.toNat) x.1 r s
    if res.2.2.2 = 0x100 then none
    else
      let poison := bitOf (recWord c 12) 0
      let s0 := noteHomes k.ring k.no [homeBit (pteInterleaved x.2.toNat || inHost x.1) x.1] res.1
      let s1 := addProg (pSmu d u) 1 1024 (addProg (pSmu d u) 6 1 (logDirty k.slice x.1 s0))
      let s2 := if poison then event (pSmu d u) 1 s1 else s1
      match mergeSend d u q k dsc t s2 with
      | some (s3, fl, dt) => some (s3, fl ||| res.2.2.1, if res.2.2.2 ≠ 0 then res.2.2.2 else dt)
      | none => none

/-- A contribution with FLAGS.POISON (R244); what its M, L and O hold is open (assumption log 1). -/
def poisonContribution (s : State) (i : Nat) : List Byte :=
  let f (n : Nat) : Word := BitVec.ofNat 32 (Config.freeValue (s.freeCtr + 200 * i + n)).toNat
  mkRecord (f 0) (f 1) 1 1 ((List.range 128).flatMap fun n => leBytes 4 (f (2 + n)).toNat)

/-! ### ATTN_FUSED -/

/-- The keys of the local chunk (R226): encoded, then decoded; vectors' NaNs and saturations, flags. -/
def localKeys (t : TileSt) (d : List Byte) : List KvKey × Nat × Nat × Nat :=
  let h := dFld d 4 25 21
  let tf := BitVec.ofNat 32 (dWord d 0x34)
  let enc := (List.range (aNlocal d)).map fun i =>
    (kvEncode (aChv4 d) tf (localVec t d i h false), kvEncode (aChv4 d) tf (localVec t d i h true))
  (enc.zipIdx.map fun e => mkKey d (dFld d 0x40 28 8 + e.2) e.2 e.1.1.el e.1.1.sc e.1.2.el e.1.2.sc,
   enc.foldl (fun a e => a + e.1.nan + e.2.nan) 0, enc.foldl (fun a e => a + e.1.sat + e.2.sat) 0,
   enc.foldl (fun a e => a ||| e.1.fl ||| e.2.fl) 0)

/-- Visit the page chunks in order (R231). -/
def pageChunks (d u q : Nat) (k : Task) (dsc : List Byte) (qs : List QRow) :
    List Nat → List ARow → State → ARes (List ARow)
  | [], rows, s => .ok rows s
  | e :: t, rows, s =>
    (gatherEntry d u q k dsc e s).bind fun bc s1 =>
      let keys := pageKeys dsc e bc.1 bc.2
      let s2 := addProg (pSmu d u) 2 1 (noteDec d u (2 * keys.length) (pageNans dsc keys bc.1 bc.2) s1)
      pageChunks d u q k dsc qs t (List.zipWith (fun x r => rowChunk dsc x.q x.pos x.anc (aT dsc) keys r) qs rows) s2

/-- The work of ATTN_FUSED up to its outputs: the rows after every chunk and the codec's flags. -/
def fusedRows (d u q : Nat) (k : Task) (dsc : List Byte) (s : State) : ARes (List ARow × Nat) :=
  let t := tileSt s d u
  let poisonIn := (attnReads dsc).any fun p => p ≠ aStateSpan dsc && spanPoison t p
  if poisonIn then .fail (pMatrix d u) u 0x20 0x07 none s
  else if aInit dsc ∧ (List.range (dM dsc)).any (recPoison t dsc) then .fail (pSmu d u) u 0x20 0x17 none s
  else
    let qs := (List.range (dM dsc)).map (qRow t dsc)
    let rows := (List.range (dM dsc)).map (startRow t dsc)
    (pageChunks d u q k dsc qs (visitEntries dsc) rows s).bind fun rows s1 =>
      if aNlocal dsc = 0 then .ok (rows, 0) s1
      else
        let lk := localKeys t dsc
        let s2 := noteDec d u (2 * aNlocal dsc) 0 (noteEnc d u (2 * aNlocal dsc) lk.2.1 lk.2.2.1 s1)
        .ok (List.zipWith (fun x r => rowChunk dsc x.q x.pos x.anc (aNlocal dsc) lk.1 r) qs rows, lk.2.2.2)
          (addProg (pSmu d u) 2 1 s2)

/-- The counters of the rows at the end (R250, R251). -/
def countRows (d u : Nat) (start rows : List ARow) (s : State) : State :=
  let p := pSmu d u
  let isN (r : ARow) := isNan32 r.m || isNan32 r.l
  let nan := ((start.zip rows).filter fun x => !isN x.1 && isN x.2).length
  let s1 := if nan = 0 then s else event p 0 (satInc p 0x104 nan s)
  let empty := (rows.filter fun r => decide (r.allowed = 0)).length
  let s2 := if empty = 0 then s1 else satInc p 0x108 empty s1
  addProg p 5 (rows.foldl (fun a r => a + r.denied) 0) (addProg p 4 (rows.foldl (fun a r => a + r.allowed) 0) s2)

/-- Write partial records to the scratchpad (R239 STATE). -/
def writeRecords (d u : Nat) (dsc : List Byte) (rows : List ARow) (s : State) : State :=
  rows.zipIdx.foldl (fun t r => (List.range (aRecs dsc)).foldl (fun t h =>
    scratchWrite d u ((⟨dWord dsc 0x48, dWord dsc 0x4C, 0, 0⟩ : Span).off r.2 + 1024 * h) (rowRecord 1 r.1 h) t) t) s

/-- A failed ATTN_FUSED (R173, R237, R244): its accumulator region is open, poisoned where a poisoned operand was read;
LOCAL and STATE outputs are poisoned; MERGE sends poisoned contributions. `none` where a home must be waited for. -/
def fusedFail (d u q : Nat) (op : MxOp) (k : Task) (targets : List (Nat × DWord)) (page unitNo cls dt : Nat)
    (addr : Option Nat) (s : State) : Option State :=
  let t := tileSt s d u
  let l := attnRegion t.mx q op.desc
  let m := t.mx.setCells (freeCells s l)
  let s1 := tickFree 0x2000000 (setMx d u (if dt = 0x07 then m.poisonCells l else m) s)
  let fin (s : State) : State := addProg (pSmu d u) 0 1 (mxComplete d u q 0 true (attnFail d u q op page unitNo cls dt addr s))
  if aOutMode op.desc = 2 then
    match mergeSend d u q k op.desc (targets.zipIdx.map fun x => (x.1, poisonContribution s1 x.2)) s1 with
    | some (s2, _, _) => some (fin (tickFree 0x100000 s2))
    | none => none
  else some (fin (poisonSpans d u (attnWrites op.desc) s1))

/-- The outputs of a completed ATTN_FUSED (R237, R239, R241). -/
def fusedOut (d u q : Nat) (op : MxOp) (k : Task) (targets : List (Nat × DWord)) (start rows : List ARow) (cfl : Nat)
    (s : State) : Option State :=
  let dsc := op.desc
  let t := tileSt s d u
  let undef := opUndefined t.mx q op
  let l := attnRegion t.mx q dsc
  let cells := if undef then freeCells s l else l.zip (rows.flatMap fun r => r.o)
  let fl := if undef then freeFlags s else rows.foldl (fun a r => a ||| r.fl) cfl
  let s1 := countRows d u start rows (setMx d u (t.mx.setCells cells) s)
  let fin (fl : Nat) (s : State) : State :=
    addProg (pGather d u) 0 1 (addProg (pSmu d u) 0 1 (mxComplete d u q fl false (if undef then tickFree 0x2000000 s else s)))
  if undef ∧ aOutMode dsc ≠ 2 then some (fin fl (freeSpans d u (attnWrites dsc) s1))
  else
    match aOutMode dsc with
    | 0 =>
      let r := outRows dsc (opSeed s d u q op) (rows.map fun r => (r.l, r.o))
      let s2 := writeRows d u ⟨dWord dsc 0x48, dWord dsc 0x4C, 0, 0⟩ ⟨0, 0, 0, 0⟩ r s1
      some (fin (fl ||| rowFlags r) (addProg (pSmu d u) 7 (dM dsc) (addProg (pSmu d u) 1 (spansBytes (attnWrites dsc)) s2)))
    | 1 => some (fin fl (addProg (pSmu d u) 1 (spansBytes (attnWrites dsc)) (writeRecords d u dsc rows s1)))
    | _ =>
      let free (i : Nat) : List Byte := mkRecord (BitVec.ofNat 32 (Config.freeValue (s.freeCtr + 200 * i)).toNat)
        (BitVec.ofNat 32 (Config.freeValue (s.freeCtr + 200 * i + 1)).toNat) 1 0
        ((List.range 128).flatMap fun n => leBytes 4 (Config.freeValue (s.freeCtr + 200 * i + 2 + n)).toNat)
      let recs := rows.flatMap fun r => (List.range (aRecs dsc)).map fun h => rowRecord 1 r h
      let recs := if undef then (List.range recs.length).map free else recs
      match mergeSend d u q k dsc (targets.zip recs) s1 with
      | none => none
      | some (s2, hfl, dt) =>
        if dt = 0 then some (fin (fl ||| hfl) s2)
        else
          some (addProg (pSmu d u) 0 1 (mxComplete d u q (fl ||| hfl) true
            (mxFail d u q op (pSmu d u) u (if dt = 0x05 then 0x20 else 0x13) dt 0 false s2)))

/-- ATTN_FUSED (R205, R230 to R244). -/
def execAttnFused (die unit queue : Nat) (s : State) : Res :=
  match attnHead s die unit queue 8 with
  | none => .next s
  | some (op, k) =>
    match attnIllegal die unit queue op k s with
    | some t => .next t
    | none =>
      let dsc := op.desc
      let tg : ARes (List (Nat × DWord)) :=
        if aOutMode dsc = 2 then mergeTargets die unit queue k (mergeVas dsc) s else .ok [] s
      match tg with
      | .hold st va s1 => .next (attnHold die unit st va k s1.xlate s)
      | .fail p un c dt a s1 =>
        -- before any contribution: no record receives anything (R244)
        .next (addProg (pSmu die unit) 0 1 (mxComplete die unit queue 0 true (attnFail die unit queue op p un c dt a s1)))
      | .ok targets s1 =>
        match fusedRows die unit queue k dsc s1 with
        | .hold st va s2 => .next (attnHold die unit st va k s2.xlate s)
        | .fail p un c dt a s2 => .next ((fusedFail die unit queue op k targets p un c dt a s2).getD s)
        | .ok r s2 =>
          let start := (List.range (dM dsc)).map (startRow (tileSt s die unit) dsc)
          .next ((fusedOut die unit queue op k targets start r.1 r.2 s2).getD s)

/-! ### ATTN_APPEND -/

/-- Write bytes of a page or slot for the codec: within one page (R224); free ones where the operation's output is undefined
(R140, R172). -/
def appendWrite (d u q : Nat) (k : Task) (undef : Bool) (va : Nat) (bs : List Byte) (s : State) : ARes Unit :=
  (attnXlate d u (72 + q) (pCodec d u) k va .write false s).bind fun x s1 =>
    let out := if undef then (List.range bs.length).map fun i => BitVec.ofNat 8 (Config.freeValue (s1.freeCtr + i)).toNat else bs
    .ok () (addProg (pCodec d u) 1 bs.length
      (noteHomes k.ring k.no [homeBit (pteInterleaved x.2.toNat || inHost x.1) x.1]
        (logDirty k.slice x.1 (cohWrite (pteInterleaved x.2.toNat) (some k.slice) x.1 out (tickFree (if undef then bs.length else 0) s1)))))

/-- Append the vectors of heads of one token to its page and scale slot (R211, R212, R224). -/
def appendHeads (d u q : Nat) (k : Task) (dsc : List Byte) (undef : Bool) (row slot page sc : Nat) : List Nat → Nat → State → ARes Nat
  | [], fl, s => .ok fl s
  | h :: t, fl, s =>
    let tile := tileSt s d u
    let tf := BitVec.ofNat 32 (dWord dsc 0x34)
    let e := kvEncode (aChv4 dsc) tf (localVec tile dsc row h false)
    let v := kvEncode (aChv4 dsc) tf (localVec tile dsc row h true)
    let n := aB dsc
    let m := aScaleB dsc
    let s0 := noteEnc d u 2 (e.nan + v.nan) (e.sat + v.sat) s
    (appendWrite d u q k undef (page + headOff dsc h + slot * n) e.el s0).bind fun _ s1 =>
    (appendWrite d u q k undef (page + headOff dsc h + (aT dsc + slot) * n) v.el s1).bind fun _ s2 =>
    (appendWrite d u q k undef (sc + scaleOff dsc h + slot * m) e.sc s2).bind fun _ s3 =>
    (appendWrite d u q k undef (sc + scaleOff dsc h + (aT dsc + slot) * m) v.sc s3).bind fun _ s4 =>
      appendHeads d u q k dsc undef row slot page sc t (fl ||| e.fl ||| v.fl) s4

/-- Append the local rows in order; a list entry is read once (R215). -/
def appendRows (d u q : Nat) (k : Task) (dsc : List Byte) (undef : Bool) : List Nat → Option (Nat × Nat × Nat) → Nat → State → ARes Nat
  | [], _, fl, s => .ok fl s
  | i :: t, last, fl, s =>
    let p := dFld dsc 0x40 28 8 + i
    let e := p / aT dsc
    let got : ARes (Nat × Nat) := match last with
      | some (e', a, b) => if e' = e then .ok (a, b) s else gatherList d u q k dsc e s
      | none => gatherList d u q k dsc e s
    got.bind fun ab s1 =>
    (appendHeads d u q k dsc undef i (p % aT dsc) ab.1 ab.2 (List.range (aH dsc)) fl s1).bind fun fl s2 =>
      appendRows d u q k dsc undef t (some (e, ab.1, ab.2)) fl s2

/-- ATTN_APPEND (R224). -/
def execAttnAppend (die unit queue : Nat) (s : State) : Res :=
  match attnHead s die unit queue 9 with
  | none => .next s
  | some (op, k) =>
    match attnIllegal die unit queue op k s with
    | some t => .next t
    | none =>
      let dsc := op.desc
      let fin (fl : Nat) (fail : Bool) (s : State) : State := addProg (pCodec die unit) 0 1 (mxComplete die unit queue fl fail s)
      if spanPoison (tileSt s die unit) (aLocalSpan dsc) then
        .next (fin 0 true (attnFail die unit queue op (pMatrix die unit) unit 0x20 0x07 none s))
      else
        let undef := opUndefined (tileSt s die unit).mx queue op
        match appendRows die unit queue k dsc undef (List.range (aNlocal dsc)) none 0 s with
        | .hold st va s1 => .next (attnHold die unit st va k s1.xlate s)
        | .fail p un c dt a s1 => .next (fin 0 true (attnFail die unit queue op p un c dt a s1))
        | .ok fl s1 => .next (fin (if undef then freeFlags s else fl) false (addProg (pGather die unit) 0 1 s1))

/-! ### ATTN_DECODE -/

/-- The output bytes of one decoded vector and its flags (R222, R225). -/
def decodedBytes (fmt : Nat) (v : List FV × FV) : List Byte × Nat :=
  let r := v.1.map fun x => scalarOut fmt false (mulV x v.2).1 .rne
  (packRow (codeWidth fmt) (r.map fun x => x.1), r.foldl (fun a x => a ||| x.2) 0)

/-- Decode the tokens of the entries in order (R225). -/
def decodeEntries (d u q : Nat) (k : Task) (dsc : List Byte) : List Nat → Nat → State → ARes Nat
  | [], fl, s => .ok fl s
  | e :: t, fl, s =>
    (gatherEntry d u q k dsc e s).bind fun bc s1 =>
      let fo := dFld dsc 0 15 12
      let tf := BitVec.ofNat 32 (dWord dsc 0x34)
      let start := dWord dsc 0x08
      let js := (List.range (aT dsc)).filter fun j =>
        decide (start ≤ e * aT dsc + j) && decide (e * aT dsc + j < dWord dsc 0x0C)
      let r := js.foldl (fun (acc : State × Nat × Nat) j =>
        let p := slotParts dsc bc.1 bc.2 j
        let kb := decodedBytes fo (kvDecode (aChv4 dsc) tf (aD dsc) p.1 p.2.1)
        let vb := decodedBytes fo (kvDecode (aChv4 dsc) tf (aD dsc) p.2.2.1 p.2.2.2)
        let off := (⟨dWord dsc 0x48, dWord dsc 0x4C, 0, 0⟩ : Span).off (e * aT dsc + j - start)
        (scratchWrite d u off (kb.1 ++ vb.1) acc.1, acc.2.1 ||| kb.2 ||| vb.2,
         acc.2.2 + kvNanScales (aChv4 dsc) p.2.1 + kvNanScales (aChv4 dsc) p.2.2.2)) (s1, fl, 0)
      decodeEntries d u q k dsc t r.2.1 (noteDec d u (2 * js.length) r.2.2 r.1)

/-- ATTN_DECODE (R225, R244). -/
def execAttnDecode (die unit queue : Nat) (s : State) : Res :=
  match attnHead s die unit queue 10 with
  | none => .next s
  | some (op, k) =>
    match attnIllegal die unit queue op k s with
    | some t => .next t
    | none =>
      let dsc := op.desc
      let fin (fl : Nat) (fail : Bool) (s : State) : State := addProg (pCodec die unit) 0 1 (mxComplete die unit queue fl fail s)
      let undef := opUndefined (tileSt s die unit).mx queue op
      let es := (List.range ((dWord dsc 0x0C + aT dsc - 1) / aT dsc)).drop (dWord dsc 0x08 / aT dsc)
      match decodeEntries die unit queue k dsc es 0 s with
      | .hold st va s1 => .next (attnHold die unit st va k s1.xlate s)
      | .fail p un c dt a s1 =>
        .next (fin 0 true (attnFail die unit queue op p un c dt a (poisonSpans die unit (attnWrites dsc) s1)))
      | .ok fl s1 =>
        let s2 := addProg (pGather die unit) 0 1 s1
        if undef then .next (fin (freeFlags s) false (tickFree 0x2000000 (freeSpans die unit (attnWrites dsc) s2)))
        else .next (fin fl false s2)

/-! ### ATTN_NORM -/

/-- The l and o of a row's records; an empty row normalises to +0 (R240). -/
def normIn (t : TileSt) (d : List Byte) (r : Nat) : Word × List Word :=
  let off := (aStateSpan d).off r
  (if recAt t off 8 = 0 then 0 else recAt t off 4, recO t d r)

/-- ATTN_NORM (R240). Every element takes its draw, those of poisoned rows too (R194). -/
def execAttnNorm (die unit queue : Nat) (s : State) : Res :=
  match attnHead s die unit queue 11 with
  | none => .next s
  | some (op, k) =>
    match attnIllegal die unit queue op k s with
    | some t => .next t
    | none =>
      let dsc := op.desc
      let t := tileSt s die unit
      let out : Span := ⟨dWord dsc 0x48, dWord dsc 0x4C, 0, 0⟩
      let undef := opUndefined t.mx queue op
      let rows := List.range (dM dsc)
      let r := outRows dsc (opSeed s die unit queue op) (rows.map (normIn t dsc))
      let bad := rows.filter (recPoison t dsc)
      let len := rowBytes (codeWidth (dFld dsc 0 15 12)) (aD dsc)
      let good := rows.filter fun i => !bad.contains i
      let s1 := if undef then tickFree 0x2000000 (freeSpans die unit (attnWrites dsc) s)
        else good.foldl (fun x i => scratchWrite die unit (out.off i) (r.getD i {}).el x) s
      let s2 := bad.foldl (fun x i => setTile die unit ((tileSt x die unit).poison (out.off i) len) x) s1
      let s3 := addProg (pSmu die unit) 7 good.length (addProg (pSmu die unit) 1 (len * good.length) s2)
      let fl := if undef then freeFlags s
        else good.foldl (fun a i => a ||| (r.getD i {}).fl) 0
      let s4 := if bad = [] then s3 else mxFail die unit queue op (pSmu die unit) unit 0x20 0x17 0 false s3
      .next (addProg (pSmu die unit) 0 1 (mxComplete die unit queue fl (bad != []) s4))

end Sys2Proof.Machine
end

