-- ==== Sys2Proof/Machine/Disp.lean ====
section
/-! DEFINITION. The dispatcher (11_submission.md, 15_recovery.md Guilty rings): rings, started commands, how they end,
guilty rings, ageing, the round of slices, ranking and placement. -/

namespace Sys2Proof.Machine

/-! ### Rings -/

/-- A submission ring. -/
def ringSt (s : State) (r : Nat) : Ring := sget (fun _ => ({} : Ring)) s.disp.rings r

def setRing (r : Nat) (v : Ring) (s : State) : State :=
  { s with disp := { s.disp with rings := sput (fun _ => ({} : Ring)) s.disp.rings r v } }

/-- The page of the dispatcher in service (R529, R692). -/
def pDsp (s : State) : Nat := if s.disp.primary = 0 then pDispatch else pStandby

/-- Whether the dispatcher starts commands, issues tasks and writes records: not in HOLD, in a failover or after a device
fault, and its unit active (R692, R695, R757). -/
def dispRuns (s : State) : Bool :=
  !s.inHold && !s.disp.failover && !devFault s && decide ((unitSt s (pDsp s)).state = .active)

/-- Whether it starts commands too: not during an ORDER_FIRST recovery (R698). -/
def dispStarts (s : State) : Bool := dispRuns s && !s.disp.paused

/-- The slice a ring's group is assigned to, as the dispatcher acts on the map (R479, R665). -/
def sliceOfRing (s : State) (r : Nat) : Option Nat :=
  let g := r / 64
  let b := fld (stg s pDispatch 0 pSlice (0x100 + 4 * (g / 4))) (8 * (g % 4) + 7) (8 * (g % 4))
  if nbit b 7 ∧ sliceEnabled s pDispatch (b % 64) then some (b % 64) else none

/-- Whether a function may use a ring: its own, or any for the PF and Holog (R530, R639, R640). -/
def fnOwnsRing (s : State) (fn r : Nat) : Bool :=
  match sliceOfRing s r with
  | some sl => sliceFunc s pDispatch sl == fn
  | none => false

def fnMayRing (s : State) (fn r : Nat) : Bool := fn == 0 || fn == 64 || fnOwnsRing s fn r

/-- Distance of two 17-bit indices. -/
def idxDiff (a b : Nat) : Nat := (a % 0x20000 + 0x20000 - b % 0x20000) % 0x20000

/-- Slots a ring's queue holds: those of the entry in force, 2^16 while OFF (R483). -/
def ringCapacity (r : Ring) : Nat := if r.state = .off then 0x10000 else 2 ^ r.ent.sqLog2

/-- BAD_DB and BAD_RING (R531). -/
def badDb (s : State) : State := event (pDsp s) 1 s
def badRing (s : State) : State := event (pDsp s) 2 s

/-- Whether a context is bound to a slice as the dispatcher acts on the bindings (R489). -/
def boundTo (s : State) (pasid slice : Nat) : Bool :=
  (bindingsAt s pDispatch).any fun b => b.pasid == pasid && b.slice == slice

/-! ### Started commands -/

/-- The started command of a ring with a start number. -/
def findCmd (s : State) (ring no : Nat) : Option Cmd := s.disp.cmds.find? fun c => c.ring == ring && c.no == no

/-- Change a started command. -/
def updCmd (ring no : Nat) (f : Cmd → Cmd) (s : State) : State :=
  { s with disp := { s.disp with cmds := s.disp.cmds.map fun c => if c.ring = ring ∧ c.no = no then f c else c } }

/-- The commands of a ring whose records are not written, in order of start. -/
def ringCmds (s : State) (ring : Nat) : List Cmd := s.disp.cmds.filter fun c => c.ring == ring

/-- Started and incomplete commands of a ring (R488). -/
def inFlight (s : State) (ring : Nat) : Nat := ((ringCmds s ring).filter fun c => c.status.isNone).length

/-- The context of a command for an error record (R671). -/
def Cmd.ctx (c : Cmd) : ErrRec :=
  { ctxValid := true, pasid := c.pasid, slice := c.slice, ring := c.ring, seq := c.seq, srcLogical := 0x3F }

/-- The error record of a failure of a command at a unit's page. -/
def cmdErr (s : State) (c : Cmd) (p cls dt : Nat) : ErrRec :=
  { c.ctx with cls := cls, detail := dt, gen := (unitSt s p).gen.toNat, srcDie := pageDie p, srcUnit := pageUnit p }

/-- Whether a task belongs to a command. -/
def Task.of (k : Task) (ring no : Nat) : Bool := k.ring == ring && k.no == no

/-- Whether a tile runs, or has been issued, a task of a command. -/
def tileOf (t : TileSt) (ring no : Nat) : Bool :=
  (match t.task with | some k => k.of ring no | none => false)
    || (match t.issued with | some k => k.of ring no | none => false)

/-- The tiles of a command, by die × 15 + unit. -/
def liveTiles (s : State) (ring no : Nat) : List Nat := (s.tiles.tiles.filter fun e => tileOf e.2 ring no).map fun e => e.1

/-- Whether work of a command is still in some unit. -/
def cmdBusy (s : State) (ring no : Nat) : Bool :=
  liveTiles s ring no != [] || (s.xfer.msgs.any fun m => m.ring == ring && m.no == no)
    || (s.xfer.plans.any fun p => p.2.ring == ring && p.2.no == no)

/-- A field of a command's bytes. -/
def Cmd.fld (c : Cmd) (off hi lo : Nat) : Nat := nfld (bytesAt c.raw off 8) hi lo

/-- Tasks of a KERNEL or STEP (R490). -/
def Cmd.tasks (c : Cmd) : Nat := c.fld 36 23 0 + 1

/-- Whether a command runs tile tasks. -/
def Cmd.isKernel (c : Cmd) : Bool := c.opc == 1 || c.opc == 2

/-- Whether a command has an unissued task (R515). -/
def Cmd.unissued (c : Cmd) : Bool := c.isKernel && c.launched && c.fail.isNone && c.status.isNone && decide (c.nextTask < c.tasks)

/-- Level of a command: its ring's PRIO raised by promotions 1 to 3 (R516). -/
def Cmd.lvl (c : Cmd) : Nat := min 3 (c.level + min c.promo 3)

/-- Whether a command is URGENT (R516). -/
def Cmd.urgent (c : Cmd) : Bool := decide (4 ≤ c.promo)

/-- A logical tile's physical tile. -/
def tileAt (s : State) (lt : Nat) : TileSt := tileSt s (lt / 12) ((tileUnit s lt).getD 0)

/-- Whether a logical tile is BUSY (R513). -/
def tileBusy (s : State) (lt : Nat) : Bool := (tileAt s lt).task.isSome || (tileAt s lt).issued.isSome

/-- The command a logical tile runs. -/
def tileCmd (s : State) (lt : Nat) : Option (Nat × Nat) :=
  match (tileAt s lt).task with
  | some k => some (k.ring, k.no)
  | none => (tileAt s lt).issued.map fun k => (k.ring, k.no)

/-- Whether a command still has a task to issue. -/
def stillIssues (s : State) (c : Nat × Nat) : Bool :=
  match findCmd s c.1 c.2 with
  | some x => x.unissued
  | none => false

/-- Whether a moving tile is still kept for the command that was running there (R518, R651). -/
def movingHolds (s : State) (lt : Nat) (run : Option (Nat × Nat)) : Bool :=
  match run with
  | some j => stillIssues s j || tileCmd s lt == some j
  | none => false

/-- Whether a tile's move has still something to wait for: that command, or residency of the slice it leaves. -/
def movingOpen (s : State) (lt slice : Nat) (run : Option (Nat × Nat)) : Bool :=
  movingHolds s lt run || (match slook s.disp.resid lt with | some x => x.slice == slice | none => false)

/-! ### Ageing and the round of slices -/

/-- AGE_CFG (R529). -/
def ageEn (s : State) : Bool := bitOf (rd s (pDsp s) 0x104) 16
def ageMs (s : State) : Nat := if fld (rd s (pDsp s) 0x104) 15 0 = 0 then 20 else fld (rd s (pDsp s) 0x104) 15 0

/-- The age clock of a command now, in ns. -/
def Cmd.ageNow (c : Cmd) (now : Nat) : Nat := c.age + if c.ageOn then now - c.ageAt else 0

/-- Count every age clock to now and decide which of them run: those of commands with an unissued task, while AGE_EN is
set and the device is not in HOLD (R516, R758). -/
def ageSync (s : State) : State :=
  { s with disp := { s.disp with cmds := s.disp.cmds.map fun c =>
      { c with age := c.ageNow s.now, ageAt := s.now, ageOn := c.unissued && ageEn s && !s.inHold } } }

/-- A common multiple of every weight 1 to 255 (R637): weighted counts are kept as whole numbers of its parts. -/
def wScale : Nat := (List.range 255).foldl (fun a i => Nat.lcm a (i + 1)) 1

/-- The sharing slices of a round after a change of which slices have ready work: a slice that joins starts with the
lowest count among those sharing, or 0 (R637). -/
def roundSync (ready : List Nat) (r : List (Nat × Nat)) : List (Nat × Nat) :=
  let kept := r.filter fun e => ready.contains e.1
  let low := match kept with
    | [] => 0
    | e :: t => t.foldl (fun m x => min m x.2) e.2
  ready.foldl (fun l x => if (slook l x).isSome then l else sadd l x low) kept

/-- The weighted count of a slice in a round. -/
def roundCount (r : List (Nat × Nat)) (slice : Nat) : Nat := (slook r slice).getD 0

/-- Charge work to a slice in a round; a weight of 0 acts as 1 (R637). -/
def roundCharge (slice work weight : Nat) (r : List (Nat × Nat)) : List (Nat × Nat) :=
  match slook r slice with
  | some n => sadd r slice (n + work * wScale / (if weight = 0 then 1 else weight))
  | none => r

/-- Whether a slice takes part in rounds: enabled and not CONTAINED (R637). -/
def slicePlays (s : State) (u slice : Nat) : Bool := sliceEnabled s u slice && !(sliceSt s slice).contained

/-- Elements of a list once each, in rising order of first appearance. -/
def dedupNat (l : List Nat) : List Nat := l.foldl (fun a x => if a.contains x then a else a ++ [x]) []

/-- Bring the age clocks and the task round up to date after any change of the commands. -/
def dispSync (s : State) : State :=
  let s1 := ageSync s
  let ready := dedupNat ((s1.disp.cmds.filter fun c => c.unissued && slicePlays s1 pDispatch c.slice).map fun c => c.slice)
  { s1 with disp := { s1.disp with
      round := roundSync ready s1.disp.round, moving := s1.disp.moving.filter fun e => movingOpen s1 e.1 e.2.1 e.2.2 } }

/-! ### How commands end -/

/-- Whether a status makes a covering BARRIER_COMPLETE fail (R687). -/
def coverBad (cls : Nat) : Bool := cls == 0x20 || cls == 0x21 || cls == 0x30 || cls == 0x31 || cls == 0x40 || cls == 0x41

/-- The status of a BARRIER_COMPLETE of a ring with a start number (R687). -/
def barrierStatus (r : Ring) (no : Nat) : Nat × Nat :=
  match r.cover.foldl (fun (b : Option (Nat × Nat)) e => if e.1 < no then
      (match b with | some x => if e.1 < x.1 then some e else some x | none => some e) else b) none with
  | some e => (e.2, 0x14)
  | none => (0, 0)

/-- The BARRIER_COMPLETE of a ring that now completes: taken by the dispatcher, with every earlier command complete. -/
def barrierReady (s : State) (ring : Nat) : Option Cmd :=
  (ringCmds s ring).find? fun b => b.opc == 0x0A && b.launched && b.status.isNone && b.fail.isNone
    && (ringCmds s ring).all fun c => c.status.isSome || decide (b.no ≤ c.no)

/-- Record a command's end (R375, R531); its pool may take its next STEP (R268), and its unmet claims are dropped (R518). -/
def endRecord (c : Cmd) (st : Nat × Nat) (s : State) : State :=
  let s1 := updCmd c.ring c.no (fun x => { x with status := some st, endTs := s.now, ageOn := false, age := x.ageNow s.now }) s
  let s2 := if 0x10 ≤ st.1 then event (pDsp s1) 0 s1 else s1
  let r := ringSt s2 c.ring
  let cover := if c.opc = 0x0A then r.cover.filter fun e => decide (c.no < e.1)
    else if coverBad st.1 then r.cover ++ [(c.no, st.1)] else r.cover
  let s3 := setRing c.ring { r with cover := cover } s2
  { s3 with
    disp := { s3.disp with claims := s3.disp.claims.filter fun e => !(e.2.ring == c.ring && e.2.no == c.no) }
    steward := { s3.steward with running := s3.steward.running.filter fun e => decide (e.2 ≠ (c.ring, c.no)) } }

/-- The BARRIER_COMPLETE of a ring that waited for its earlier commands completes (R377, R687). -/
def finishBarrier (ring : Nat) (s : State) : State :=
  match barrierReady s ring with
  | some b =>
    let bs := barrierStatus (ringSt s ring) b.no
    let s1 := endRecord b bs s
    if bs.1 = 0 then s1 else captureErr pWatchdog (cmdErr s1 b pWatchdog bs.1 bs.2) s1
  | none => s

/-- A command is complete: its status stands, its unmet claims are dropped (R518), and a BARRIER_COMPLETE that waited
for it completes (R377, R687). -/
def endCmd (ring no : Nat) (st : Nat × Nat) (s : State) : State :=
  match findCmd s ring no with
  | none => s
  | some c =>
    if c.status.isSome then s
    else
      dispSync (finishBarrier ring (endRecord c st s))

/-- A command whose work has all ended completes: with the status it failed with, or OK; a STEP that has its stage 5 to
come waits for it (R269). -/
def maybeFinish (ring no : Nat) (s : State) : State :=
  match findCmd s ring no with
  | none => s
  | some c =>
    if c.status.isSome ∨ cmdBusy s ring no then s
    else
      match c.fail with
      | some st => endCmd ring no st s
      | none =>
        if c.launched ∧ !c.unissued ∧ c.step = [] ∧ c.opc ≠ 7 ∧ c.opc ≠ 9 ∧ c.opc ≠ 0x0A then endCmd ring no (0, 0) s else s

/-- Give a command the status it will complete with, unless it has one. -/
def failCmd (ring no : Nat) (st : Nat × Nat) (s : State) : State :=
  updCmd ring no (fun c => if c.fail.isNone ∧ c.status.isNone then { c with fail := some st } else c) s

/-! ### Teardown -/

/-- Drop messages of the copy engines: chunks sent and not acknowledged are cancelled (R602), and the device forgets
their transfers (R600, R684). -/
def dropMsgs (p : Msg → Bool) (s : State) : State :=
  let gone := (s.xfer.msgs.filter p).map fun m => m.id
  let mine (c : TxChunk) : Bool := match c.msg with | some i => gone.contains i | none => false
  let owed (key : Nat) : List Nat := (s.xfer.msgs.filter fun m => p m && m.queue * 4096 + m.node == key).flatMap fun m => m.owed
  { s with xfer := { s.xfer with
      msgs := s.xfer.msgs.filter fun m => !p m
      tx := s.xfer.tx.map fun e => (e.1, { e.2 with
        chunks := e.2.chunks.filter fun c => !mine c
        cancelled := e.2.cancelled ++ owed e.1 ++ (e.2.chunks.filter mine).map fun c => c.cseq }) } }

/-- Forget the streams messages hold on MIGRATING (R462, R684): a message's stream at its engine is its number. -/
def dropMsgHolds (p : Msg → Bool) (s : State) : State :=
  let gone := (s.xfer.msgs.filter p).map fun m => 0x1000 + m.id
  { s with xlate := { s.xlate with heldStreams := s.xlate.heldStreams.filter fun h =>
      !(pageKind h.holder == some .copyEngine && gone.contains h.stream) } }

/-- A task placed and not started is taken back: the residency it took stays on the tile (R684). -/
def unissue (d u : Nat) (k : Task) (s : State) : State :=
  if k.pinned then
    let r : Resid := { pasid := k.pasid, slice := k.slice, pin := (tileSt s d u).pin }
    { s with disp := { s.disp with resid := sadd s.disp.resid (12 * d + logicalTile s d u) r } }
  else s

/-- Tear down the work of a command (R684): unissued tasks are not issued, running tasks are aborted with their sets,
messages stop at their chunk boundary, plans issue no further step, claims are dropped. -/
def stopWork (ring no : Nat) (s : State) : State :=
  let mine (m : Msg) : Bool := m.ring == ring && m.no == no
  let s1 := (liveTiles s ring no).foldl (fun t k =>
    let d := k / 15
    let u := k % 15
    let x := tileSt t d u
    let t1 := match x.issued with
      | some y => if y.of ring no then unissue d u y (setTile d u { x with issued := none } t) else t
      | none => t
    if (match x.task with | some y => y.of ring no && !y.aborted | none => false) then abortSet d u t1 else t1) s
  let s2 := dropMsgs mine (dropMsgHolds mine s1)
  { s2 with
    xfer := { s2.xfer with plans := s2.xfer.plans.filter fun p => !(p.2.ring == ring && p.2.no == no) }
    disp := { s2.disp with claims := s2.disp.claims.filter fun e => !(e.2.ring == ring && e.2.no == no) } }

/-- Abort a command: its work is torn down and it completes with `st`, which the WATCHDOG page records (R526, R683,
R720). -/
def abortCmd (st : Nat × Nat) (c : Cmd) (s : State) : State :=
  if c.status.isSome then s
  else
    let s1 := if c.fail.isNone then captureErr pWatchdog (cmdErr s c pWatchdog st.1 st.2) (failCmd c.ring c.no st s) else s
    maybeFinish c.ring c.no (stopWork c.ring c.no s1)

/-- A ring enters GUILTY for its command C (R683): no further start, the ring's GEN rises, C's remaining work is torn
down; later commands that have issued no work are SKIPPED, others torn down; earlier ones run on. -/
def guiltyEnter (ring no : Nat) (st : Nat × Nat) (s : State) : State :=
  let r := ringSt s ring
  let s0 := if r.state ≠ .guilty ∧ bitOf (rd s pWatchdog 0x104) 1 then hatTrigger 5 s else s
  let s1 := if r.state = .guilty then s
    else event (pDsp s) 5 (setRing ring { r with state := .guilty, gen := r.gen + 1, enableReq := false } s0)
  let s2 := maybeFinish ring no (stopWork ring no (failCmd ring no st s1))
  dispSync (if r.state = .guilty then s2
    else ((ringCmds s2 ring).filter fun c => decide (no < c.no) && c.status.isNone).foldl
      (fun t c => abortCmd (if c.worked then (0x30, 0x02) else (0x32, 0x21)) c t) s2)

/-- A command fails with a status at a unit that records it: class 0x10 to 0x13 makes its ring GUILTY (R682). -/
def failHere (c : Cmd) (st : Nat × Nat) (guilty : Bool) (s : State) : State :=
  if guilty then guiltyEnter c.ring c.no st s
  else dispSync (maybeFinish c.ring c.no (failCmd c.ring c.no st s))

/-- Whether a slice that quiesces is quiet (R658): every ring of it OFF, no task, message or plan in progress, no STEP or
PAGES command of its pool running. -/
def sliceQuiet (s : State) (slice : Nat) : Bool :=
  (s.disp.rings.all fun e => decide (e.2.state = .off) || sliceOfRing s e.1 != some slice)
  && (s.tiles.tiles.all fun e => (match e.2.task with | some k => k.slice != slice | none => true)
      && (match e.2.issued with | some k => k.slice != slice | none => true))
  && (s.xfer.msgs.all fun m => m.slice != slice) && (s.xfer.plans.all fun p => p.2.slice != slice)
  && (s.steward.running.all fun e => e.1 != slice)

/-- SL_CTRL.QUIESCE of a slice (R658, R666). -/
def quiescing (s : State) (slice : Nat) : Bool := bitOf (rd s (sliceReg slice 4).1 (sliceReg slice 4).2) 0

/-- EVT_STAT.QUIESCED of the SLICE page rises when a quiescing slice becomes quiet (R658, R665). -/
def noteQuiet (slice : Nat) (s : State) : State :=
  let q := quiescing s slice && sliceQuiet s slice
  let x := sliceSt s slice
  if q = x.quiet then s
  else
    let s1 := setSliceSt slice { x with quiet := q } s
    if q then event pSlice 2 s1 else s1

/-- The slice of a ring looked at for R658. -/
def noteQuietRing (ring : Nat) (s : State) : State :=
  match sliceOfRing s ring with
  | some sl => noteQuiet sl s
  | none => s

/-- The ring's state once the records of its started commands are written (R524, R525, R685). -/
def settleRing (ring : Nat) (s : State) : State :=
  let r := ringSt s ring
  if ringCmds s ring ≠ [] then s
  else if r.state = .draining then noteQuietRing ring (setRing ring { r with state := .off } s)
  else if r.state = .off then noteQuietRing ring s
  else if r.state = .guilty ∧ r.enableReq ∧ !r.stuck then
    setRing ring { r with state := .active, enableReq := false, cover := [] } s
  else s

/-- Whether a command stands behind the order of an earlier BARRIER_ORDER (R377): an earlier command before that
barrier is incomplete, so no access of this one may be made yet. -/
def orderHeld (s : State) (c : Cmd) : Bool :=
  (ringCmds s c.ring).any fun b => b.opc == 9 && decide (b.no < c.no)
    && (ringCmds s c.ring).any fun e => decide (e.no < b.no) && e.status.isNone

/-- The command of a ring that its unit can take now, by opcode and sequence number. -/
def waitingCmd (s : State) (ring seq opc : Nat) : Option Cmd :=
  s.disp.cmds.find? fun c => c.ring == ring && c.seq == seq && c.opc == opc && !c.launched && c.fail.isNone && c.status.isNone
    && !orderHeld s c

/-! ### Placement -/

/-- Logical tiles of a slice's reservation as the dispatcher acts on it (R633, R635). -/
def rsvBit (s : State) (slice lt : Nat) : Bool := bitOf (slStg s pDispatch slice (0x10 + 4 * (lt / 32))) (lt % 32)

/-- The enabled slice a logical tile is reserved to. -/
def reservedTo (s : State) (lt : Nat) : Option Nat :=
  (List.range 64).find? fun sl => sliceEnabled s pDispatch sl && rsvBit s sl lt

/-- Whether a slice can use a logical tile (R513, R635). -/
def usableBy (s : State) (slice lt : Nat) : Bool :=
  (tileUnit s lt).isSome && (match reservedTo s lt with
    | some x => x == slice
    | none => sliceEnabled s pDispatch slice && bitOf (slStg s pDispatch slice 0x00) 11)

/-- Whether a logical tile is free for a task of a command (R513, R517, R518, R651, R681, R706). -/
def freeFor (s : State) (c : Cmd) (lt : Nat) : Bool :=
  match tileUnit s lt with
  | none => false
  | some u =>
    let own := match slook s.disp.resid lt with | some x => x.pasid == c.pasid | none => true
    decide (pageState s (pTile (lt / 12) u) = .active) && !tileBusy s lt && own && !s.disp.leaving.contains lt
    && (match slook s.disp.claims lt with
        | some cl =>
          if cl.running = some (c.ring, c.no) then true
          else cl.ring == c.ring && cl.no == c.no && (match cl.running with | some j => !stillIssues s j | none => true)
        | none =>
          match slook s.disp.moving lt with
          | some m => m.2 == some (c.ring, c.no) || (!movingHolds s lt m.2 && usableBy s c.slice lt)
          | none => usableBy s c.slice lt)

/-- LAT_NS of a logical tile to a target (R49, R50). -/
def distLat (s : State) (lt target : Nat) : Nat := fld (sget (fun _ => (0 : Word)) s.org.dist (lt * 160 + target)) 11 0

/-- The affinity address of a task (R491), `none` without one; the flag says that the task counts in DSP_AFF_MISS. -/
def affinityVa (s : State) (c : Cmd) (i : Nat) : Option Nat × Bool × State :=
  match c.fld 36 25 24 with
  | 1 => (some ((bytesAt c.raw 40 8 + i * bytesAt c.raw 48 8) % 2 ^ 64), false, s)
  | 2 =>
    match translateNow pDispatch c.pasid (bytesAt c.raw 40 8 + 8 * i) .read s with
    | (.ok pa leaf, s1) =>
      let il := pteInterleaved leaf.toNat || inHost pa
      if pteMtype leaf.toNat = 3 ∨ cohPoisonN s1 il pa 8 then (none, true, s1)
      else
        let v := leNat (cohBytes s1 il pa 8)
        (if v = 0 then none else some v, false, s1)
    | _ => (none, true, s)
  | _ => (none, false, s)

/-- The home segment of a task's affinity address (R491). -/
def affinity (s : State) (c : Cmd) (i : Nat) : Option Nat × Bool × State :=
  match affinityVa s c i with
  | (none, m, s1) => (none, m, s1)
  | (some va, _, s1) =>
    match translateNow pDispatch c.pasid va .read s1 with
    | (.ok pa leaf, s2) =>
      if pteMtype leaf.toNat = 3 ∨ inHost pa then (none, true, s2)
      else (some (homeSeg pa (pteInterleaved leaf.toNat)), false, s2)
    | _ => (none, true, s1)

/-- The order of R54 on tiles: the smaller key is the better tile. -/
def placeKey (s : State) (c : Cmd) (aff : Option Nat) (lt : Nat) : Nat × Nat × Nat :=
  (match aff with | some h => distLat s lt h | none => 0,
   if c.fld 32 26 26 = 1 then distLat s lt (96 + lt / 12) else 0, lt)

/-- Whether one key is better than another. -/
def keyLt (a b : Nat × Nat × Nat) : Bool :=
  decide (a.1 < b.1) || (a.1 == b.1 && (decide (a.2.1 < b.2.1) || (a.2.1 == b.2.1 && decide (a.2.2 < b.2.2))))

/-- Put an element into a list ordered by `lt`. -/
def orderedInsert {α : Type} (lt : α → α → Bool) (x : α) : List α → List α
  | [] => [x]
  | y :: t => if lt x y then x :: y :: t else y :: orderedInsert lt x t

/-- Order a list. -/
def sortBy {α : Type} (lt : α → α → Bool) (l : List α) : List α := l.foldl (fun a x => orderedInsert lt x a) []

/-- Members of a cluster task set (R129, R490). -/
def Cmd.cw (c : Cmd) : Nat := match c.fld 32 17 16 with | 0 => 1 | 1 => 2 | _ => 4

/-- The cluster, die × 3 + cluster, of a logical tile's physical unit. -/
def clusterOf (s : State) (lt : Nat) : Nat := lt / 12 * 3 + (tileUnit s lt).getD 0 / 5

/-- The logical tiles a command holds: BUSY with it or CLAIMED for it (R514). -/
def heldTiles (s : State) (c : Cmd) : List Nat :=
  (List.range 96).filter fun lt => tileCmd s lt == some (c.ring, c.no)
    || (match slook s.disp.claims lt with | some cl => cl.ring == c.ring && cl.no == c.no | none => false)

/-- Whether taking tiles keeps a command within TILE_CAP (R490, R514). -/
def capAllows (s : State) (c : Cmd) (add : List Nat) : Bool :=
  let cap := c.fld 56 7 0
  let h := heldTiles s c
  cap == 0 || decide (h.length + (add.filter fun x => !h.contains x).length ≤ cap)

/-- A free barrier instance of a cluster (R130). -/
def freeBar (s : State) (cl : Nat) : Option Nat :=
  [0, 1].find? fun i => !(clusterBar s (cl / 3) (cl % 3) i).active

/-- The tiles a command's next task or task set is placed on (R54, R129, R130, R514), members in order. -/
def placeTiles (s : State) (c : Cmd) (aff : Option Nat) : Option (List Nat) :=
  let free := sortBy (fun a b => keyLt (placeKey s c aff a) (placeKey s c aff b)) ((List.range 96).filter fun lt => freeFor s c lt)
  if c.cw = 1 then (free.find? fun lt => capAllows s c [lt]).map fun lt => [lt]
  else
    (free.find? fun lt =>
      let mates := (free.filter fun x => clusterOf s x == clusterOf s lt).take c.cw
      decide (mates.length = c.cw) && (freeBar s (clusterOf s lt)).isSome && capAllows s c mates).map fun lt =>
        (free.filter fun x => clusterOf s x == clusterOf s lt).take c.cw

/-- The rank of a command (R515), compared from the left; among equal starts of one ring the earlier comes first. -/
def rankOf (s : State) (c : Cmd) : List Int :=
  [ if c.urgent then 1 else 0, if c.urgent then -(c.readyTs : Int) else (c.lvl : Int),
    -(roundCount s.disp.round c.slice : Int),
    -(((c.ring + 8192 - ((slook s.disp.turn c.slice).getD 8191) - 1) % 8192 : Nat) : Int),
    -(c.startTs : Int), -(c.no : Int) ]

/-- Lexicographic order on ranks. -/
def rankLt : List Int → List Int → Bool
  | a :: s, b :: t => decide (a < b) || (a == b && rankLt s t)
  | _, _ => false

/-- Put a task on a logical tile: it takes the tile's pinned residency, or the context's saved slot there (R513, R520). -/
def issueOn (c : Cmd) (lt member bar : Nat) (mates : List Nat) (s : State) : State :=
  let d := lt / 12
  let u := (tileUnit s lt).getD 0
  let held := (slook s.disp.resid lt).isSome
  let slot := s.disp.saved.any fun x => x.1 == c.pasid && x.2.1 == lt
  let k : Task := {
    pasid := c.pasid, slice := c.slice, ring := c.ring, no := c.no, seq := c.seq, ringGen := (ringSt s c.ring).gen
    sliceGen := (sliceSt s c.slice).gen, l1 := c.fld 32 1 0, regs := 8 * (c.fld 32 9 2 + 1), groups := c.fld 32 15 10 + 1
    cw := c.cw, member := member, bar := bar, pin := c.fld 32 25 18, index := c.nextTask + member, tasks := c.tasks
    code := bytesAt c.raw 16 8, argVa := bytesAt c.raw 24 8, stepVa := if c.opc = 2 then bytesAt c.raw 64 8 else 0
    pinned := held, restore := !held && slot
    setTiles := if c.cw = 1 then [] else mates.map fun x => (tileUnit s x).getD 0 }
  let s1 := setTile d u { tileSt s d u with issued := some k } s
  let p := sliceReg c.slice 0x38
  add64 p.1 p.2 1 (addProg (pDsp s1) 0 1 { s1 with disp := { s1.disp with
    resid := serase lt s1.disp.resid
    claims := s1.disp.claims.filter fun e => !(decide (e.1 = lt) && e.2.ring == c.ring && e.2.no == c.no) } })

/-- Issue a command's next task or task set on tiles (R511, R515). -/
def issueTasks (c : Cmd) (lts : List Nat) (s : State) : State :=
  let cl := clusterOf s (lts.headD 0)
  let bar := (freeBar s cl).getD 0
  let s1 := lts.zipIdx.foldl (fun t e => issueOn c e.1 e.2 bar lts t) s
  let groups := c.fld 32 15 10 + 1
  let s2 := if c.cw = 1 then s1
    else setClusterBar (cl / 3) (cl % 3) bar {
      active := true, members := lts.map fun x => (tileUnit s x).getD 0, cw := c.cw, expected := c.cw * groups } s1
  let w := fld (slStg s2 pDispatch c.slice 0x0C) 7 0
  let s3 := updCmd c.ring c.no (fun x => { x with
    nextTask := x.nextTask + lts.length, worked := true, prioAt := c.lvl, urgentAt := c.urgent }) s2
  dispSync { s3 with disp := { s3.disp with
    round := roundCharge c.slice lts.length w s3.disp.round, turn := sadd s3.disp.turn c.slice c.ring } }

/-- The commands that could place a task now, best rank first (R515). -/
def issuable (s : State) : List Cmd :=
  sortBy (fun a b => rankLt (rankOf s b) (rankOf s a))
    (s.disp.cmds.filter fun c => c.unissued && slicePlays s pDispatch c.slice && (placeTiles s c none).isSome)

end Sys2Proof.Machine
end

