-- ==== Sys2Proof/Machine/Sequences.lean ====
section
/-! DEFINITION. The batch steward: sequences, batch steps and the page pool (06_sequences.md; rows STEP, STEP_RELEASE,
PAGES_GROW, PAGES_TRIM, PAGES_RESET). The steward's accesses go through the dispatcher's TLB in the command's context. -/

namespace Sys2Proof.Machine

/-! ### Pool registers and storage -/

/-- POOL_CFG and the storage registers of a slice's pool, as the page allocator acts on them (R294). -/
def poolPasid (s : State) (sl : Nat) : Nat := fld (stg s pPageAlloc sl pPools 0x104) 19 0
def poolEn (s : State) (sl : Nat) : Bool := bitOf (stg s pPageAlloc sl pPools 0x104) 20
def poolBase (s : State) (sl : Nat) : Nat := stg64 s pPageAlloc sl pPools 0x108
def laneCap (s : State) (sl : Nat) : Nat := fld (stg s pPageAlloc sl pPools 0x110) 23 0
def seqBase (s : State) (sl : Nat) : Nat := fld (stg s pPageAlloc sl pPools 0x114) 13 0
def seqCount (s : State) (sl : Nat) : Nat := fld (stg s pPageAlloc sl pPools 0x114) 28 14

/-- Whether a sequence ID lies in a slice's range; of two slices that share it only the lower-numbered has it (R256). -/
def seqInRange (s : State) (sl q : Nat) : Bool := decide (seqBase s sl ≤ q) && decide (q < seqBase s sl + seqCount s sl)

def seqOwned (s : State) (sl q : Nat) : Bool :=
  seqInRange s sl q && (List.range sl).all fun x => !seqInRange s x q

/-- Read and write the steward's own storage: physical addresses homed INTERLEAVED (R261). -/
def rdTier (s : State) (pa n : Nat) : Nat := leNat (cohBytes s true pa n)
def wrTier (slice pa : Nat) (bs : List Byte) (s : State) : State := cohWrite true (some slice) pa bs (logDirty slice pa s)

/-- The free count of a lane (R261). -/
def laneFree (s : State) (sl k : Nat) : Nat := rdTier s (poolBase s sl + 8 * k) 8

def setLaneFree (sl k n : Nat) (s : State) : State := wrTier sl (poolBase s sl + 8 * k) (leBytes 8 n) s

/-- Entry `i` of a lane (R261). -/
def laneEntryPa (s : State) (sl k i : Nat) : Nat := poolBase s sl + 0x400 + 16 * (k * laneCap s sl + i)

def laneEntry (s : State) (sl k i : Nat) : List Byte := cohBytes s true (laneEntryPa s sl k i) 16

/-- Push entries onto a lane, the first first. -/
def lanePush (sl k : Nat) (l : List (List Byte)) (s : State) : State :=
  let n := laneFree s sl k
  setLaneFree sl k (n + l.length) (l.zipIdx.foldl (fun t e => wrTier sl (laneEntryPa t sl k (n + e.2)) e.1 t) s)

/-- Whether a pool entry is well formed (R213, R259). -/
def poolEntryOk (b : List Byte) : Bool :=
  let lo := bytesAt b 0 8
  let hi := bytesAt b 8 8
  nbit lo 0 && nfld lo 15 1 == 0 && nfld lo 63 49 == 0 && nfld hi 11 0 == 0 && nfld hi 63 49 == 0

/-- The lane of a page index (R262): the lanes of the mask in rising order. -/
def laneOf (e mask : Nat) : Nat :=
  let l := (List.range 8).filter fun k => nbit mask k
  l.getD (e % l.length) 0

/-! ### Sequence records (R257) -/

/-- A record of the sequence table. -/
structure SeqRec where
  active : Bool := false
  log2t : Nat := 0
  layers : Nat := 1
  mask : Nat := 0
  fb : Bool := false
  slice : Nat := 0
  eBegin : Nat := 0
  eEnd : Nat := 0
  held : Nat := 0
  base : Nat := 0
  stride : Nat := 0
  last : Nat := 0
  stalls : Nat := 0
deriving DecidableEq, Repr

/-- The record 64 bytes spell. -/
def seqDecode (b : List Byte) : SeqRec :=
  let w := bytesAt b 0 4
  { active := nbit w 0, log2t := nfld w 4 1, layers := nfld w 12 5 + 1, mask := nfld w 20 13, fb := nbit w 21
    slice := nfld w 27 22, eBegin := bytesAt b 4 4 % 0x400000, eEnd := bytesAt b 8 4 % 0x400000, held := bytesAt b 12 4
    base := bytesAt b 16 8, stride := bytesAt b 24 4, last := bytesAt b 28 4, stalls := bytesAt b 32 4 }

/-- The 64 bytes of a record. -/
def seqEncode (r : SeqRec) : List Byte :=
  leBytes 4 (b2n r.active + 2 * r.log2t + 0x20 * (r.layers - 1) + 0x2000 * r.mask + 0x200000 * b2n r.fb + 0x400000 * r.slice) ++
  leBytes 4 r.eBegin ++ leBytes 4 r.eEnd ++ leBytes 4 r.held ++ leBytes 8 r.base ++ leBytes 4 r.stride ++
  leBytes 4 r.last ++ leBytes 4 r.stalls ++ List.replicate 28 0

/-- Where a sequence's record lies. -/
def seqPa (s : State) (q : Nat) : Nat := stg64 s pPageAlloc 0 pPageAlloc 0x100 + 64 * q

def seqRec (s : State) (q : Nat) : SeqRec := seqDecode (cohBytes s true (seqPa s q) 64)

def putSeqRec (sl q : Nat) (r : SeqRec) (s : State) : State := wrTier sl (seqPa s q) (seqEncode r) s

/-- Tokens per page. -/
def SeqRec.t (r : SeqRec) : Nat := 2 ^ r.log2t

/-- The list entry of a layer and index (R258). -/
def SeqRec.entryVa (r : SeqRec) (layer e : Nat) : Nat := (r.base + layer * r.stride + 16 * e) % 2 ^ 64

/-! ### Entries of a STEP (R266) -/

/-- One entry as the steward reads it. -/
structure SEnt where
  kind : Nat
  seq : Nat
  bad : Bool
  log2t : Nat
  layers : Nat
  fb : Bool
  endPos : Nat
  mask : Nat
  tlo : Option Nat
  thi : Option Nat
  base : Nat
  stride : Nat
deriving DecidableEq, Repr

/-- Decode an entry; `bad` where a reserved bit or a field the kind does not use is set, or KIND is 3. -/
def sentDecode (b : List Byte) : SEnt :=
  let w0 := bytesAt b 0 4
  let w1 := bytesAt b 4 4
  let w2 := bytesAt b 8 4
  let w3 := bytesAt b 12 4
  let kind := nfld w0 1 0
  let join := decide (kind = 1)
  let cont := decide (kind = 0)
  { kind := kind, seq := nfld w0 15 2, log2t := nfld w0 19 16, layers := nfld w0 27 20 + 1, fb := nbit w0 28
    endPos := nfld w1 21 0, mask := nfld w1 29 22
    tlo := if cont && nbit w2 22 then some (nfld w2 21 0) else none
    thi := if cont && nbit w3 22 then some (nfld w3 21 0) else none
    base := bytesAt b 16 8, stride := bytesAt b 24 4
    bad := kind == 3 || nfld w0 31 29 != 0 || nfld w1 31 30 != 0 || nfld w2 31 23 != 0 || nfld w3 31 23 != 0
      || bytesAt b 28 4 != 0 || (!join && (nfld w0 28 16 != 0 || nfld w1 29 22 != 0 || bytesAt b 16 8 != 0 || bytesAt b 24 4 != 0))
      || (!cont && (w2 != 0 || w3 != 0)) || (kind == 2 && nfld w1 21 0 != 0) }

/-- The checks of R267 on one entry with its record: the details it earns. -/
def sentDetails (s : State) (sl : Nat) (dup : Bool) (x : SEnt) (r : SeqRec) : List Nat :=
  if x.bad then [2]
  else
    let t := if x.kind = 1 then 2 ^ x.log2t else r.t
    let stride := if x.kind = 1 then x.stride else r.stride
    let eb := if x.kind = 1 then 0 else r.eBegin
    (if seqOwned s sl x.seq then [] else [3]) ++ (if dup then [4] else []) ++
    (if (x.kind == 1) == r.active then [5]
     else if x.kind = 2 then []
     else if x.kind = 1 ∧ (10 < x.log2t ∨ x.mask = 0 ∨ x.base % 16 ≠ 0 ∨ x.stride = 0 ∨ x.stride % 16 ≠ 0) then
       (if 2097152 < x.endPos then [6, 8] else [8])
     else
       (if 2097152 < x.endPos ∨ stride / 16 * t < x.endPos ∨ (0 < eb ∧ x.endPos ≤ eb * t) then [6] else []) ++
       (if (match x.tlo with | some v => decide (x.endPos < v) | none => false)
          || (match x.thi with | some v => decide (v < x.endPos) | none => false) then [7] else []))

/-- The lowest of a list of details. -/
def minDetail : List Nat → Nat
  | [] => 0
  | a :: t => t.foldl min a

/-! ### The allocation phase (R273 to R278, R283) -/

/-- What the phase does for one entry: its place, result fields, the record it leaves, the list entries written, the
fallback records, the pages popped in order with their lanes. -/
structure EPlan where
  idx : Nat
  status : Nat
  eNew : Nat
  taken : Nat := 0
  srec : Option (Nat × SeqRec) := none
  writes : List (Nat × List Byte) := []
  fbs : List Fallback := []
  pops : List (Nat × List Byte) := []
  join : Option Nat := none
deriving DecidableEq, Repr

/-- The phase as it runs: free count of each lane, room in the fallback table, whether joins are blocked, plans. -/
structure Phase where
  free : List Nat
  room : Nat
  block : Bool := false
  plans : List EPlan := []
deriving DecidableEq, Repr

/-- The shares of an entry's need: home shares and takes by lane, or `none` where the pool is short (R274). -/
def takeShares (free : List Nat) (room : Nat) (fb : Bool) (mask : Nat) (need : List Nat) : Option (List Nat × List Nat) :=
  let home := (List.range 8).map fun l => min (need.getD l 0) (free.getD l 0)
  let short := need.foldl (· + ·) 0 - home.foldl (· + ·) 0
  let step (a : List Nat × Nat × Nat) (l : Nat) : List Nat × Nat × Nat :=
    if fb ∧ nbit mask l then
      let t := min (min a.2.1 (free.getD l 0 - a.1.getD l 0)) a.2.2
      (a.1.set l (a.1.getD l 0 + t), a.2.1 - t, a.2.2 - t)
    else a
  let r := (List.range 8).foldl step (home, short, room)
  if r.2.1 = 0 then some (home, r.1) else none

/-- Give out pages in rising index and layer (R275): `home` and `fall` are the shares left by lane, `top` the next
entry to pop of each lane. -/
def assign (s : State) (sl q : Nat) (r : SeqRec) : List (Nat × Nat) → List Nat → List Nat → List Nat → EPlan → EPlan
  | [], _, _, _, p => p
  | (e, layer) :: rest, home, fall, top, p =>
    let h := laneOf e r.mask
    let useHome := decide (0 < home.getD h 0)
    let lane := if useHome then h else ((List.range 8).find? fun k => decide (0 < fall.getD k 0)).getD 0
    let i := top.getD lane 0 - 1
    let b := laneEntry s sl lane i
    let p1 : EPlan := { p with
      writes := p.writes ++ [(r.entryVa layer e, b)], pops := p.pops ++ [(lane, b)], taken := p.taken + 1
      fbs := if useHome then p.fbs else p.fbs ++ [{ seq := q, layer := layer, e := e, lane := lane, slice := sl }] }
    assign s sl q r rest (if useHome then home.set h (home.getD h 0 - 1) else home)
      (if useHome then fall else fall.set lane (fall.getD lane 0 - 1)) (top.set lane i) p1

/-- take_all of R274 for an entry with record `r`: its pages from E_END up to END_POS. -/
def takeAll (s : State) (sl : Nat) (i q endPos : Nat) (r : SeqRec) (ph : Phase) : Option (EPlan × Phase) :=
  let es := (List.range ((endPos + r.t - 1) / r.t)).drop r.eEnd
  let need := (List.range 8).map fun l => ((es.filter fun e => laneOf e r.mask == l).length) * r.layers
  match takeShares ph.free ph.room r.fb r.mask need with
  | none => none
  | some (home, take) =>
    let fall := (List.range 8).map fun l => take.getD l 0 - home.getD l 0
    let pages := es.flatMap fun e => (List.range r.layers).map fun l => (e, l)
    let p := assign s sl q r pages home fall ph.free { idx := i, status := 0, eNew := r.eEnd }
    let ee := if es = [] then r.eEnd else max r.eEnd ((endPos + r.t - 1) / r.t)
    some ({ p with srec := some (q, { r with eEnd := ee, held := (r.held + p.taken) % 2 ^ 32 }) },
          { ph with free := (List.range 8).map fun l => ph.free.getD l 0 - take.getD l 0, room := ph.room - p.fbs.length })

/-- Serve one entry in the phase. -/
def serveEntry (s : State) (sl no : Nat) (fifo : Bool) (ph : Phase) (e : SEnt × SeqRec × Nat) : Phase :=
  let x := e.1
  let i := e.2.2
  let r := { e.2.1 with last := no }
  if x.kind = 2 then
    { ph with plans := ph.plans ++ [{ idx := i, status := 0, eNew := r.eEnd, srec := some (x.seq, r) }] }
  else if x.kind = 0 then
    match takeAll s sl i x.seq x.endPos r ph with
    | some (p, ph1) => { ph1 with plans := ph1.plans ++ [p] }
    | none => { ph with plans := ph.plans ++ [{ idx := i, status := 2, eNew := r.eEnd,
                                                srec := some (x.seq, { r with stalls := min (r.stalls + 1) 0xFFFFFFFF }) }] }
  else
    let j : SeqRec := { active := true, log2t := x.log2t, layers := x.layers, mask := x.mask, fb := x.fb, slice := sl,
                        base := x.base, stride := x.stride, last := no }
    match (if ph.block then none else takeAll s sl i x.seq x.endPos j ph) with
    | some (p, ph1) => { ph1 with plans := ph1.plans ++ [{ p with join := some x.seq }] }
    | none => { ph with block := ph.block || fifo, plans := ph.plans ++ [{ idx := i, status := 1, eNew := 0 }] }

/-- The allocation phase: continuing entries, joiners, leavers, each in entry order (R274). -/
def allocPhase (s : State) (sl no : Nat) (fifo : Bool) (l : List (SEnt × SeqRec)) : Phase :=
  let l' := l.zipIdx.map fun e => (e.1.1, e.1.2, e.2)
  let order := (l'.filter fun e => e.1.kind == 0) ++ (l'.filter fun e => e.1.kind == 1) ++ (l'.filter fun e => e.1.kind == 2)
  order.foldl (serveEntry s sl no fifo)
    { free := (List.range 8).map fun k => laneFree s sl k, room := 1048576 - s.steward.fallback.length }

/-! ### Applying a phase -/

/-- One page's write of a list entry, already translated. -/
def writeList (sl : Nat) (w : List Piece × List Byte) (s : State) : State := writePieces sl w.1 w.2 s

/-- Apply one entry's plan: list entries, record, fallback records, held pages (R274, R275, R283). -/
def applyPlan (sl : Nat) (p : EPlan × List (List Piece × List Byte)) (s : State) : State :=
  let s1 := p.2.foldl (fun t w => writeList sl w t) s
  let s2 := match p.1.srec with | some (q, r) => putSeqRec sl q r s1 | none => s1
  let s3 := wrB sl pPools 0x164 (BitVec.ofNat 32 ((rdB s2 sl pPools 0x164).toNat + p.1.taken)) s2
  { s3 with steward := { s3.steward with
      fallback := s3.steward.fallback ++ p.1.fbs
      active := match p.1.join with | some q => sadd s3.steward.active q sl | none => s3.steward.active } }

/-- Pages of plans whose result is not written go back to the pool, the last popped first (R284). -/
def undoPlans (sl : Nat) (l : List EPlan) (s : State) : State :=
  (l.flatMap fun p => p.pops).reverse.foldl (fun t p => lanePush sl p.1 [p.2] t) s

/-- POOL_WM_STAT and the pool's one event after a phase or a TRIM (R290, R291). -/
def poolEvent (sl : Nat) (short : Bool) (s : State) : State :=
  let old := rdB s sl pPools 0x160
  let low := (List.range 8).filter fun k => decide (laneFree s sl k < fld (rdB s sl pPools (0x140 + 4 * k)) 23 0)
  let new := old ||| BitVec.ofNat 32 (low.foldl (fun a k => a + 2 ^ k) 0)
  let rose := decide (new ≠ old)
  let s1 := wrB sl pPools 0x160 new s
  let s2 := if rose then event pPageAlloc 0 s1 else s1
  let s3 := if short then event pPageAlloc 1 s2 else s2
  let v := rdB s3 sl pPools 0x118
  if (rose || short) && bitOf v 6 then sliceMessage sl (fld v 5 0) s3 else s3

/-- A STEP or PAGES command ends FAULT_ILLEGAL, recorded by the page allocator (R267, R287, R293). -/
def stewardIllegal (c : Cmd) (dt : Nat) (s : State) : State :=
  failHere c (0x13, dt) true (event pPageAlloc 2 (captureErr pPageAlloc (cmdErr s c pPageAlloc 0x13 dt) s))

/-- A STEP or PAGES GROW that met poison (R858): the ring stays ACTIVE. -/
def stewardPoison (c : Cmd) (s : State) : State :=
  failHere c (0x20, 0x0D) false (captureErr pPageAlloc (cmdErr s c pPageAlloc 0x20 0x0D) s)

/-- Hold a command of the dispatcher or steward on MIGRATING: its stream is the ring (R462). -/
def holdCmd (c : Cmd) (va : Nat) (s : State) : State := holdStream pDispatch c.ring c.pasid va s

/-- The command's translation fault ends it and its ring is GUILTY (R478, R682). -/
def failXlate (c : Cmd) (cls dt : Nat) (s : State) : State := failHere c (cls, dt) true s

/-- Take the next step number of a slice's pool (R268). -/
def takeStepNo (sl : Nat) (s : State) : State :=
  let n := (slook s.steward.stepNo sl).getD 0
  { s with steward := { s.steward with stepNo := sadd s.steward.stepNo sl ((n + 1) % 2 ^ 32) } }

/-- An allocation phase begins: POOL_STEP and the page allocator's snapshot name it (R293, R294). -/
def notePhase (sl no : Nat) (s : State) : State :=
  wrB sl pPools 0x11C (BitVec.ofNat 32 no) { s with steward := { s.steward with lastNo := no } }

/-- Translate the list entries a plan writes. -/
def xlatePlan (c : Cmd) : List (Nat × List Byte) → State → VRes (List (List Piece × List Byte))
  | [], s => .ok [] s
  | w :: t, s =>
    (xlateRange c.ctx pDispatch c.pasid w.1 16 .write s).bind fun ps s1 =>
    (xlatePlan c t s1).bind fun l s2 => .ok ((ps, w.2) :: l) s2

def xlatePlans (c : Cmd) : List EPlan → State → VRes (List (EPlan × List (List Piece × List Byte)))
  | [], s => .ok [] s
  | p :: t, s =>
    (xlatePlan c p.writes s).bind fun l s1 => (xlatePlans c t s1).bind fun r s2 => .ok ((p, l) :: r) s2

/-- The result of an entry (R266). -/
def resultBytes (p : EPlan) (no : Nat) : List Byte :=
  leBytes 4 p.status ++ leBytes 4 p.eNew ++ leBytes 4 p.taken ++ leBytes 4 no

/-- Write the results in entry order; a fault leaves the rest unwritten, with the entry it met. -/
def writeResults (c : Cmd) (va no : Nat) (plans : List EPlan) : List Nat → State → State × Option (Nat × Nat × Nat)
  | [], s => (s, none)
  | i :: t, s =>
    match plans.find? fun p => p.idx == i with
    | none => writeResults c va no plans t s
    | some p =>
      match xlateRange c.ctx pDispatch c.pasid (va + 64 * i + 48) 16 .write s with
      | .ok ps s1 => writeResults c va no plans t (writePieces c.slice ps (resultBytes p no) s1)
      | .fault cl dt _ s1 => (s1, some (i, cl, dt))
      | .migrating _ s1 => (s1, some (i, 0, 0))

/-- Stages 2 to 4 of a STEP (R269): allocation, results, and its tasks become ready to issue. -/
def stepRun (c : Cmd) (va no : Nat) (l : List (SEnt × SeqRec)) (s : State) : State :=
  let ph := allocPhase s c.slice no (nbit (bytesAt c.raw 72 4) 12) l
  match xlatePlans c ph.plans s with
  | .migrating a s1 => holdCmd c a s1
  | .fault cl dt _ s1 => failXlate c cl dt (notePhase c.slice no (takeStepNo c.slice (addProg pPageAlloc 0 1 s1)))
  | .ok plans s1 =>
    match xlateRange c.ctx pDispatch c.pasid va (64 * l.length) .write s1 with
    | .migrating a s2 => holdCmd c a s2
    | _ =>
      let s2 := takeStepNo c.slice (addProg pPageAlloc 0 1 (dropHeld pDispatch c.ring s1))
      let r := writeResults c va no ph.plans (List.range l.length) s2
      let upTo := match r.2 with | some f => f.1 | none => l.length
      let s3 := ((List.range 8).foldl (fun t k =>
        setLaneFree c.slice k (laneFree s c.slice k - ((ph.plans.flatMap fun p => p.pops).filter fun p => p.1 == k).length) t) r.1)
      let s4 := (plans.filter fun p => decide (p.1.idx < upTo)).foldl (fun t p => applyPlan c.slice p t) s3
      let s5 := undoPlans c.slice (ph.plans.filter fun p => decide (upTo ≤ p.idx)) s4
      let kept := ph.plans.filter fun p => decide (p.idx < upTo)
      let taken := kept.foldl (fun a p => a + p.taken) 0
      let stalled := (ph.plans.filter fun p => p.status == 2).length
      let deferred := (ph.plans.filter fun p => p.status == 1).length
      let joins := (kept.filter fun p => p.join.isSome).length
      let s6 := addProg pPageAlloc 7 joins (addProg pPageAlloc 6 deferred (addProg pPageAlloc 5 stalled
        (addProg pPageAlloc 2 taken (addProg pPageAlloc 1 (16 * taken + 64 * kept.length + 16 * upTo) s5))))
      let s7 := notePhase c.slice no
        (wrB c.slice pPools 0x168 (sat32 ((rdB s6 c.slice pPools 0x168).toNat + stalled + deferred)) s6)
      let s8 := poolEvent c.slice (decide (0 < stalled + deferred)) s7
      match r.2 with
      | some (_, cl, dt) => failXlate c cl dt s8
      | none =>
        dispSync (updCmd c.ring c.no (fun x => { x with
            launched := true, worked := true, readyTs := s8.now
            step := l.map fun e => { kind := e.1.kind, seq := e.1.seq, trimLo := e.1.tlo, trimHi := e.1.thi } })
          { s8 with steward := { s8.steward with running := sadd s8.steward.running c.slice (c.ring, c.no) } })

/-- Stage 1 of a STEP: the body, the entries, their records, the checks of R267 and R858. -/
def stepBegin (c : Cmd) (s : State) : State :=
  let va := bytesAt c.raw 64 8
  let w := bytesAt c.raw 72 4
  let n := nfld w 11 0 + 1
  let no := (slook s.steward.stepNo c.slice).getD 0
  let cfg := (if c.pasid ≠ poolPasid s c.slice then [9] else []) ++ (if poolEn s c.slice then [] else [0x0A])
  let taken (s : State) : State := takeStepNo c.slice (addProg pPageAlloc 0 1 s)
  if nfld w 31 13 ≠ 0 ∨ bytesAt c.raw 76 4 ≠ 0 ∨ va % 64 ≠ 0 ∨ 2048 < n then stewardIllegal c 1 (taken s)
  else
    match xlateRange c.ctx pDispatch c.pasid va (64 * n) .read s with
    | .migrating a s1 => holdCmd c a s1
    | .fault cl dt _ s1 => failXlate c cl dt (taken s1)
    | .ok ps s1 =>
      if ps.any fun p => p.mtype == 3 then stewardIllegal c 1 (taken s1)
      else
        let raw := readPieces s1 ps
        let xs := (List.range n).map fun i => sentDecode ((raw.drop (64 * i)).take 64)
        let recs := xs.map fun x => (x, seqRec s1 x.seq)
        if piecesPoison s1 ps || xs.any fun x => cohPoisonN s1 true (seqPa s1 x.seq) 64 then stewardPoison c (taken s1)
        else
          let dts := recs.zipIdx.flatMap fun e =>
            sentDetails s1 c.slice ((xs.take e.2).any fun y => y.seq == e.1.1.seq) e.1.1 e.1.2
          if dts ++ cfg ≠ [] then stewardIllegal c (minDetail (dts ++ cfg)) (taken s1)
          else stepRun c va no recs s1

/-- STEP (R265 to R279): the steward takes a started STEP once the pool's previous STEP has completed (R268). -/
def execStep (ring seq : Nat) (s : State) : Res :=
  match waitingCmd s ring seq 2 with
  | none => .next s
  | some c =>
    if !dispRuns s ∨ (slook s.steward.running c.slice).isSome ∨ (sliceSt s c.slice).contained then .next s
    else .next (stepBegin c s)

/-! ### Stage 5 (R279 to R284) -/

/-- The indices a release frees, the record after it. -/
def releaseOf (x : StepEntry) (r : SeqRec) : List Nat × SeqRec :=
  if x.kind = 2 then ((List.range r.eEnd).drop r.eBegin, { r with active := false, held := 0 })
  else
    let lo := match x.trimLo with | some v => min (v / r.t) r.eEnd | none => r.eBegin
    let b := max r.eBegin lo
    let hi := match x.trimHi with | some v => max b (min r.eEnd ((v + r.t - 1) / r.t)) | none => r.eEnd
    let es := ((List.range b).drop r.eBegin) ++ ((List.range r.eEnd).drop hi)
    (es, { r with eBegin := b, eEnd := min r.eEnd hi, held := r.held - es.length * r.layers })

/-- A page to free: its list entry translated, the lane it returns to. -/
structure FreeOne where
  pieces : List Piece
  seq : Nat
  layer : Nat
  e : Nat
  home : Nat
deriving DecidableEq, Repr

/-- Translate the list entries a release zeroes. -/
def xlateFrees (c : Cmd) (q : Nat) (r : SeqRec) : List (Nat × Nat) → State → VRes (List FreeOne)
  | [], s => .ok [] s
  | (e, layer) :: t, s =>
    (xlateRange c.ctx pDispatch c.pasid (r.entryVa layer e) 16 .write s).bind fun ps s1 =>
    (xlateFrees c q r t s1).bind fun l s2 =>
      .ok ({ pieces := ps, seq := q, layer := layer, e := e, home := laneOf e r.mask } :: l) s2

/-- Every page a STEP's stage 5 frees, entry by entry. -/
def xlateReleases (c : Cmd) : List StepEntry → State → VRes (List FreeOne)
  | [], s => .ok [] s
  | x :: t, s =>
    let r := seqRec s x.seq
    let es := if x.kind = 1 then [] else (releaseOf x r).1
    (xlateFrees c x.seq r (es.flatMap fun e => (List.range r.layers).map fun l => (e, l)) s).bind fun a s1 =>
    (xlateReleases c t s1).bind fun b s2 => .ok (a ++ b) s2

/-- Free one page: its list entry is zeroed and it is pushed to the lane it came from (R281, R283). -/
def freePage (sl : Nat) (f : FreeOne) (s : State) : State :=
  let b := readPieces s f.pieces
  let fb := s.steward.fallback.find? fun x => x.seq == f.seq && x.layer == f.layer && x.e == f.e
  let lane := match fb with | some x => x.lane | none => f.home
  lanePush sl lane [b] (writePieces sl f.pieces (List.replicate 16 0) { s with steward := { s.steward with
    fallback := s.steward.fallback.filter fun x => !(x.seq == f.seq && x.layer == f.layer && x.e == f.e) } })

/-- Leaves and trims are applied (R281, R282). -/
def applyReleases (c : Cmd) (l : List FreeOne) (s : State) : State :=
  let news := (c.step.filter fun x => x.kind != 1).map fun x => (x, (releaseOf x (seqRec s x.seq)).2)
  let s1 := l.foldl (fun t f => freePage c.slice f t) s
  let s2 := news.foldl (fun t e =>
    let t1 := putSeqRec c.slice e.1.seq e.2 t
    if e.1.kind = 2 then { t1 with steward := { t1.steward with active := serase e.1.seq t1.steward.active } } else t1) s1
  let s3 := wrB c.slice pPools 0x164 (BitVec.ofNat 32 ((rdB s2 c.slice pPools 0x164).toNat - l.length)) s2
  addProg pPageAlloc 4 l.length (addProg pPageAlloc 1 (32 * l.length + 64 * news.length) s3)

/-- STEP_RELEASE (R269 stage 5, R281, R282, R284): every task of a STEP has retired and none failed. -/
def execStepRelease (ring seq : Nat) (s : State) : Res :=
  match s.disp.cmds.find? fun c => c.ring == ring && c.seq == seq && c.opc == 2 && decide (c.step ≠ []) && c.status.isNone with
  | none => .next s
  | some c =>
    if !dispRuns s ∨ c.fail.isSome ∨ c.unissued ∨ cmdBusy s c.ring c.no then .next s
    else
      match xlateReleases c c.step s with
      | .migrating a s1 => .next (holdCmd c a s1)
      | .fault cl dt _ s1 => .next (failXlate c cl dt s1)
      | .ok l s1 =>
        .next (maybeFinish c.ring c.no (updCmd c.ring c.no (fun x => { x with step := [] })
          (applyReleases c l (dropHeld pDispatch c.ring s1))))

/-! ### PAGES (R286 to R289) -/

/-- Fields of a PAGES body. -/
def pgSub (c : Cmd) : Nat := c.fld 16 1 0
def pgLane (c : Cmd) : Nat := c.fld 16 4 2
def pgCount (c : Cmd) : Nat := c.fld 16 28 5
def pgBuf (c : Cmd) : Nat := bytesAt c.raw 24 8

/-- BAD_BODY of R287, but for the memory type of the buffer. -/
def pagesBad (c : Cmd) : Bool :=
  c.fld 16 31 29 != 0 || bytesAt c.raw 20 4 != 0 || pgSub c == 3
    || (pgSub c < 2 && (pgCount c == 0 || pgBuf c == 0 || pgBuf c % 16 != 0))
    || (pgSub c == 2 && (pgLane c != 0 || pgCount c != 0 || pgBuf c != 0))

/-- A PAGES command that the steward can take now: its pool runs no STEP (R280). -/
def pagesCmd (s : State) (ring seq sub : Nat) : Option Cmd :=
  match waitingCmd s ring seq 0x0C with
  | none => none
  | some c => if dispRuns s ∧ pgSub c = sub ∧ (slook s.steward.running c.slice).isNone then some c else none

/-- A PAGES command completes OK. -/
def pagesDone (c : Cmd) (s : State) : State :=
  endCmd c.ring c.no (0, 0) (updCmd c.ring c.no (fun x => { x with launched := true }) (addProg pPageAlloc 0 1 s))

/-- PAGES_GROW (R287, R858). -/
def execPagesGrow (ring seq : Nat) (s : State) : Res :=
  match pagesCmd s ring seq 0 with
  | none => .next s
  | some c =>
    let illegal (dt : Nat) (s : State) : Res := .next (stewardIllegal c dt (addProg pPageAlloc 0 1 s))
    if pagesBad c then illegal 1 s
    else
      match xlateRange c.ctx pDispatch c.pasid (pgBuf c) (16 + 16 * pgCount c) .read s with
      | .migrating a s1 => .next (holdCmd c a s1)
      | .fault cl dt _ s1 => .next (failXlate c cl dt (addProg pPageAlloc 0 1 s1))
      | .ok ps s1 =>
        let l := (List.range (pgCount c)).map fun i => ((readPieces s1 ps).drop (16 + 16 * i)).take 16
        if ps.any fun p => p.mtype == 3 then illegal 1 s1
        else if !poolEn s1 c.slice then illegal 0x0A s1
        else if piecesPoison s1 ps then .next (stewardPoison c (addProg pPageAlloc 0 1 s1))
        else if laneCap s1 c.slice < laneFree s1 c.slice (pgLane c) + pgCount c then illegal 0x0B s1
        else if l.any fun b => !poolEntryOk b then illegal 0x0C s1
        else
          .next (pagesDone c (addProg pPageAlloc 1 (16 * pgCount c)
            (lanePush c.slice (pgLane c) l (dropHeld pDispatch c.ring s1))))

/-- PAGES_TRIM (R288, R290). -/
def execPagesTrim (ring seq : Nat) (s : State) : Res :=
  match pagesCmd s ring seq 1 with
  | none => .next s
  | some c =>
    let illegal (dt : Nat) (s : State) : Res := .next (stewardIllegal c dt (addProg pPageAlloc 0 1 s))
    if pagesBad c then illegal 1 s
    else
      let free := laneFree s c.slice (pgLane c)
      let n := min (pgCount c) free
      match xlateRange c.ctx pDispatch c.pasid (pgBuf c) (16 + 16 * n) .write s with
      | .migrating a s1 => .next (holdCmd c a s1)
      | .fault cl dt _ s1 => .next (failXlate c cl dt (addProg pPageAlloc 0 1 s1))
      | .ok ps s1 =>
        if ps.any fun p => p.mtype == 3 then illegal 1 s1
        else if !poolEn s1 c.slice then illegal 0x0A s1
        else
          let popped := (List.range n).map fun i => laneEntry s1 c.slice (pgLane c) (free - 1 - i)
          let old := readPieces s1 ps
          let new := leBytes 4 n ++ (old.drop 4).take 12 ++ popped.flatMap id ++ old.drop (16 + 16 * n)
          let s2 := setLaneFree c.slice (pgLane c) (free - n) (writePieces c.slice ps new (dropHeld pDispatch c.ring s1))
          .next (pagesDone c (poolEvent c.slice false (addProg pPageAlloc 1 (16 * n + 4) s2)))

/-- PAGES_RESET (R289): it runs whether the pool is enabled or not. -/
def execPagesReset (ring seq : Nat) (s : State) : Res :=
  match pagesCmd s ring seq 2 with
  | none => .next s
  | some c =>
    if pagesBad c then .next (stewardIllegal c 1 (addProg pPageAlloc 0 1 s))
    else
      let sl := c.slice
      let ids := ((List.range 16384).filter fun q => seqOwned s sl q && (seqRec s q).active)
      let s1 := ids.foldl (fun t q => putSeqRec sl q { seqRec t q with active := false } t) s
      let s2 := (List.range 8).foldl (fun t k => setLaneFree sl k 0 t) s1
      let s3 : State := { s2 with steward := { s2.steward with
        fallback := s2.steward.fallback.filter fun x => x.slice != sl
        active := s2.steward.active.filter fun e => e.2 != sl } }
      .next (pagesDone c (wrB sl pPools 0x164 0 s3))

end Sys2Proof.Machine
end

