-- ==== Sys2Proof/Machine/DispCmds.lean ====
section
/-! DEFINITION. Doorbells, rings and commands (11_submission.md; rows DB_TAIL to COMMAND_START, KERNEL, WAIT to
COMPLETION_RECORD but for the engine commands, TASK_RETIRE and PARK_ENTRY_WRITE). -/

namespace Sys2Proof.Machine

/-! ### Doorbells (R482 to R484, R640) -/

/-- A write of DB_TAIL by a PCIe function. -/
def dbTail (fn ring value : Nat) (s : State) : State :=
  let r := ringSt s ring
  let v := value % 0x20000
  if 8192 ≤ ring ∨ !fnOwnsRing s fn ring then s
  else if ringCapacity r < idxDiff v r.head then badDb s
  else setRing ring { r with tail := v, pend := decide (v ≠ r.head) } s

def execDbTail (fn ring value : Nat) (s : State) : Res := .next (dbTail fn ring value s)

/-- A write of DB_CQ_HEAD by a PCIe function. -/
def dbCqHead (fn ring value : Nat) (s : State) : State :=
  let r := ringSt s ring
  let v := value % 0x20000
  if 8192 ≤ ring ∨ !fnOwnsRing s fn ring then s
  else if idxDiff r.cqTail r.cqHead < idxDiff v r.cqHead then badDb s
  else setRing ring { r with cqHead := v } s

def execDbCqHead (fn ring value : Nat) (s : State) : Res := .next (dbCqHead fn ring value s)

/-! ### Ring control (R479, R480, R524 to R527, R530, R685, R686, R860) -/

/-- RT_BASE: bits [18:0] read 0. -/
def rtBase (s : State) : Nat := rd64 s pDspRings 0x100 / 0x80000 * 0x80000

/-- The 64 bytes of a ring table entry, homed INTERLEAVED. -/
def ringTableBytes (s : State) (ring : Nat) : List Byte := cohBytes s true (rtBase s + 64 * ring) 64

/-- The entry 64 bytes spell. -/
def ringEntryOf (b : List Byte) : RingEntry :=
  let w := bytesAt b 20 4
  { sqVa := bytesAt b 0 8, cqVa := bytesAt b 8 8, pasid := bytesAt b 16 4 % 0x100000, sqLog2 := nfld w 4 0, cqLog2 := nfld w 9 5
    prio := nfld w 11 10, inflightM1 := nfld w 14 12, cqIrq := nbit w 15, vec := nfld w 21 16, seq0 := bytesAt b 24 4 }

/-- Whether the entry passes the checks of R860, its reserved bits and the PASID binding included. -/
def ringEntryOk (s : State) (slice : Nat) (b : List Byte) : Bool :=
  let e := ringEntryOf b
  decide (4 ≤ e.sqLog2) && decide (e.sqLog2 ≤ 16) && decide (4 ≤ e.cqLog2) && decide (e.cqLog2 ≤ 16)
  && e.sqVa % 4096 == 0 && e.cqVa % 4096 == 0 && nfld (bytesAt b 16 4) 31 20 == 0 && nfld (bytesAt b 20 4) 31 22 == 0
  && ((b.drop 28).all fun x => x == 0) && boundTo s e.pasid slice

/-- An ENABLE of an OFF ring of a slice (R860). An ignored ENABLE leaves the indices as they were. -/
def enableOff (ring slice : Nat) (resetIdx : Bool) (s : State) : State :=
  let r := ringSt s ring
  let b := ringTableBytes s ring
  let e := ringEntryOf b
  let r1 := if resetIdx then { r with head := 0, tail := 0, cqHead := 0, cqTail := 0, expSeq := e.seq0 } else r
  if cohPoisonN s true (rtBase s + 64 * ring) 64 || !ringEntryOk s slice b || decide (2 ^ e.sqLog2 < idxDiff r1.tail r1.head) then badRing s
  else setRing ring { r1 with state := .active, ent := e, pend := decide (r1.tail ≠ r1.head), enableReq := false, cover := [] } s

/-- RING_CTRL.ENABLE. -/
def ringEnable (ring : Nat) (resetIdx : Bool) (s : State) : State :=
  let r := ringSt s ring
  match sliceOfRing s ring with
  | none => badRing s
  | some sl =>
    if (sliceSt s sl).contained then badRing s
    else if quiescing s sl then s
    else
      match r.state with
      | .off => enableOff ring sl resetIdx s
      | .active => s
      | .draining => setRing ring { r with state := .active } s
      | .guilty => if r.stuck then s else settleRing ring (setRing ring { r with enableReq := true } s)

/-- RING_CTRL.DRAIN. -/
def ringDrain (ring : Nat) (s : State) : State :=
  let r := ringSt s ring
  if r.state = .active then settleRing ring (setRing ring { r with state := .draining } s) else s

/-- RING_CTRL.FORCE_OFF, by any cause that ends the ring's commands with `st` (R526, R657, R686). -/
def ringForceOff (st : Nat × Nat) (ring : Nat) (s : State) : State :=
  let r := ringSt s ring
  if r.state = .off then s
  else
    let s1 := dropHeld pDispatch ring (setRing ring { r with state := .off, gen := r.gen + 1, enableReq := false } s)
    let s2 := (ringCmds s1 ring).foldl (fun t c => abortCmd st c t) s1
    noteQuietRing ring (dispSync (if r.stuck then
        let s3 := (ringCmds s2 ring).foldl (fun t c => stopWork ring c.no t) s2
        let s4 := setRing ring { ringSt s3 ring with stuck := false } s3
        { s4 with
          disp := { s4.disp with cmds := s4.disp.cmds.filter fun c => c.ring != ring }
          steward := { s4.steward with running := s4.steward.running.filter fun e => e.2.1 != ring } }
      else s2))

/-- A write of RING_CTRL for a ring: FORCE_OFF over DRAIN over ENABLE (R530). -/
def ringCtrl (ring : Nat) (w : Word) (s : State) : State :=
  if bitOf w 2 then ringForceOff (0x30, 0x01) ring s
  else if bitOf w 1 then ringDrain ring s
  else if bitOf w 0 then ringEnable ring (bitOf w 3) s
  else s

/-- RING_SEL of a function. -/
def ringSel (s : State) (fn : Nat) : Nat := fld (rdB s fn pDspRings 0x108) 12 0

/-- A write of RING_CTRL by a function: ignored, with BAD_RING, for a ring it may not select. -/
def ringCtrlBy (fn : Nat) (w : Word) (s : State) : State :=
  if fnMayRing s fn (ringSel s fn) then ringCtrl (ringSel s fn) w s else badRing s

def execRingEnable (fn : Nat) (s : State) : Res := .next (ringCtrlBy fn 1 s)
def execRingResetIdx (fn : Nat) (s : State) : Res := .next (ringCtrlBy fn 9 s)
def execRingDrain (fn : Nat) (s : State) : Res := .next (ringCtrlBy fn 2 s)
def execRingForceOff (fn : Nat) (s : State) : Res := .next (ringCtrlBy fn 4 s)

/-- A write of RT_BASE by the PF or Holog. -/
def rtBaseWrite (off : Nat) (data : DWord) (wide : Bool) (s : State) : State :=
  if off ≠ 0x100 ∧ off ≠ 0x104 then s
  else if s.disp.rings.any fun e => decide (e.2.state ≠ .off) then badRing s
  else stReg 0 pDspRings off data (wide && off == 0x100) s

def execRtBaseWrite (off : Nat) (data : DWord) (wide : Bool) (s : State) : Res := .next (rtBaseWrite off data wide s)

/-! ### Reading and checking a command (R481, R485 to R489) -/

/-- Least length in slots of an opcode (R487). -/
def minSlots (opc : Nat) : Nat := if opc = 2 then 2 else 1

/-- Bytes of header and body of an opcode (R487). -/
def cmdLen (opc : Nat) : Nat :=
  if opc = 2 then 80 else if opc = 0x0B then 20 else if opc = 0x0C ∨ opc = 0x0E then 32 else if opc = 0x0D then 28
  else if opc = 0 ∨ opc = 9 ∨ opc = 0x0A ∨ 0x0E < opc then 16 else 64

/-- Address of a slot of a ring's queue (R482). -/
def slotVa (e : RingEntry) (i : Nat) : Nat := e.sqVa + 64 * (i % 2 ^ e.sqLog2)

/-- Context in which the dispatcher reads a ring's commands. -/
def ringCtx (r : Ring) (ring slice : Nat) : ErrRec :=
  { ctxValid := true, pasid := r.ent.pasid, slice := slice, ring := ring, seq := r.expSeq, srcLogical := 0x3F }

/-- Read part of a queue: the bytes, and whether any was poisoned. -/
def readSlots (c : ErrRec) (pasid : Nat) : List (Nat × Nat) → State → VRes (List Byte × Bool)
  | [], s => .ok ([], false) s
  | (va, n) :: t, s =>
    (xlateRange c pDispatch pasid va n .read s).bind fun ps s1 =>
    (readSlots c pasid t s1).bind fun r s2 => .ok (readPieces s1 ps ++ r.1, piecesPoison s1 ps || r.2) s2

/-- The parts of a command from slot `i` that are read: header and body. -/
def cmdParts (e : RingEntry) (i n : Nat) : List (Nat × Nat) :=
  (slotVa e i, min n 64) :: (if 64 < n then [(slotVa e (i + 1), n - 64)] else [])

/-- Header fields. -/
def hdrOpc (b : List Byte) : Nat := nfld (bytesAt b 0 4) 7 0
def hdrSlots (b : List Byte) : Nat := nfld (bytesAt b 0 4) 13 8 + 1

/-- Whether every byte from `a` up to `b` is 0. -/
def zeroBytes (raw : List Byte) (a b : Nat) : Bool := ((raw.drop a).take (b - a)).all fun x => x == 0

/-- A reserved or unused field is non-zero, in the header or in a body that BAD_RSVD covers (R486, R489 to R503). -/
def badRsvd (raw : List Byte) : Bool :=
  let f (off hi lo : Nat) := nfld (bytesAt raw off 8) hi lo
  let opc := hdrOpc raw
  nfld (bytesAt raw 0 4) 31 17 != 0 || nfld (bytesAt raw 4 4) 31 28 != 0 || bytesAt raw 12 4 != 0
  || (if opc = 1 ∨ opc = 2 then
        f 32 31 27 != 0 || f 36 31 26 != 0 || f 56 31 8 != 0 || bytesAt raw 60 4 != 0
        || (f 36 25 24 == 0 && !zeroBytes raw 40 56) || (f 36 25 24 == 2 && !zeroBytes raw 48 56)
      else if opc = 3 then
        f 32 63 40 != 0 || f 40 3 2 != 0 || f 40 31 8 != 0 || !zeroBytes raw 48 64
        || (f 40 1 0 != 2 && bytesAt raw 44 4 != 0) || (f 40 1 0 == 1 && bytesAt raw 24 8 != 0)
        || (f 40 1 0 == 2 && bytesAt raw 16 8 != 0)
      else if opc = 4 ∨ opc = 5 ∨ opc = 6 then
        (opc != 6 && f 32 63 40 != 0) || f 40 31 29 != 0 || nfld (bytesAt raw 44 4) 31 16 != 0 || !zeroBytes raw 48 64
        || (opc == 6 && bytesAt raw 16 8 != 0)
      else if opc = 7 then f 40 31 3 != 0 || nfld (bytesAt raw 44 4) 31 13 != 0 || !zeroBytes raw 48 64
      else if opc = 8 then nfld (bytesAt raw 28 4) 31 16 != 0 || !zeroBytes raw 32 64
      else if opc = 0x0B then nfld (bytesAt raw 16 4) 31 8 != 0
      else if opc = 0x0D then nfld (bytesAt raw 24 4) 31 17 != 0
      else false)

/-- Save-slot size of a PASID (R492, R634). -/
def saveSlot (s : State) (pasid : Nat) : Nat :=
  match (bindingsAt s pDispatch).find? fun b => b.pasid == pasid with
  | some b => b.slot64k
  | none => 0

/-- Whether some cluster has tiles enough for a set of a slice (R492). -/
def clusterFits (s : State) (slice cw : Nat) : Bool :=
  (List.range 24).any fun cl =>
    decide (cw ≤ ((List.range 96).filter fun lt => usableBy s slice lt && clusterOf s lt == cl).length)

/-- Checks of a launch block (R103, R104, R492). -/
def launchDetail (s : State) (c : Cmd) : Option Nat :=
  let regs := 8 * (c.fld 32 9 2 + 1)
  let groups := c.fld 32 15 10 + 1
  let pin := c.fld 32 25 18
  let cap := c.fld 56 7 0
  let mode := c.fld 36 25 24
  if regs < 16 ∨ 256 < regs ∨ 262144 < (groups + 3) / 4 * regs * 128 ∨ scratchSize (c.fld 32 1 0) < pin * 65536
      ∨ c.fld 32 17 16 = 3 ∨ bytesAt c.raw 16 8 % 256 ≠ 0 ∨ (cap ≠ 0 ∧ cap < c.cw) then some 6
  else if c.tasks % c.cw ≠ 0 ∨ mode = 3 ∨ (mode = 2 ∧ bytesAt c.raw 40 8 % 8 ≠ 0) then some 7
  else if !clusterFits s c.slice c.cw then some 0x0A
  else if saveSlot s c.pasid < pin then some 0x0C
  else none

/-- Checks of a COPY body (R494). -/
def copyBad (c : Cmd) : Bool :=
  let mode := c.fld 40 1 0
  let len := c.fld 32 39 0
  mode == 3 || len == 0 || (mode == 1 && (bytesAt c.raw 16 8 % 1024 != 0 || len % 1024 != 0))
  || (mode == 2 && (bytesAt c.raw 24 8 % 4 != 0 || len % 4 != 0)) || (decide (8 ≤ c.fld 40 7 4) && c.fld 40 7 4 != 15)

/-- Checks of a WAIT body (R499). -/
def waitBad (s : State) (c : Cmd) : Bool :=
  let cond := c.fld 40 2 0
  let fn := sliceFunc s pDispatch c.slice
  decide (5 ≤ cond) || (decide (cond ≤ 3) && bytesAt c.raw 16 8 % 8 != 0)
  || (cond == 4 && fn != 0 && !fnOwnsRing s fn (c.fld 44 12 0))

/-- What a failed check of a command gives: a detail of R532, or one that the spec does not state. -/
inductive StartBad where
  | detail (d : Nat)
  | unstated
deriving DecidableEq, Repr

/-- Checks of the body of a command that R489 has the dispatcher make. -/
def bodyBad (s : State) (c : Cmd) : Option StartBad :=
  if c.opc = 1 ∨ c.opc = 2 then (launchDetail s c).map .detail
  else if c.opc = 3 then (if copyBad c then some (.detail 0x0B) else none)
  else if c.opc = 4 ∨ c.opc = 5 then (if c.fld 32 39 0 = 0 then some .unstated else none)
  else if c.opc = 7 then (if waitBad s c then some (.detail 9) else none)
  else if c.opc = 8 then
    (if bytesAt c.raw 16 8 % 64 ≠ 0 ∨ bytesAt c.raw 24 4 % 64 ≠ 0 then some .unstated else none)
  else if c.opc = 0x0D then
    (if sliceFunc s pDispatch c.slice ≠ 0 then some (.detail 8)
     else if bytesAt c.raw 16 8 % 4096 ≠ 0 then some .unstated else none)
  else none

/-- The first check of R489 that a command fails. -/
def startBad (s : State) (r : Ring) (c : Cmd) : Option StartBad :=
  if 0x0E < c.opc then some (.detail 1)
  else if hdrSlots c.raw < minSlots c.opc then some (.detail 2)
  else if badRsvd c.raw then some (.detail 3)
  else if c.seq ≠ r.expSeq then some (.detail 4)
  else if !boundTo s c.pasid c.slice then some (.detail 5)
  else bodyBad s c

/-- The started command that 16 or more bytes spell. -/
def cmdOf (s : State) (ring slice : Nat) (raw : List Byte) : Cmd :=
  let r := ringSt s ring
  let w := bytesAt raw 0 4
  let v := bytesAt raw 4 4
  { ring := ring, no := r.started, seq := bytesAt raw 8 4, opc := nfld w 7 0, raw := raw, pasid := v % 0x100000, slice := slice
    irq := nbit w 14, serial := nbit w 15, phase := if nbit w 16 then nfld v 27 20 else r.phase, startTs := s.now
    level := r.ent.prio }

/-- A command that could not be read is started and fails with the expected sequence number; the head stays, and the ring
is GUILTY (R481, R682). -/
def startUnread (ring slice : Nat) (st : Nat × Nat) (s : State) : State :=
  let r := ringSt s ring
  let c : Cmd := { ring := ring, no := r.started, seq := r.expSeq, opc := 0xFF, slice := slice, pasid := r.ent.pasid, startTs := s.now }
  let s1 := setRing ring { r with started := r.started + 1 } s
  guiltyEnter ring c.no st (addProg (pDsp s1) 2 1 { s1 with disp := { s1.disp with cmds := s1.disp.cmds ++ [c] } })

/-- A command that fails a check (R489): recorded by the dispatcher. -/
def startFail (c : Cmd) (b : StartBad) (s : State) : State :=
  match b with
  | .detail d => failHere c (0x13, d) true (captureErr (pDsp s) (cmdErr s c (pDsp s) 0x13 d) s)
  | .unstated =>
    let d := (freeVal s).toNat % 256
    failHere c (0x13, d) true (captureErr (pDsp s) (cmdErr s c (pDsp s) 0x13 d) (tickFree 1 s))

/-- A command that has been read in full is started (R488, R489): the head and the expected sequence number advance,
the checks are made, a NOP completes (R502). -/
def startRead (ring slice : Nat) (raw : List Byte) (s : State) : State :=
  let r := ringSt s ring
  let c := cmdOf s ring slice raw
  let h := (r.head + hdrSlots raw) % 0x20000
  let s1 := setRing ring { r with
    started := r.started + 1, head := h, expSeq := (r.expSeq + 1) % 2 ^ 32, pend := decide (h ≠ r.tail) } s
  let s2 := addProg (pDsp s1) 2 1 (addProg (pDsp s1) 1 raw.length { s1 with disp := { s1.disp with cmds := s1.disp.cmds ++ [c] } })
  match startBad s r c with
  | some b => startFail c b s2
  | none =>
    if c.opc = 0 then endCmd ring c.no (0, 0) s2
    else if c.opc = 0x0C ∧ pagesBad c then stewardIllegal c 1 s2
    else s2

/-- Conditions 2 to 4 of R488. -/
def ringMayStart (s : State) (ring : Nat) : Bool :=
  let r := ringSt s ring
  decide (inFlight s ring ≤ r.ent.inflightM1)
  && decide (idxDiff (r.cqTail + (ringCmds s ring).length) r.cqHead < 2 ^ r.ent.cqLog2)
  && (ringCmds s ring).all fun c => c.status.isSome || !(c.opc == 7 || c.opc == 9 || c.opc == 0x0A || c.serial)

/-- COMMAND_START: the dispatcher reads, checks and starts the next command of a ring (R481, R485, R488, R489). -/
def commandStart (ring : Nat) (s : State) : State :=
  let r := ringSt s ring
  match sliceOfRing s ring with
  | none => s
  | some sl =>
    if !dispStarts s ∨ r.state ≠ .active ∨ r.tail = r.head ∨ (sliceSt s sl).contained ∨ !ringMayStart s ring then s
    else
      let cx := ringCtx r ring sl
      let hold (va : Nat) (s : State) : State := holdStream pDispatch ring r.ent.pasid va s
      let poison (s : State) : State :=
        startUnread ring sl (0x20, 0x0D) (captureErr (pDsp s) { cx with cls := 0x20, detail := 0x0D, srcDie := 8, gen := (unitSt s (pDsp s)).gen.toNat } s)
      match readSlots cx r.ent.pasid (cmdParts r.ent r.head 16) s with
      | .migrating va s1 => hold va s1
      | .fault cl dt _ s1 => startUnread ring sl (cl, dt) s1
      | .ok hd s1 =>
        if hd.2 then poison s1
        else if idxDiff r.tail r.head < hdrSlots hd.1 then s
        else if nbit (bytesAt hd.1 0 4) 15 && (ringCmds s1 ring).any fun c => c.status.isNone then s
        else
          let n := if hdrSlots hd.1 < minSlots (hdrOpc hd.1) then 16 else cmdLen (hdrOpc hd.1)
          match readSlots cx r.ent.pasid (cmdParts r.ent r.head n) s1 with
          | .migrating va s2 => hold va s2
          | .fault cl dt _ s2 => startUnread ring sl (cl, dt) s2
          | .ok b s2 => if b.2 then poison s2 else startRead ring sl b.1 (dropHeld pDispatch ring s2)

def execCommandStart (ring : Nat) (s : State) : Res := .next (commandStart ring s)

/-! ### Commands of the dispatcher -/

/-- KERNEL: the command's tasks are ready to issue (R490, R511). -/
def execKernel (ring seq : Nat) (s : State) : Res :=
  match waitingCmd s ring seq 1 with
  | none => .next s
  | some c => if dispRuns s then .next (dispSync (updCmd ring c.no (fun x => { x with launched := true, readyTs := s.now }) s)) else .next s

/-- Whether a WAIT's condition holds for a word (R497). -/
def waitHolds (c : Cmd) (w : Nat) : Bool :=
  let v := bytesAt c.raw 24 8
  let m := w &&& bytesAt c.raw 32 8
  match c.fld 40 2 0 with
  | 0 => decide (v ≤ m)
  | 1 => m == v
  | 2 => m != v
  | _ => m != 0

/-- Whether a WAIT's CMD condition holds (R497). -/
def waitCmdHolds (s : State) (c : Cmd) : Bool :=
  let r := ringSt s (c.fld 44 12 0)
  r.wrote && decide ((r.lastSeq + 2 ^ 32 - bytesAt c.raw 24 4) % 2 ^ 32 < 2 ^ 31)

/-- One evaluation of a WAIT (R378, R497, R498). -/
def waitEval (c : Cmd) (s0 : State) : State :=
  let s := addProg (pDsp s0) 7 1 s0
  if c.fld 40 2 0 = 4 then (if waitCmdHolds s c then endCmd c.ring c.no (0, 0) s else s)
  else
    match xlateRange c.ctx pDispatch c.pasid (bytesAt c.raw 16 8) 8 .read s with
    | .migrating va s1 => holdCmd c va s1
    | .fault cl dt _ s1 => failXlate c cl dt s1
    | .ok ps s1 =>
      let s2 := dropHeld pDispatch c.ring s1
      if piecesPoison s2 ps then failHere c (0x20, 0x0E) false (captureErr (pDsp s2) (cmdErr s2 c (pDsp s2) 0x20 0x0E) s2)
      else if waitHolds c (leNat (readPieces s2 ps)) then endCmd c.ring c.no (0, 0) s2
      else s2

/-- WAIT: taken by the dispatcher and evaluated. -/
def execWait (ring seq : Nat) (s : State) : Res :=
  match waitingCmd s ring seq 7 with
  | none => .next s
  | some c => if dispRuns s then .next (waitEval c (updCmd ring c.no (fun x => { x with launched := true }) s)) else .next s

/-- The incomplete WAIT of a ring that the dispatcher has taken. -/
def openWait (s : State) (ring : Nat) : Option Cmd :=
  (ringCmds s ring).find? fun c => c.opc == 7 && c.launched && c.status.isNone && c.fail.isNone

/-- WAIT_EVAL: an incomplete WAIT is evaluated again (R498). -/
def execWaitEval (ring : Nat) (s : State) : Res :=
  match openWait s ring with
  | none => .next s
  | some c => if dispRuns s then .next (waitEval c s) else .next s

/-- BARRIER_ORDER (R377, R502): it completes at once; no access of a later command is made before every earlier command
has ended (`orderHeld`). -/
def execBarrierOrder (ring seq : Nat) (s : State) : Res :=
  match waitingCmd s ring seq 9 with
  | none => .next s
  | some c => if dispRuns s then .next (endCmd ring c.no (0, 0) (updCmd ring c.no (fun x => { x with launched := true }) s)) else .next s

/-- BARRIER_COMPLETE (R377, R687): it completes once every earlier command of its ring has. -/
def execBarrierComplete (ring seq : Nat) (s : State) : Res :=
  match waitingCmd s ring seq 0x0A with
  | none => .next s
  | some c => if dispRuns s then .next (dispSync (finishBarrier ring (updCmd ring c.no (fun x => { x with launched := true }) s))) else .next s

/-- PHASE (R501). -/
def execPhase (ring seq : Nat) (s : State) : Res :=
  match waitingCmd s ring seq 0x0B with
  | none => .next s
  | some c =>
    if dispRuns s then
      .next (endCmd ring c.no (0, 0) (setRing ring { ringSt s ring with phase := bytesAt c.raw 16 1 }
        (updCmd ring c.no (fun x => { x with launched := true }) s)))
    else .next s

/-- The bytes a SNAPSHOT copies of a die field (R503). -/
def snapDieBytes (s : State) (die : Nat) : List Byte :=
  (List.range 64).flatMap fun u => (List.range 16).flatMap fun b =>
    let p := pageOf die u b
    if hasHeader p && pagePresent s p then (List.range 32).flatMap fun i => leBytes 4 (rd s p (0x80 + 4 * i)).toNat
    else List.replicate 128 0

/-- SNAPSHOT (R503). -/
def execSnapshot (ring seq : Nat) (s : State) : Res :=
  match waitingCmd s ring seq 0x0D with
  | none => .next s
  | some c =>
    if !dispRuns s then .next s
    else
      let va := bytesAt c.raw 16 8
      let dies := (List.range 16).filter fun n => nbit (bytesAt c.raw 24 2) n
      let mark (t : State) : State := updCmd ring c.no (fun x => { x with launched := true, worked := true }) t
      let fire (t : State) : State := if nbit (bytesAt c.raw 24 4) 16 then snapTrigger 2 t else t
      if va = 0 ∨ dies = [] then .next (endCmd ring c.no (0, 0) (fire (mark s)))
      else
        match xlateRange c.ctx pDispatch c.pasid va (131072 * dies.length) .write s with
        | .migrating a s1 => .next (holdCmd c a s1)
        | .fault cl dt _ s1 => .next (failXlate c cl dt (fire (mark s1)))
        | .ok ps s1 =>
          let s2 := fire (mark (dropHeld pDispatch ring s1))
          .next (endCmd ring c.no (0, 0) (writeFor ring c.no c.slice ps (dies.flatMap fun d => snapDieBytes s2 d) s2))

/-! ### Tasks (R511 to R520) -/

/-- TASK_ISSUE: the best command places its next task or task set (R515). -/
def taskIssue (s : State) : State :=
  if !dispRuns s then s
  else
    match issuable s with
    | [] => s
    | c :: _ =>
      match affinity s c c.nextTask with
      | (aff, miss, s1) =>
        match placeTiles s1 c aff with
        | some lts => issueTasks c lts (if miss then satInc (pDsp s1) 0x114 1 s1 else s1)
        | none => s

def execTaskIssue (s : State) : Res := .next (taskIssue s)

/-- Started commands of a context that can still issue a task to a tile, and the command it runs (R517). -/
def rivals (s : State) (k : Cmd) (lt : Nat) : List Cmd :=
  s.disp.cmds.filter fun c => c.status.isNone && !(c.ring == k.ring && c.no == k.no) &&
    (tileCmd s lt == some (c.ring, c.no)
     || (c.unissued && usableBy s c.slice lt &&
          (match tileCmd s lt with
           | some j => (match findCmd s j.1 j.2 with | some x => x.pasid == c.pasid | none => false)
           | none => match slook s.disp.resid lt with | some x => x.pasid == c.pasid | none => false)))

/-- Whether a command may claim a tile (R517): HELD by another context or BUSY, unclaimed, usable by its slice, and
outranked. -/
def claimable (s : State) (k : Cmd) (lt : Nat) : Bool :=
  let held := match slook s.disp.resid lt with | some x => x.pasid != k.pasid | none => false
  (match tileUnit s lt with | some u => decide (pageState s (pTile (lt / 12) u) = .active) | none => false)
  && usableBy s k.slice lt && (slook s.disp.claims lt).isNone && !s.disp.leaving.contains lt
  && (tileBusy s lt || held) && tileCmd s lt != some (k.ring, k.no)
  && (rivals s k lt).all fun c => rankLt (rankOf s c) (rankOf s k)

/-- Rank of the command a tile runs, for the order of claims: HELD tiles first, then the lowest rank. -/
def claimLt (s : State) (k : Cmd) (a b : Nat) : Bool :=
  let r (lt : Nat) : List Int :=
    match tileCmd s lt with
    | none => []
    | some j => match findCmd s j.1 j.2 with | some c => rankOf s c | none => []
  let tie := keyLt (placeKey s k none a) (placeKey s k none b)
  match tileBusy s a, tileBusy s b with
  | false, true => true
  | true, false => false
  | false, false => tie
  | true, true => rankLt (r a) (r b) || (r a == r b && tie)

/-- Whole sets of `cw` tiles of one cluster from a list of tiles in order. -/
def wholeSets (s : State) (cw : Nat) (l : List Nat) : List Nat :=
  if cw ≤ 1 then l
  else (dedupNat (l.map fun lt => clusterOf s lt)).flatMap fun cl =>
    let m := l.filter fun lt => clusterOf s lt == cl
    m.take (m.length / cw * cw)

/-- The tiles a command claims (R517): as many as its unissued tasks need beyond its claims, within TILE_CAP. -/
def claimSet (s : State) (k : Cmd) : List Nat :=
  let mine := (s.disp.claims.filter fun e => e.2.ring == k.ring && e.2.no == k.no).length
  let need := k.tasks - k.nextTask - mine
  let room := if k.fld 56 7 0 = 0 then 96 else k.fld 56 7 0 - (heldTiles s k).length
  let l := wholeSets s k.cw (sortBy (claimLt s k) ((List.range 96).filter fun lt => claimable s k lt))
  l.take (min need room / k.cw * k.cw)

/-- CLAIM (R517, R518). -/
def execClaim (ring seq : Nat) (s : State) : Res :=
  match s.disp.cmds.find? fun c => c.ring == ring && c.seq == seq && c.unissued with
  | none => .next s
  | some k =>
    let l := claimSet s k
    if !dispRuns s ∨ !slicePlays s pDispatch k.slice ∨ (placeTiles s k none).isSome ∨ l = [] then .next s
    else
      let s1 := l.foldl (fun t lt =>
        let cl : Claim := { ring := ring, no := k.no, running := tileCmd t lt }
        { t with disp := { t.disp with claims := sadd t.disp.claims lt cl } }) s
      .next (dispSync (event (pDsp s1) 4 (addProg (pDsp s1) 4 l.length (updCmd ring k.no (fun x => { x with preempt := true }) s1))))

/-- The save slot of a context for a logical tile: its address and size in 64 KiB (R519, R634). -/
def saveVa (s : State) (pasid lt : Nat) : Option (Nat × Nat) :=
  match (bindingsAt s pDispatch).find? fun b => b.pasid == pasid with
  | some b => some (b.saveBase + lt * b.slot64k * 65536, b.slot64k)
  | none => none

/-- Whether a tile's residency is to be spilled now (R518, R651, R706). -/
def spillDue (s : State) (lt : Nat) (x : Resid) : Bool :=
  !tileBusy s lt &&
  ((match slook s.disp.claims lt with
    | some cl => (match cl.running with | some j => !stillIssues s j | none => true)
        && (match findCmd s cl.ring cl.no with | some k => k.pasid != x.pasid | none => true)
    | none => false)
   || s.disp.leaving.contains lt
   || (match slook s.disp.moving lt with | some m => m.1 == x.slice && !movingHolds s lt m.2 | none => false))

/-- Write `n` × 64 KiB of a tile's pinned region to a physical address, its poison with it. -/
def spillBytes (slice pa d u : Nat) : Nat → Nat → State → State
  | _, 0, s => s
  | i, n + 1, s =>
    let t := tileSt s d u
    let a := pa + i * 65536
    let s1 := cohWrite true (some slice) a (t.bytes (i * 65536) 65536) (logDirty slice a s)
    let bad := (List.range 256).filter fun k => t.poisoned (i * 65536 + 256 * k) 256
    spillBytes slice pa d u (i + 1) n (bad.foldl (fun x k => cohPoisonWrite true (a + 256 * k) x) s1)

/-- A spill of a tile's residency (R519). -/
def spill (lt : Nat) (x : Resid) (s : State) : State :=
  match saveVa s x.pasid lt with
  | none => { s with disp := { s.disp with resid := serase lt s.disp.resid } }
  | some (pa, _) =>
    let s1 := spillBytes x.slice pa (lt / 12) ((tileUnit s lt).getD 0) 0 x.pin s
    let s2 : State := { s1 with disp := { s1.disp with
      resid := serase lt s1.disp.resid
      saved := (x.pasid, lt, x.pin) :: s1.disp.saved.filter fun e => !(e.1 == x.pasid && e.2.1 == lt) } }
    dispSync (add64 (pDsp s2) 0x118 x.pin (addProg (pDsp s2) 5 1 s2))

/-- SPILL (R518, R519). -/
def execSpill (lt : Nat) (s : State) : Res :=
  match slook s.disp.resid lt with
  | none => .next s
  | some x => if s.inHold ∨ !spillDue s lt x then .next s else .next (spill lt x s)

/-- RESTORE (R520): the saved slot of the task placed on a tile is read into the pinned region and released. -/
def execRestore (die unit : Nat) (s : State) : Res :=
  let t := tileSt s die unit
  match t.issued with
  | none => .next s
  | some k =>
    let lt := 12 * die + logicalTile s die unit
    match s.disp.saved.find? fun e => e.1 == k.pasid && e.2.1 == lt, saveVa s k.pasid lt with
    | some e, some (pa, _) =>
      if s.inHold ∨ !k.restore ∨ t.task.isSome then .next s
      else
        let n := e.2.2 * 65536
        let cells := (cellsFrom 0 (cohBytes s true pa n)).filter fun c => decide (c.2 ≠ 0)
        let bad := (List.range (n / 64)).filter fun w => cohPoison s true (pa + 64 * w)
        let s1 := setTile die unit { t with
          issued := some { k with restore := false, pinned := true }
          pin := e.2.2, scratch := cells, scratchPoison := bad, scratchFree := none } s
        .next (add64 (pDsp s1) 0x118 e.2.2 { s1 with disp := { s1.disp with saved := s1.disp.saved.filter fun x => decide (x ≠ e) } })
    | _, _ => .next s

/-- PROMOTION (R516). -/
def execPromotion (ring seq : Nat) (s : State) : Res :=
  match s.disp.cmds.find? fun c => c.ring == ring && c.seq == seq && c.unissued with
  | none => .next s
  | some c =>
    let p := min 4 (max c.promo (c.ageNow s.now / (ageMs s * 1000000)))
    if p ≤ c.promo then .next s
    else
      let s1 := addProg (pDsp s) 6 (p - c.promo) (updCmd ring c.no (fun x => { x with promo := p }) s)
      .next (if p = 4 then event (pDsp s1) 3 s1 else s1)

/-! ### Completion records (R504 to R507) -/

/-- The 32 bytes of a record at index `i` of its ring. PRIO is the level when the last task issued; of a command that
issued none the spec gives no value, and it is a free one. -/
def recordBytes (s : State) (c : Cmd) (i : Nat) : List Byte :=
  let st := c.status.getD (0, 0)
  let prio := if c.nextTask = 0 then (freeVal s).toNat % 4 else c.prioAt
  let lap := (i / 2 ^ (ringSt s c.ring).ent.cqLog2 + 1) % 2
  leBytes 4 c.seq
  ++ leBytes 4 (st.1 + 0x100 * st.2 + 0x10000 * (c.exc % 32) + 0x200000 * min c.promo 4 + 0x1000000 * b2n c.urgentAt
      + 0x2000000 * (prio % 4) + 0x8000000 * b2n c.preempt + 0x80000000 * lap)
  ++ leBytes 8 c.startTs ++ leBytes 8 c.endTs ++ leBytes 8 c.energy

/-- The WAITs on a ring are evaluated when it writes a record (R498). -/
def evalWaitsOn (ring : Nat) (s : State) : State :=
  (s.disp.cmds.filter fun c => c.opc == 7 && c.launched && c.status.isNone && c.fail.isNone && c.fld 40 2 0 == 4
    && c.fld 44 12 0 == ring).foldl (fun t c => waitEval c t) s

/-- A record has been accepted at its end point: the tail advances, the message is sent, the command is gone. -/
def recordWritten (c : Cmd) (s : State) : State :=
  let r := ringSt s c.ring
  let s1 := setRing c.ring { r with cqTail := (r.cqTail + 1) % 0x20000, lastSeq := c.seq, wrote := true } s
  let s2 : State := { s1 with disp := { s1.disp with cmds := s1.disp.cmds.filter fun x => !(x.ring == c.ring && x.no == c.no) } }
  let s3 := addProg (pDsp s2) 1 32 s2
  let s4 := if c.irq || r.ent.cqIrq then sliceMessage c.slice r.ent.vec s3 else s3
  evalWaitsOn c.ring (settleRing c.ring s4)

/-- COMPLETION_RECORD: the record of a ring's oldest command is written once it is complete (R481, R505, R507, R686). -/
def completionRecord (ring : Nat) (s : State) : State :=
  let r := ringSt s ring
  match ringCmds s ring with
  | [] => s
  | c :: _ =>
    if !dispRuns s ∨ c.status.isNone ∨ r.stuck then s
    else
      match xlateRange c.ctx pDispatch r.ent.pasid (r.ent.cqVa + 32 * (r.cqTail % 2 ^ r.ent.cqLog2)) 32 .write s with
      | .migrating va s1 => holdStream pDispatch ring r.ent.pasid va s1
      | .fault cl dt _ s1 => guiltyEnter ring c.no (cl, dt) (setRing ring { ringSt s1 ring with stuck := true } s1)
      | .ok ps s1 =>
        let b := recordBytes s1 c r.cqTail
        recordWritten c (writePieces c.slice ps b (tickFree (if c.nextTask = 0 then 1 else 0) (dropHeld pDispatch ring s1)))

def execCompletionRecord (ring : Nat) (s : State) : Res := .next (completionRecord ring s)

/-! ### Ends of tasks and park entries -/

/-- Whether a tile's task has ended (R102, R135): no group, no buffered store, no matrix operation. -/
def taskEnded (t : TileSt) : Bool :=
  t.resident.isEmpty && (t.sb.all fun e => e.2.isEmpty) && (t.mx.queues.all fun e => e.2.isEmpty)

/-- Whether a tile has writes to a chiplet window outstanding (R367). -/
def tileRaw (s : State) (d u : Nat) : Bool :=
  s.host.raw.any fun r => match r.slot with | some (rd, ru, _) => rd == d && ru == u | none => false

/-- A tile's task retires (R102, R113, R197, R513). -/
def taskRetire (d u : Nat) (s : State) : State :=
  let t := tileSt s d u
  match t.task with
  | none => s
  | some k =>
    if s.inHold ∨ !taskEnded t ∨ tileRaw s d u then s
    else
      let exc := [0, 1, 2, 3].foldl (fun a n => a ||| (rd s (pVC d u n) 0x108).toNat) (rd s (pMatrix d u) 0x120).toNat
      let s1 := updCmd k.ring k.no (fun c => { c with exc := c.exc ||| exc % 32 }) (setTile d u { t with task := none } s)
      let s2 := if k.aborted then s1 else addRingProg k.ring 0 1 s1
      let x : Resid := { pasid := k.pasid, slice := k.slice, pin := k.pin }
      let s3 : State := if k.pin = 0 then s2
        else { s2 with disp := { s2.disp with resid := sadd s2.disp.resid (12 * d + logicalTile s2 d u) x } }
      let done := k.setTiles.all fun m => (tileSt s3 d m).task.isNone
      let s4 := if done then setClusterBar d (u / 5) (barInst k u) {} s3 else s3
      dispSync (maybeFinish k.ring k.no s4)

def execTaskRetire (die unit : Nat) (s : State) : Res := .next (taskRetire die unit s)

/-- The command of a tile's task becomes GUILTY for a group that parked with a final cause (R142, R682). -/
def parkFails (d u slot : Nat) (s : State) : State :=
  match (tileSt s d u).task, groupOf (tileSt s d u) slot with
  | some k, some g =>
    match g.parked with
    | some i => if i.cause = 0x0F then s else guiltyEnter k.ring k.no (i.cls, i.detail) s
    | none => s
  | _, _ => s

/-- Whether a core of a tile holds a park entry. -/
def coreHolds (t : TileSt) (core : Nat) : Bool := t.parkHeld.any fun e => bytesAt e 1 1 % 64 / 16 == core

/-- PARK_ENTRY_WRITE (R143, R145, R157, R158): the tile's oldest held entry goes into the die's park ring, or waits while
the ring is full. -/
def execParkEntryWrite (die unit : Nat) (s : State) : Res :=
  let t := tileSt s die unit
  match t.parkHeld with
  | [] => .next s
  | e :: rest =>
    let slot := bytesAt e 1 1 % 64
    let pv := pVC die unit (slot / 16)
    if parkEntries s die ≤ parkUsed s die then .next (event pv 1 s)
    else
      let p := pCluster die 0
      let prod := fld (rd s p 0x20C) 16 0
      let a := rd64 s p 0x200 / 4096 * 4096 + 32 * (prod % parkEntries s die)
      let s1 := wr p 0x20C (BitVec.ofNat 32 ((prod + 1) % 0x20000)) (cohWrite true none a e s)
      let s2 := setTile die unit { tileSt s1 die unit with parkHeld := rest } s1
      let s3 := if coreHolds (tileSt s2 die unit) (slot / 16) then s2 else dropEvt pv (oneBit 1) s2
      .next (parkFails die unit slot s3)

end Sys2Proof.Machine
end

