-- ==== Sys2Proof/Machine/Links.lean ====
section
/-! DEFINITION. Birore ports (12_birore_links.md): credits, routing, forwarding, injection and local delivery, and how a
port goes down. Flits leave and arrive without the timing of slots; `pump` moves every flit that can move. -/

namespace Sys2Proof.Machine

/-! ### Ports -/

/-- Replace a port's record. -/
def setPort (k : Nat) (p : PortSt) (s : State) : State :=
  { s with links := { s.links with ports := sput (fun _ => ({} : PortSt)) s.links.ports k p } }

/-- The extension pages of a port: optics, routing, credits. -/
def pOptics (k : Nat) : Nat := pPort k + 1
def pRoute (k : Nat) : Nat := pPort k + 2
def pCredit (k : Nat) : Nat := pPort k + 3

/-- The die of a port (R533). -/
def portDie (k : Nat) : Nat := k / 6

/-- Set a field of LINK_STAT (R579). -/
def setLinkStat (k hi lo v : Nat) (s : State) : State := wr (pPort k) 0x110 (setFld (rd s (pPort k) 0x110) hi lo v) s

/-- Set LSTATE (R543). -/
def setLState (k v : Nat) (s : State) : State := setLinkStat k 3 0 v s

/-- WIDTH and PEER_HOLD of LINK_STAT. -/
def portWidth (s : State) (k : Nat) : Nat := fld (rd s (pPort k) 0x110) 7 4
def portPeerHold (s : State) (k : Nat) : Bool := bitOf (rd s (pPort k) 0x110) 9

/-- Whether a port is usable for routes: UP, a peer in HOLD included (R562). -/
def portUp (s : State) (k : Nat) : Bool := decide (k < 48) && portLState s k == 6

/-- Set or clear PEER_HOLD, with its event (R573, R574, R580). -/
def setPeerHold (k : Nat) (on : Bool) (s : State) : State :=
  if portPeerHold s k = on then s else event (pPort k) 5 (setLinkStat k 9 9 (b2n on) s)

/-! ### Credits (R554) -/

/-- SHARE_MAX (R583). -/
def shareMax (s : State) (k : Nat) : Nat :=
  let v := fld (rd s (pCredit k) 0x100) 10 0
  if 32 ≤ v ∧ v ≤ 1920 then v else 1920

/-- Credits of a VC: the dedicated ones free, and the shared ones it may still take (R562). -/
def creditsOf (s : State) (k v : Nat) : Nat :=
  let p := portSt s k
  dedFree p v + min (shFree p) (shareMax s k - shHeld p v)

/-! ### Routing (R559 to R562) -/

/-- Causes of an UNREACH notice (R564, R569): the numbers are the model's. -/
def unreachNoRoute : Nat := 0
def unreachHops : Nat := 1
def unreachDown : Nat := 2

/-- A routing entry of a port's table. -/
def routeEntry (s : State) (port node : Nat) : Nat := sget (fun _ => 0) s.links.routes (port * 4096 + node)

/-- The VC after an action (R562). -/
def actVc (vc a : Nat) : Nat := if a = 1 then vc / 2 * 2 + 1 else if a = 2 then vc / 2 * 2 else vc

/-- Alternative `i` of an entry: port and VC action. -/
def altPort (e i : Nat) : Nat := nfld e (6 * i + 5) (6 * i)
def altAct (e i : Nat) : Nat := nfld e (29 + 2 * i) (28 + 2 * i)

/-- The best of the usable alternatives whose peers are not in HOLD (R562). -/
def bestAlt (s : State) (e vc : Nat) (n : Nat) : Option Nat :=
  (List.range n).foldl (fun b i =>
    if portUp s (altPort e i) && !portPeerHold s (altPort e i) then
      match b with
      | some j => if creditsOf s (altPort e j) (actVc vc (altAct e j)) < creditsOf s (altPort e i) (actVc vc (altAct e i)) then some i else some j
      | none => some i
    else b) none

/-- The choice of R562 for a FIRST flit that is not delivered here. -/
def routeOf (s : State) (e : Nat) (f : Flit) : FRoute :=
  if f.hops = 63 then .drop (some unreachHops)
  else if !nbit e 26 then .drop (some unreachNoRoute)
  else
    let n := nfld e 25 24 + 1
    let firstUp := (List.range n).find? fun i => portUp s (altPort e i)
    let pick := if f.ord || !nbit e 27 then firstUp else (match bestAlt s e f.vc n with | some i => some i | none => firstUp)
    match pick with
    | some i => .out (altPort e i) (actVc f.vc (altAct e i)) (f.hops + 1)
    | none =>
      if nbit e 44 && portUp s (nfld e 41 36) then .out (nfld e 41 36) (actVc f.vc (nfld e 43 42)) (f.hops + 1)
      else .drop (some unreachNoRoute)

/-- The decision for the packet at the head of an input (R559, R561, R562). -/
def decideRoute (s : State) (key : Nat) (f : Flit) : FRoute :=
  let src := key / 4
  if f.dst = nodeId s then .deliver
  else routeOf s (routeEntry s (if src < 48 then src else 6 * (src - 48)) f.dst) f

/-! ### Packets -/

/-- The flits of a packet on a VC (R539, R558). -/
def flitsOf (p : Packet) (vc : Nat) : List Flit :=
  let n := (p.payload.length + 239) / 240
  (List.range n).map fun i =>
    { dst := p.dst, src := p.src, vc := vc, ord := p.ord, first := decide (i = 0), last := decide (i + 1 = n), squeue := p.queue
      pseq := p.pseq, typ := p.typ, payload := (p.payload.drop (240 * i)).take 240 }

/-- The packet that flits make. -/
def packetOf (l : List Flit) : Packet :=
  let f := l.headD { dst := 0, src := 0, vc := 0 }
  { src := f.src, dst := f.dst, queue := f.squeue, typ := f.typ, pseq := f.pseq, ord := f.ord, payload := l.flatMap fun x => x.payload }

/-- Traffic class of a message type (R591). -/
def tcOf (typ : Nat) : Nat := if 0x10 ≤ typ then 1 else 0

/-- Queue a packet at a die's injector (R561). -/
def injectPkt (die : Nat) (slice : Option Nat) (engine : Nat) (p : Packet) (s : State) : State :=
  let l := sget (fun _ => []) s.links.inject die
  { s with links := { s.links with inject := sput (fun _ => []) s.links.inject die (l ++ [{ slice := slice, engine := engine, pkt := p }]) } }

/-- A transfer header (R590) of an answer or notice: CSEQ and VALUE; JOB, PACE and the address fields are not used. -/
def noticeBytes (s : State) (cseq value : Nat) : List Byte :=
  List.replicate 12 0 ++ leBytes 4 (cseq % 0x10000) ++ leBytes 4 ((rd s pPace 0x100).toNat % 0x10000 * 0x10000) ++ leBytes 8 value ++ leBytes 4 0

/-- An UNREACH notice for a dropped packet with its first flit (R564, R569): DST, SQUEUE, PSEQ, cause and TYPE of the
packet in VALUE, its CSEQ in CSEQ. An UNREACH notice draws none. -/
def unreachNotice (die : Nat) (cause : Nat) (f : Flit) (s : State) : State :=
  if f.typ = 0x15 then s
  else
    let v := f.dst + 0x1000 * f.squeue + 0x40000 * f.pseq + 0x400000000 * cause + 0x2000000000 * f.typ
    injectPkt die none 8 { src := nodeId s, dst := f.src, queue := f.squeue, typ := 0x15
                           payload := noticeBytes s (bytesAt f.payload 12 2) v } s

/-- The die an input belongs to. -/
def inputDie (key : Nat) : Nat := if key / 4 < 48 then portDie (key / 4) else key / 4 - 48

/-- A drop for want of a route or at hop count 63 is recorded at the input port (R583). -/
def dropRecord (k : Nat) (cause : Option Nat) (s : State) : State :=
  let note (dt : Nat) : State := captureErr (pPort k) {
    cls := 0x40, detail := dt, gen := (unitSt s (pPort k)).gen.toNat, srcDie := portDie k, srcUnit := pageUnit (pPort k)
    srcLogical := 0x3F } s
  if cause = some unreachHops then note 7 else if cause = some unreachNoRoute then note 8 else s

/-- A packet is dropped at an input (R564): counted and recorded at the input port, with its notice. -/
def dropPacket (key : Nat) (cause : Option Nat) (l : List Flit) (s : State) : State :=
  let note (s : State) : State :=
    match cause, l with
    | some c, f :: _ => if f.first then unreachNotice (inputDie key) c f s else s
    | _, _ => s
  if key / 4 < 48 then
    let p := pPort (key / 4)
    let s1 := dropRecord (key / 4) cause (event p 7 (addProg p 6 1 (satInc p 0x130 1 s)))
    match cause, l with
    | some _, f :: _ => if f.first ∧ f.typ ≠ 0x15 then satInc p 0x134 1 (note s1) else s1
    | _, _ => s1
  else note s

/-- A packet is handed to the transfer engine of a die (R559, R593). -/
def deliverPacket (die : Nat) (p : Packet) (s : State) : State :=
  let l := sget (fun _ => []) s.xfer.inbox die
  { s with xfer := { s.xfer with inbox := sput (fun _ => []) s.xfer.inbox die (l ++ [p]) } }

/-! ### Moving flits -/

/-- The queue of an input VC. -/
def inQueue (s : State) (key : Nat) : List Flit := sget (fun _ => []) s.links.inq key

def setInQueue (key : Nat) (l : List Flit) (s : State) : State :=
  { s with links := { s.links with inq := sput (fun _ => []) s.links.inq key l } }

def routeAt (s : State) (key : Nat) : Option FRoute := slook s.links.route key

def setRouteAt (key : Nat) (r : Option FRoute) (s : State) : State :=
  { s with links := { s.links with route := (match r with | some x => sadd s.links.route key x | none => serase key s.links.route) } }

def partsAt (s : State) (key : Nat) : List Flit := sget (fun _ => []) s.links.parts key

def setParts (key : Nat) (l : List Flit) (s : State) : State :=
  { s with links := { s.links with parts := sput (fun _ => []) s.links.parts key l } }

/-- Add 1 to element `i` of a list of counts modulo 2^32. -/
def bumpAt (l : List Nat) (i : Nat) : List Nat := l.set i ((l.getD i 0 + 1) % 2 ^ 32)

/-- A flit leaves an input queue, and its space is freed for the peer (R554). -/
def popInput (key : Nat) (f : Flit) (rest : List Flit) (s : State) : State :=
  let s1 := setInQueue key rest s
  if key / 4 < 48 then
    let p := portSt s1 (key / 4)
    setPort (key / 4) (if f.shared then { p with fSh := (p.fSh + 1) % 2 ^ 32 } else { p with fDed := bumpAt p.fDed (key % 4) }) s1
  else s1

/-- Take one flit of a packet that is delivered here or dropped. -/
def consume (key : Nat) (r : FRoute) (f : Flit) (rest : List Flit) (s : State) : State :=
  let l := (if f.first then [] else partsAt s key) ++ [f]
  let s1 := popInput key f rest s
  if f.last then
    let s2 := setRouteAt key none (setParts key [] s1)
    match r with
    | .drop c => dropPacket key c l s2
    | _ => deliverPacket (inputDie key) (packetOf l) s2
  else setParts key l s1

/-- Decide the route of a FIRST flit at the head of an input; take a flit of a packet that does not go out. A flit of a
packet whose FIRST flit is gone is discarded. -/
def pumpInput (s : State) (key : Nat) : State :=
  match inQueue s key with
  | [] => s
  | f :: rest =>
    match routeAt s key with
    | none =>
      if f.first then
        let r := decideRoute s key f
        let s1 := setRouteAt key (some r) s
        match r with
        | .out _ _ _ => s1
        | _ => consume key r f rest s1
      else popInput key f rest s
    | some (.out _ _ _) => s
    | some r => consume key r f rest s

/-- The input that holds an output VC from FIRST to LAST (R558). -/
def heldBy (s : State) (k v : Nat) : Option Nat := slook s.links.held (k * 4 + v)

/-- The inputs with a flit ready for an output VC. -/
def readyInputs (s : State) (k v : Nat) : List Nat :=
  (s.links.route.filter fun e =>
    (match e.2 with | .out k' v' _ => k' == k && v' == v | _ => false)
    && (match inQueue s e.1 with
        | f :: _ => (match heldBy s k v with | some x => x == e.1 | none => f.first)
        | [] => false)).map fun e => e.1

/-- The VC of a class that takes the next slot: the one not served last, where it is ready (R557). -/
def classPick (s : State) (k tc last : Nat) : Option Nat :=
  let ready (v : Nat) : Bool := decide (0 < creditsOf s k v) && readyInputs s k v != []
  let a := if last = 2 * tc then 2 * tc + 1 else 2 * tc
  let b := if last = 2 * tc then 2 * tc else 2 * tc + 1
  if ready a then some a else if ready b then some b else none

/-- The VC that a port sends on next (R557): TC 1 wins, but TC 0 has at least one slot in four. -/
def pickVc (s : State) (k : Nat) : Option Nat :=
  let p := portSt s k
  let v0 := classPick s k 0 p.turn0
  let v1 := classPick s k 1 p.turn1
  match v0, v1 with
  | some a, some b => some (if 3 ≤ p.since then a else b)
  | some a, none => some a
  | none, b => b

/-- The next requester of a VC after the one served last. -/
def nextAfter (last : Nat) (l : List Nat) : Nat :=
  match l.find? fun x => decide (last < x) with
  | some x => x
  | none => l.headD 0

/-- Send one flit on a port. -/
def sendFlit (k v key : Nat) (f : Flit) (rest : List Flit) (hops : Nat) (s : State) : State :=
  let s1 := popInput key f rest s
  let p := portSt s1 k
  let ded := decide (0 < dedFree p v)
  let g := { f with vc := v, shared := !ded, hops := hops, fseq := p.txNext }
  let p1 := { p with
    txNext := (p.txNext + 1) % 4096, sent := p.sent ++ [g], ackAt := if p.sent = [] then s.now else p.ackAt
    dedSent := if ded then bumpAt p.dedSent v else p.dedSent, shUse := if ded then p.shUse else p.shUse ++ [v]
    since := if v < 2 then 0 else min 3 (p.since + 1), turn0 := if v < 2 then v else p.turn0, turn1 := if v < 2 then p.turn1 else v
    lastReq := if f.first then sadd p.lastReq v key else p.lastReq }
  let s2 := emit (.flit k g) (setPort k p1 s1)
  let s3 := addProg (pPort k) 2 1 (addProg (pPort k) 1 f.payload.length s2)
  if f.last then
    let s4 := setRouteAt key none (addProg (pPort k) 0 1 s3)
    { s4 with links := { s4.links with held := serase (k * 4 + v) s4.links.held } }
  else { s3 with links := { s3.links with held := sadd s3.links.held (k * 4 + v) key } }

/-- A port that is UP with no peer in HOLD sends its next flit, if one is ready (R551, R552, R555, R557, R573). -/
def sendNext (s : State) (k : Nat) : State :=
  if !portUp s k || portPeerHold s k || decide (2048 ≤ (portSt s k).sent.length) then s
  else
    match pickVc s k with
    | none => s
    | some v =>
      let key := nextAfter ((slook (portSt s k).lastReq v).getD 255) (readyInputs s k v)
      match inQueue s key, routeAt s key with
      | f :: rest, some (.out _ _ h) => sendFlit k v key f rest h s
      | _, _ => s

/-- The slice whose packets a die injects next: the lowest weighted count (R609, R637); 64 stands for packets charged to
no slice. -/
def injSlice (p : InjPkt) : Nat := p.slice.getD 64

def lowestSlice (r : List (Nat × Nat)) (l : List Nat) : Option Nat :=
  l.foldl (fun b x => match b with | some y => if roundCount r x < roundCount r y then some x else some y | none => some x) none

/-- The injector of a die brings its next packet of a class to the head (R557, R561, R609). -/
def refill (tc : Nat) (s : State) (die : Nat) : State :=
  let key := (48 + die) * 4 + 2 * tc
  let all := sget (fun _ => []) s.links.inject die
  let mine := all.filter fun p => tcOf p.pkt.typ == tc
  if inQueue s key ≠ [] ∨ (routeAt s key).isSome then s
  else
    let ready := dedupNat (mine.map injSlice)
    let round := roundSync (dedupNat (all.map injSlice)) (sget (fun _ => []) s.links.rounds die)
    match lowestSlice round ready with
    | none => s
    | some sl =>
      let eng := nextAfter (sget (fun _ => 15) s.links.turns (die * 65 + sl))
        (sortBy (fun a b => decide (a < b)) (dedupNat ((mine.filter fun p => injSlice p == sl).map fun p => p.engine)))
      match takeFirst (fun p => tcOf p.pkt.typ == tc && injSlice p == sl && p.engine == eng) all with
      | none => s
      | some (p, rest) =>
        let w := if sl = 64 then 1 else fld (slStg s (pDie die) sl 0x0C) 23 16
        let s1 := setInQueue key (flitsOf p.pkt (2 * tc)) s
        { s1 with links := { s1.links with
          inject := sput (fun _ => []) s1.links.inject die rest
          rounds := sput (fun _ => []) s1.links.rounds die (roundCharge sl p.pkt.payload.length w round)
          turns := sput (fun _ => 15) s1.links.turns (die * 65 + sl) eng } }

/-- One round of movement: injectors, inputs, ports. -/
def pumpRound (s : State) : State :=
  let dies := List.range 8
  let s1 := dies.foldl (refill 1) (dies.foldl (refill 0) s)
  let s2 := (s1.links.inq.map fun e => e.1).foldl pumpInput s1
  (List.range 48).foldl sendNext s2

/-- Iterate a step. -/
def iterate {α : Type} (f : α → α) : Nat → α → α
  | 0, x => x
  | n + 1, x => iterate f n (f x)

/-- The flits that wait in the device. -/
def waitingFlits (s : State) : Nat :=
  s.links.inq.foldl (fun n e => n + e.2.length) 0
    + s.links.inject.foldl (fun n e => e.2.foldl (fun m p => m + p.pkt.payload.length / 240 + 2) n) 0

/-- Move every flit that can move; nothing moves in HOLD (R572, R757). -/
def pump (s : State) : State := if s.inHold then s else iterate pumpRound (waitingFlits s + 1) s

/-! ### Replay (R551) -/

/-- Send again every unacknowledged flit of a port that is UP. -/
def replaySent (k : Nat) (s : State) : State :=
  let p := portSt s k
  if !portUp s k || portPeerHold s k then setPort k { p with again := p.sent.length } s
  else
    let s1 := p.sent.foldl (fun t f => emit (.flit k f) t) (setPort k { p with again := 0, ackAt := s.now } s)
    addProg (pPort k) 4 p.sent.length (addProg (pPort k) 2 p.sent.length s1)

/-! ### DIST entries of a port (R49, R50, R53) -/

/-- Every tile's entry for a port is brought up to date: VALID with the link, DEGRADED below full width; a bandwidth that a
change of width sets is a calibration value (free). -/
def portDist (k : Nat) (valid : Bool) (width : Nat) (newBw : Bool) (s : State) : State :=
  let ch := (List.range 96).map fun lt =>
    let i := lt * 160 + 112 + k
    let e := sget (fun _ => (0 : Word)) s.org.dist i
    let e1 := if newBw then setFld e 23 12 (Config.freeValue (s.freeCtr + lt)).toNat else e
    (i, setFld (setFld e1 28 28 (b2n (valid && width != 8))) 31 31 (b2n valid))
  distUpdate ch (tickFree (if newBw then 96 else 0) s)

/-! ### Entering DETECT, RETRAIN, DOWN and OFF -/

/-- A port enters DETECT (R543 to R545, R579): LINK_CFG takes effect and a new number is drawn. -/
def enterDetect (k : Nat) (s : State) : State :=
  let p := portSt s k
  setLState k 1 (setPort k { p with
    cfg := (rd s (pPort k) 0x104).toNat, number := (freeVal s).toNat % 2 ^ 32, retraining := false, fails := 0, heldDown := false
    gotParam := false, gotAck := false, lostLight := false, subst := none } (tickFree 1 s))

/-- A port enters RETRAIN (R547). -/
def enterRetrain (k : Nat) (s : State) : State :=
  let p := portSt s k
  event (pPort k) 2 (satInc (pPort k) 0x11C 1 (setLState k 7 (setPort k { p with
    retraining := true, gotParam := false, gotAck := false, subst := none } s)))

/-- A port counts a packet dropped with it as output, and the notice drawn (R569, R579, R580). -/
def outputDrop (k : Nat) (noticed : Bool) (s : State) : State :=
  let s1 := event (pPort k) 7 (addProg (pPort k) 6 1 (satInc (pPort k) 0x130 1 s))
  if noticed then satInc (pPort k) 0x134 1 s1 else s1

/-- Whether the FIRST flit of the packet that an output VC is sending is still in the replay buffer. -/
def firstKept (p : PortSt) (vc : Nat) : Bool :=
  ((p.sent.filter fun f => f.vc == vc).reverse.takeWhile fun f => !f.last).any fun f => f.first

/-- The packets that wait for a port lose their route: those whose FIRST flit has not left are dropped with a notice, of the
others the rest is dropped (R569 steps 1 and 2). `p` is the port with what it had sent. -/
def unroute (k : Nat) (p : PortSt) (s : State) : State :=
  s.links.route.foldl (fun t e =>
    match e.2 with
    | .out k' v _ =>
      if k' = k then
        match inQueue t e.1 with
        | f :: _ =>
          if f.first then outputDrop k (f.typ != 0x15) (setRouteAt e.1 (some (.drop (some unreachDown))) t)
          else
            let t1 := setRouteAt e.1 (some (.drop none)) t
            if firstKept p v then t1 else outputDrop k false t1
        | [] =>
          let t1 := setRouteAt e.1 (some (.drop none)) t
          if firstKept p v then t1 else outputDrop k false t1
      else t
    | _ => t) s

/-- The packets a port has received in part lose the rest: what came of a packet without its LAST flit is discarded, and
the output VC it holds is free again. -/
def trimInputs (k : Nat) (s : State) : State :=
  (List.range 4).foldl (fun t v =>
    let key := k * 4 + v
    let q := inQueue t key
    let whole := (q.reverse.dropWhile fun f => !f.last).reverse
    let t1 := setInQueue key whole t
    if whole = [] then
      let t2 := setRouteAt key none (setParts key [] t1)
      { t2 with links := { t2.links with held := t2.links.held.filter fun h => h.2 != key } }
    else t1) s

/-- A port drops what it sends and what waits for it, and forgets its link (R569 steps 1 and 2, R575). -/
def dropLink (k : Nat) (s : State) : State :=
  let p := portSt s k
  let firsts := p.sent.filter fun f => f.first
  let s1 := setPort k { p with
    sent := [], again := 0, replays := 0, subst := none, retraining := false, gotParam := false, gotAck := false } s
  let s2 := firsts.foldl (fun t f => unreachNotice (portDie k) unreachDown f (outputDrop k (f.typ != 0x15) t)) s1
  let s3 := trimInputs k (unroute k p s2)
  let s4 : State := { s3 with links := { s3.links with held := s3.links.held.filter fun h => h.1 / 4 != k } }
  setPeerHold k false (setLinkStat k 7 4 0 (wr (pPort k) 0x114 0 s4))

/-- A port enters DOWN with a cause (R548, R569, R583). -/
def portDown (k cause : Nat) (s : State) : State :=
  let s1 := bumpGen (pPort k) (dropLink k s)
  let s2 := setPort k { portSt s1 k with downAt := s.now, fails := 0 } s1
  let s3 := setLinkStat k 13 10 cause (setLState k 8 (wr (pOptics k) 0x100 (regReset (regKey 0 (pOptics k) 0x100)) s2))
  let e : ErrRec := { cls := 0x40, detail := cause, gen := (unitSt s3 (pPort k)).gen.toNat, srcDie := portDie k, srcUnit := pageUnit (pPort k), srcLogical := 0x3F }
  pump (portDist k false 0 false (captureErr (pPort k) e (event (pPort k) 1 s3)))

/-- A port goes OFF with its unit (R543, R570, R575). -/
def portOff (k : Nat) (s : State) : State :=
  if portLState s k = 0 then s
  else
    let s1 := setLState k 0 (dropLink k s)
    pump (portDist k false 0 false (setPort k { portSt s1 k with heldDown := false } s1))

/-- FORCE_OFF of a port that is not OFF: its record and DOWN_CAUSE say FORCED (R583). -/
def portForced (k : Nat) (s : State) : State :=
  if portLState s k = 0 then s
  else captureErr (pPort k) {
    cls := 0x40, detail := 0x0A, gen := (unitSt s (pPort k)).gen.toNat, srcDie := portDie k, srcUnit := pageUnit (pPort k)
    srcLogical := 0x3F } (setLinkStat k 13 10 0x0A s)

/-- A port follows its unit's state (R543): ACTIVE takes it from OFF to DETECT, OFF, FAULTED and RETIRED to OFF. -/
def portFollow (k : Nat) (s : State) : State :=
  match (unitSt s (pPort k)).state with
  | .active => if portLState s k = 0 then enterDetect k s else s
  | .off | .faulted | .retired => portOff k s
  | _ => s

end Sys2Proof.Machine
end

