-- ==== Sys2Proof/Machine/LinkCmds.lean ====
section
/-! DEFINITION. Commands of the links and inner paths (12_birore_links.md, 01_organisation.md; rows DATA_FLIT to LASER_FAIL,
and PEER_BEACON). -/

namespace Sys2Proof.Machine

/-! ### Pace words (R618, R621) -/

/-- Whether pace bits are below LOW_THR, or report HOLD (R621). -/
def paceLow (s : State) (bits : Nat) : Bool := nbit bits 9 || decide (nfld bits 8 0 < fld (rd s pPace 0x104) 17 9)

/-- The pace bits of a node reach the lag entries that track it (R618); PACE_LOW when they are first seen low (R621). -/
def notePace (node bits : Nat) (s : State) : State :=
  let all := s.xfer.lag.flatMap fun e => e.2
  let known := all.any fun e => e.node == node
  let wasLow := all.any fun e => e.node == node && e.paceAt.isSome && paceLow s e.pace
  let s1 : State := { s with xfer := { s.xfer with lag := s.xfer.lag.map fun e =>
    (e.1, e.2.map fun x => if x.node = node then { x with pace := bits % 0x10000, paceAt := some s.now } else x) } }
  if known && paceLow s bits && !wasLow then event pPace 1 s1 else s1

/-! ### Data flits (R551) -/

/-- DATA_FLIT: a data flit arrives on a port; `ok` says that its codewords and its CRC are good. -/
def dataFlit (port : Nat) (f : Flit) (ok : Bool) (s : State) : State :=
  let p := portSt s port
  if !portUp s port ∨ s.inHold then s
  else if !ok then satInc (pPort port) 0x12C 1 (setPort port { p with nak := true } s)
  else if f.idle then s
  else if f.fseq ≠ p.rxNext then setPort port { p with nak := true } s
  else
    let key := port * 4 + f.vc % 4
    let s1 := setPort port { p with rxNext := (p.rxNext + 1) % 4096, rxAny := true, nak := false } s
    let s2 := setInQueue key (inQueue s1 key ++ [f]) s1
    pump (if f.last then addProg (pPort port) 5 1 s2 else s2)

def execDataFlit (port : Nat) (f : Flit) (ok : Bool) (s : State) : Res := .next (dataFlit port f ok s)

/-! ### Training and retraining (R543 to R548) -/

/-- Wavelengths of a direction that are failed, as LAMBDA_STAT holds them (R581). -/
def failedWls (s : State) (k : Nat) (tx : Bool) : Nat :=
  if tx then fld (rd s (pOptics k) 0x108) 8 0 else fld (rd s (pOptics k) 0x108) 17 9

/-- The usable wavelengths of a direction. -/
def goodWls (s : State) (k : Nat) (tx : Bool) : List Nat := (List.range 9).filter fun w => !nbit (failedWls s k tx) w

/-- Offset of the lane map of a direction. -/
def mapOff (tx : Bool) : Nat := if tx then 0x100 else 0x104

/-- Wavelength of a lane. -/
def laneWl (s : State) (k : Nat) (tx : Bool) (lane : Nat) : Nat := fld (rd s (pOptics k) (mapOff tx)) (4 * lane + 3) (4 * lane)

/-- The width the usable wavelengths of both directions allow (R546, R550). -/
def allowedWidth (s : State) (k : Nat) : Nat :=
  let n := min (goodWls s k true).length (goodWls s k false).length
  if 8 ≤ n then 8 else if 4 ≤ n then 4 else 0

/-- Whether the spare of a direction is in use: λ8 carries a lane, or eight lanes no longer leave one over. -/
def spareUsed (s : State) (k : Nat) (tx : Bool) (width : Nat) : Bool :=
  decide (width = 8) && (List.range 8).any fun l => laneWl s k tx l == 8

/-- Give the lanes in use wavelengths that work: a lane keeps its own where it does (R550). -/
def assignLanes (k : Nat) (tx : Bool) (width : Nat) (s : State) : State :=
  let good := goodWls s k tx
  let kept := (List.range width).filter fun l => good.contains (laneWl s k tx l)
  let taken := kept.map fun l => laneWl s k tx l
  let free := good.filter fun w => !taken.contains w
  let todo := (List.range width).filter fun l => !kept.contains l
  (todo.zip free).foldl (fun t e =>
    wr (pOptics k) (mapOff tx) (setFld (rd t (pOptics k) (mapOff tx)) (4 * e.1 + 3) (4 * e.1) e.2) t) s

/-- LAMBDA_STAT's spare bits follow the maps. -/
def spareBits (k width : Nat) (s : State) : State :=
  let w := rd s (pOptics k) 0x108
  wr (pOptics k) 0x108 (setFld (setFld w 18 18 (b2n (spareUsed s k true width))) 19 19 (b2n (spareUsed s k false width))) s

/-- A port reaches UP (R544, R547): its width, WIDTH and DIST entries follow; PEER_HOLD clears; what was not acknowledged
is sent again. -/
def portReady (k width : Nat) (training : Bool) (s : State) : State :=
  let changed := portWidth s k ≠ width ∧ !training
  let s1 := spareBits k width (assignLanes k false width (assignLanes k true width s))
  let s2 := setPort k { portSt s1 k with retraining := false, fails := 0, replays := 0 } s1
  let s3 := setPeerHold k false (setLState k 6 (setLinkStat k 7 4 width s2))
  let s4 := if training then event (pPort k) 0 s3 else s3
  let s5 := if changed then event (pPort k) 4 s4 else s4
  pump (replaySent k (if changed || training then portDist k true width (changed || width != 8) s5 else s5))

/-- The answer and the parameters of this end (R542, R546). -/
def minW4 (s : State) (k : Nat) : Bool := nbit (portSt s k).cfg 0

/-- LIGHT_DETECT (R544, R545): `crossed` says that light is on the transmit fibre only, with the number read there. -/
def execLightDetect (port : Nat) (crossed : Bool) (number : Nat) (s : State) : Res :=
  let p := portSt s port
  if s.inHold ∨ portLState s port ≠ 1 then .next s
  else if !crossed then .next (setLState port 2 s)
  else if !nbit p.cfg 1 then .next s
  else if p.number = number then .next (setPort port { p with number := (freeVal s).toNat % 2 ^ 32 } (tickFree 1 s))
  else if p.number < number then
    .next (setLState port 2 (setLinkStat port 8 8 (b2n (!bitOf (rd s (pPort port) 0x110) 8)) s))
  else .next s

/-- LAMBDA_TUNE_DONE (R544): tuning ends; the wavelengths found unusable in each direction. -/
def execLambdaTuneDone (port : Nat) (txBad rxBad : BitVec 9) (s : State) : Res :=
  if s.inHold ∨ portLState s port ≠ 2 then .next s
  else .next (setLState port 3 (wr (pOptics port) 0x108 (BitVec.ofNat 32 (txBad.toNat + 0x200 * rxBad.toNat)) s))

/-- The width two ends agree on: the lesser of the two (R550). -/
def commonWidth (a b : Nat) : Nat := if 8 ≤ min a b then 8 else if 4 ≤ min a b then 4 else 0

/-- The width of a link in training or retraining: what the ends agreed on, and what this end's wavelengths still allow. -/
def linkWidth (s : State) (k : Nat) : Nat :=
  if portLState s k = 4 ∨ portLState s k = 5 then commonWidth (portSt s k).agreedWidth (allowedWidth s k) else allowedWidth s k

/-- ALIGN_DONE (R544, R550): the width is agreed with what the peer's wavelengths allow. -/
def execAlignDone (port width : Nat) (s : State) : Res :=
  if s.inHold ∨ ¬(portLState s port = 3 ∨ portLState s port = 7) then .next s
  else .next (setLState port 4 (setPort port { portSt s port with agreedWidth := commonWidth width (allowedWidth s port) } s))

/-- Both ends' parameters are known and accepted (R544, R547): CREDIT, or the end of the retrain's checks. -/
def paramDone (k : Nat) (s : State) : State :=
  let p := portSt s k
  if p.gotParam && p.gotAck && !p.retraining then setLState k 5 s else s

/-- The checks of R546 on the peer's parameters: the cause of refusal. -/
def paramRefused (s : State) (k node : Nat) (valid : Bool) (port : Nat) (width4 : Bool) : Option Nat :=
  let p := portSt s k
  let loop := nbit p.cfg 2
  let ex := rd s (pPort k) 0x108
  if !bitOf (rd s (pPort 0) 0x100) 12 || !valid then some 2
  else if !loop && node == nodeId s then some 5
  else if loop && (node != nodeId s || port != k) then some 5
  else if !loop && bitOf ex 18 && (node != fld ex 11 0 || port != fld ex 17 12) then some 5
  else if linkWidth s k = 0 ∨ (linkWidth s k = 4 ∧ !(minW4 s k && width4)) then some 4
  else none

/-- PARAM (R546): the peer's parameters are taken and answered, or the link is refused. -/
def param (k node : Nat) (valid : Bool) (port : Nat) (width4 : Bool) (echo : Nat) (s : State) : State :=
  if s.inHold ∨ portLState s k ≠ 4 then s
  else
    let peer := wr (pPort k) 0x114 (BitVec.ofNat 32 (node % 4096 + 0x1000 * (port % 64) + 0x40000)) s
    match paramRefused s k node valid port width4 with
    | some c => portDown k c (if c = 5 then event (pPort k) 6 peer else peer)
    | none =>
      let ack : LinkMsg := .paramAck (nodeId s) (bitOf (rd s (pPort 0) 0x100) 12) k (minW4 s k) echo
      paramDone k (emit (.linkMsg k ack) (setPort k { portSt peer k with gotParam := true, peerW4 := width4 } peer))

def execParam (port node : Nat) (valid : Bool) (peer : Nat) (width4 : Bool) (echo : Nat) (s : State) : Res :=
  .next (param port node valid peer width4 echo s)

/-- PARAM_ACK (R544, R546): RTT from the echoed timestamp, and the fibre length the port derives from it. -/
def paramAck (k echo fibre : Nat) (s : State) : State :=
  if s.inHold ∨ portLState s k ≠ 4 then s
  else
    let loop := nbit (portSt s k).cfg 2
    let m := if loop then 0 else fibre
    let rtt := (s.now + 2 ^ 32 - echo % 2 ^ 32) % 2 ^ 32
    let s1 := wr (pPort k) 0x118 (BitVec.ofNat 32 (min rtt 0xFFFF + 0x10000 * (min m 0xFFF))) s
    if 2000 < m then portDown k 6 s1
    else paramDone k (setPort k { portSt s1 k with gotAck := true } s1)

def execParamAck (port echo fibre : Nat) (s : State) : Res := .next (paramAck port echo fibre s)

/-- CREDIT_DONE (R544, R554): the initial credits are set, FSEQ is 0 in both directions, and the link is UP. -/
def execCreditDone (port : Nat) (s : State) : Res :=
  if s.inHold ∨ portLState s port ≠ 5 then .next s
  else
    let p := portSt s port
    .next (portReady port p.agreedWidth true (setPort port { p with
      txNext := 0, sent := [], again := 0, lastAck := 0, rxNext := 0, rxAny := false, nak := false
      dedSent := [0, 0, 0, 0], dedFreed := [0, 0, 0, 0], shUse := [], shFreed := 0, fDed := [0, 0, 0, 0], fSh := 0, ackAt := s.now } s))

/-- A failed retrain: three in a row take the port to DOWN (R547). -/
def retrainFailed (k : Nat) (s : State) : State :=
  let p := portSt s k
  let s1 := satInc (pPort k) 0x11C 1 s
  if 2 ≤ p.fails then portDown k 2 s1
  else setLState k 7 (setPort k { p with fails := p.fails + 1, gotParam := false, gotAck := false } s1)

/-- TRAINING_TIMEOUT (R544): a step that overruns its bound returns the port to DETECT; a retrain has failed. -/
def execTrainingTimeout (port : Nat) (s : State) : Res :=
  let l := portLState s port
  if s.inHold ∨ ¬((2 ≤ l ∧ l ≤ 5) ∨ l = 7) then .next s
  else if (portSt s port).retraining then .next (retrainFailed port s)
  else .next (satInc (pPort port) 0x11C 1 (enterDetect port s))

/-- RETRAIN_DONE (R547, R550): a retrain succeeds, at the width the wavelengths allow, or fails. -/
def execRetrainDone (port : Nat) (ok : Bool) (s : State) : Res :=
  let p := portSt s port
  let w := linkWidth s port
  if s.inHold ∨ !p.retraining then .next s
  else if !ok then .next (retrainFailed port s)
  else if w = 0 ∨ (w = 4 ∧ !(minW4 s port && p.peerW4)) then .next (portDown port 4 s)
  else .next (portReady port w false s)

/-- LOSS_OF_LIGHT (R548, R573, R575): lost for 10 µs, or for 100 µs in STANDBY. What a port with PEER_HOLD loses is its
peer's beacon, which has a bound and a row of its own. -/
def execLossOfLight (port : Nat) (s : State) : Res :=
  let l := portLState s port
  if l = 9 then .next (setPort port { portSt s port with lostLight := true } s)
  else if l = 0 ∨ l = 1 ∨ l = 8 ∨ portPeerHold s port then .next s
  else .next (portDown port 1 s)

/-- DOWN_HOLDOFF (R548): the hold-off of a port in DOWN ends. -/
def execDownHoldoff (port : Nat) (s : State) : Res :=
  let p := portSt s port
  let ms := if p.cfg / 16 % 4096 = 0 then 10 else p.cfg / 16 % 4096
  if s.inHold ∨ portLState s port ≠ 8 ∨ p.heldDown ∨ !nbit p.cfg 3 ∨ s.now < p.downAt + ms * 1000000 then .next s
  else .next (enterDetect port s)

/-- LINK_CMD.RETRAIN (R543, R547, R548). -/
def linkRetrain (k : Nat) (s : State) : State :=
  if s.inHold then s
  else if portLState s k = 6 then enterRetrain k s
  else if portLState s k = 8 then enterDetect k s
  else s

/-- LINK_CMD.DOWN (R548). -/
def linkDown (k : Nat) (s : State) : State :=
  if s.inHold ∨ portLState s k = 0 ∨ portLState s k = 8 then
    (if portLState s k = 8 then setPort k { portSt s k with heldDown := true } s else s)
  else
    let s1 := portDown k 0x0A s
    setPort k { portSt s1 k with heldDown := true } s1

/-- A write of LINK_CMD: DOWN over RETRAIN (R579). -/
def linkCmdWrite (k : Nat) (w : Word) (s : State) : State :=
  if bitOf w 1 then linkDown k s else if bitOf w 0 then linkRetrain k s else s

def execLinkCmdRetrain (port : Nat) (s : State) : Res := .next (linkCmdWrite port 1 s)
def execLinkCmdDown (port : Nat) (s : State) : Res := .next (linkCmdWrite port 2 s)

/-! ### HOLD on a link (R572 to R574) -/

/-- The peer is in HOLD: PEER_HOLD is set, and no data flit is sent (R573). -/
def peerHold (k : Nat) (s : State) : State :=
  if portLState s k = 6 ∨ portLState s k = 7 ∨ (portSt s k).retraining then setPeerHold k true s else s

def execLinkHold (port : Nat) (s : State) : Res := .next (peerHold port s)

/-- RESUME (R574): the port retrains; PEER_HOLD clears when it is UP again. -/
def peerResume (k : Nat) (s : State) : State :=
  if !s.inHold ∧ portLState s k = 6 ∧ portPeerHold s k then enterRetrain k s else s

def execLinkResume (port : Nat) (s : State) : Res := .next (peerResume port s)

/-- PEER_BEACON (R573): the peer's slots give way to a beacon. -/
def execPeerBeacon (port : Nat) (s : State) : Res := .next (peerHold port s)

/-- BEACON_LOSS (R573): the beacon of a peer in HOLD is lost for 100 µs. -/
def execBeaconLoss (port : Nat) (s : State) : Res :=
  if !s.inHold ∧ portPeerHold s port then .next (portDown port 9 s) else .next s

/-- RETRAIN_REQ (R547). -/
def retrainReq (k : Nat) (s : State) : State := if !s.inHold ∧ portLState s k = 6 then enterRetrain k s else s

def execRetrainReq (port reason : Nat) (s : State) : Res := let _ := reason; .next (retrainReq port s)

/-! ### Wavelengths (R549, R550, R581) -/

/-- The lane a wavelength carries in a direction, at the port's width. -/
def laneOfWl (s : State) (k : Nat) (tx : Bool) (wl : Nat) : Option Nat :=
  (List.range (portWidth s k)).find? fun l => laneWl s k tx l == wl

/-- A wavelength fails (R549, R550): it joins the failed list; its lane moves to the spare where that is free, else the
port retrains to half width, or goes DOWN below 4 wavelengths. -/
def wlFails (k : Nat) (tx : Bool) (wl : Nat) (s : State) : State :=
  if 9 ≤ wl ∨ nbit (failedWls s k tx) wl then s
  else
    let b := if tx then wl else 9 + wl
    let s1 := wr (pOptics k) 0x108 (rd s (pOptics k) 0x108 ||| oneBit b) s
    if portLState s k ≠ 6 ∨ s.inHold then s1
    else
      match laneOfWl s1 k tx wl with
      | none => s1
      | some lane =>
        let spare := (goodWls s1 k tx).find? fun w => (laneOfWl s1 k tx w).isNone
        match spare, (portSt s1 k).subst with
        | some w, none =>
          let p := portSt s1 k
          let at64 := ((if tx then p.txNext else p.rxNext) + 64) % 4096
          emit (.linkMsg k (.lambdaReq lane w at64 (!tx))) (setPort k { p with subst := some { lane := lane, wl := w, atFseq := at64, tx := tx } } s1)
        | some _, some _ => s1
        | none, _ => if (goodWls s1 k tx).length < 4 then portDown k 4 s1 else enterRetrain k s1

/-- LAMBDA_REQ (R549): the peer asks to move a lane; DIR names the direction as the sender sees it. -/
def lambdaReq (k lane wl atFseq : Nat) (dir : Bool) (s : State) : State :=
  if s.inHold ∨ portLState s k ≠ 6 then s
  else
    emit (.linkMsg k (.lambdaAck lane wl atFseq dir)) (setPort k { portSt s k with
      subst := some { lane := lane, wl := wl, atFseq := atFseq, tx := dir, agreed := true } } s)

def execLambdaReq (port lane wl atFseq : Nat) (dir : Bool) (s : State) : Res := .next (lambdaReq port lane wl atFseq dir s)

/-- LAMBDA_ACK (R549): the peer agrees. -/
def lambdaAck (k lane wl atFseq : Nat) (dir : Bool) (s : State) : State :=
  match (portSt s k).subst with
  | some x =>
    if x.lane = lane ∧ x.wl = wl ∧ x.atFseq = atFseq ∧ x.tx = !dir then setPort k { portSt s k with subst := some { x with agreed := true } } s
    else s
  | none => s

def execLambdaAck (port lane wl atFseq : Nat) (dir : Bool) (s : State) : Res := .next (lambdaAck port lane wl atFseq dir s)

/-- LAMBDA_SWITCH (R549): both ends switch the lane. -/
def execLambdaSwitch (port : Nat) (s : State) : Res :=
  match (portSt s port).subst with
  | some x =>
    if s.inHold ∨ !x.agreed ∨ portLState s port ≠ 6 then .next s
    else
      let s1 := wr (pOptics port) (mapOff x.tx) (setFld (rd s (pOptics port) (mapOff x.tx)) (4 * x.lane + 3) (4 * x.lane) x.wl) s
      let s2 := wearWrite 4 (portDie port) (pageUnit (pPort port)) x.wl 0x3F x.lane s1
      .next (event (pPort port) 3 (spareBits port (portWidth s port) (setPort port { portSt s2 port with subst := none } s2)))
  | none => .next s

/-- SER_MEASURE (R549): a receive wavelength's corrected symbols of `symbols` in the last 1 ms, and its tuning headroom. -/
def execSerMeasure (port wl errors symbols headroom : Nat) (s : State) : Res :=
  if 9 ≤ wl ∨ s.inHold ∨ portLState s port ≠ 6 then .next s
  else
    let cfg := rd s (pOptics port) 0x10C
    let e := fld cfg 4 0
    let exp := if 8 ≤ e ∧ e ≤ 20 then e else 14
    let bad := decide (symbols < errors * 2 ^ exp)
    let s1 := wr (pOptics port) (0x110 + 4 * wl) (sat32 errors) s
    let s2 := if bad then event (pPort port) 9 s1 else s1
    .next (if bad ∨ headroom < fld cfg 15 8 then wlFails port false wl s2 else s2)

/-- A write of LAMBDA_CMD (R581). -/
def lambdaCmd (k : Nat) (w : Word) (s : State) : State :=
  let wl := fld w 3 0
  let tx := !bitOf w 4
  let s1 := if bitOf w 5 then wlFails k tx wl s else s
  if bitOf w 6 ∧ wl < 9 then wr (pOptics k) 0x108 (rd s1 (pOptics k) 0x108 &&& ~~~oneBit (if tx then wl else 9 + wl)) s1 else s1

def execLambdaCmdFail (port wl : Nat) (rx : Bool) (s : State) : Res :=
  .next (lambdaCmd port (BitVec.ofNat 32 (wl % 16 + 16 * b2n rx + 32)) s)
def execLambdaCmdClear (port wl : Nat) (rx : Bool) (s : State) : Res :=
  .next (lambdaCmd port (BitVec.ofNat 32 (wl % 16 + 16 * b2n rx + 64)) s)

/-! ### Control flits (R541, R551, R554) -/

/-- A flit has been replayed 16 times (R547): the port records the cause and retrains. -/
def retryExhaust (k : Nat) (s : State) : State :=
  let e : ErrRec := {
    cls := 0x40, detail := 3, gen := (unitSt s (pPort k)).gen.toNat, srcDie := portDie k, srcUnit := pageUnit (pPort k)
    srcLogical := 0x3F }
  enterRetrain k (captureErr (pPort k) e s)

/-- REPLAY_TIMEOUT (R551). -/
def execReplayTimeout (port : Nat) (s : State) : Res :=
  let p := portSt s port
  if s.inHold ∨ !portUp s port ∨ portPeerHold s port ∨ p.sent = []
      ∨ s.now < p.ackAt + 2 * fld (rd s (pPort port) 0x118) 15 0 + 1000 then .next s
  else if 15 ≤ p.replays then
    .next (retryExhaust port s)
  else .next (replaySent port (setPort port { p with replays := p.replays + 1 } s))

/-- A snapshot trigger that arrives on a port (R99, R575): a duplicate is dropped; in HOLD it waits for resumption. -/
def fabSnap (k origin seq : Nat) (s : State) : State :=
  if !bitOf (rd s pSnap 0x100) 1 ∨ s.snap.seen.contains (origin, seq) then s
  else if s.inHold then { s with snap := { s.snap with waiting := s.snap.waiting ++ [(k, origin, seq)] } }
  else
    let s1 : State := { s with snap := { s.snap with seen := ((origin, seq) :: s.snap.seen).take 16 } }
    let s2 := if snapLatched s1 && !bitOf (rd s1 pSnap 0x100) 3 then satInc pSnap 0x114 1 s1 else latchAll seq 8 origin s1
    ((List.range 48).filter fun q => q != k && portLState s2 q == 6).foldl (fun t q => emit (.snapTrig q origin seq) t) s2

def execSnapTrig (port origin seq : Nat) (s : State) : Res := .next (fabSnap port origin seq s)

/-- A link message of a control flit (R542). Repeats find nothing left to do. -/
def linkMsg (k : Nat) (m : LinkMsg) (s : State) : State :=
  match m with
  | .snapTrig o q => fabSnap k o q s
  | .hold _ => peerHold k s
  | .resume _ => peerResume k s
  | .lambdaReq l w a d => if (portSt s k).subst = some { lane := l, wl := w, atFseq := a, tx := d, agreed := true } then s else lambdaReq k l w a d s
  | .lambdaAck l w a d => lambdaAck k l w a d s
  | .param n v p w e => param k n v p w e s
  | .paramAck _ _ _ _ e => paramAck k e (fld (rd s (pPort k) 0x118) 27 16) s
  | .retrainReq _ => retrainReq k s

/-- The acknowledged flits leave the replay buffer (R551). -/
def takeAck (k ack : Nat) (s : State) : State :=
  let p := portSt s k
  match p.sent.findIdx? fun f => f.fseq == ack with
  | some i => setPort k { p with sent := p.sent.drop (i + 1), again := 0, replays := 0, ackAt := s.now, lastAck := ack } s
  | none => s

/-- The credits a control flit returns (R554): shared credits come back to the VCs that used them first. -/
def takeCredits (k : Nat) (c : CtlFlit) (s : State) : State :=
  let p := portSt s k
  setPort k { p with
    dedFreed := c.crDed, shUse := p.shUse.drop ((c.crShared + 2 ^ 32 - p.shFreed) % 2 ^ 32), shFreed := c.crShared } s

/-- CONTROL_FLIT (R541, R551, R554, R573): `ok` says that its CRC is good. -/
def controlFlit (k : Nat) (c : CtlFlit) (ok : Bool) (s : State) : State :=
  let l := portLState s k
  if !ok ∨ s.inHold ∨ l = 0 ∨ l = 1 ∨ l = 8 ∨ l = 9 then s
  else
    let peer := fld (rd s (pPort k) 0x114) 11 0
    let s1 := if bitOf (rd s (pPort k) 0x114) 18 then notePace peer c.pace s else s
    let s2 := if l = 6 ∨ (portSt s1 k).retraining then takeCredits k c (if c.ackV then takeAck k c.ackSeq s1 else s1) else s1
    let s3 := if c.hold then peerHold k s2 else s2
    let p := portSt s3 k
    let s4 := if c.nak ∧ l = 6 ∧ p.sent ≠ [] then
        (if 15 ≤ p.replays then retryExhaust k s3 else replaySent k (setPort k { p with replays := p.replays + 1 } s3))
      else s3
    pump (c.msgs.foldl (fun t m => linkMsg k m t) s4)

def execControlFlit (port : Nat) (c : CtlFlit) (ok : Bool) (s : State) : Res := .next (controlFlit port c ok s)

/-! ### Registers of ports (R579, R582, R583) -/

/-- One routing entry is replaced, in every table under RT_SCOPE.ALL (R565, R582); INDEX advances under AUTOINC. -/
def rtCommit (k lo hi : Nat) (s : State) : State :=
  let p := pRoute k
  let idx := fld (rd s p 0x100) 11 0
  let v := (lo + hi * 0x100000000) % 2 ^ 45
  let ports := if bitOf (rd s p 0x104) 0 then List.range 48 else [k]
  let s1 : State := { s with links := { s.links with
    routes := ports.foldl (fun m q => sput (fun _ => 0) m (q * 4096 + idx) v) s.links.routes } }
  if bitOf (rd s p 0x100) 31 then wr p 0x100 (setFld (rd s p 0x100) 11 0 (idx + 1)) s1 else s1

/-- A write of RT_ENTRY_LO (staged), RT_ENTRY_HI (commits) or both. -/
def rtEntryWrite (k off : Nat) (data : DWord) (wide : Bool) (s : State) : State :=
  let p := pRoute k
  let lo := data.toNat % 2 ^ 32
  if 48 ≤ k then s
  else if off = 0x108 ∧ wide then rtCommit k lo (data.toNat / 2 ^ 32) s
  else if off = 0x108 then wr p 0x108 (BitVec.ofNat 32 lo) s
  else if off = 0x10C then rtCommit k (rd s p 0x108).toNat lo s
  else s

def execRtEntryCommit (port off : Nat) (data : DWord) (wide : Bool) (s : State) : Res := .next (rtEntryWrite port off data wide s)

/-- NODE_ID_WRITE (R579). -/
def nodeIdWrite (k : Nat) (data : Word) (s : State) : State :=
  if 48 ≤ k then s
  else if (List.range 48).any fun q => portLState s q != 0 then event (pPort k) 8 s
  else (List.range 48).foldl (fun t q => wr (pPort q) 0x100 (data &&& 0x1FFF) t) s

def execNodeIdWrite (port : Nat) (data : Word) (s : State) : Res := .next (nodeIdWrite port data s)

/-- CR_CFG_WRITE (R583). -/
def crCfgWrite (k : Nat) (data : Word) (s : State) : State :=
  if 48 ≤ k then s
  else if portLState s k = 0 ∨ portLState s k = 8 then wr (pCredit k) 0x100 (data &&& 0x7FF) s
  else event (pPort k) 8 s

def execCrCfgWrite (port : Nat) (data : Word) (s : State) : Res := .next (crCfgWrite port data s)

/-! ### Inner paths and lasers (R29, R30, R38 to R42) -/

/-- The path from die `a` to die `b`. -/
def pathSt (s : State) (a b : Nat) : InnerPath := sget (fun _ => ({} : InnerPath)) s.org.paths (a * 16 + b)

def setPath (a b : Nat) (p : InnerPath) (s : State) : State :=
  { s with org := { s.org with paths := sput (fun _ => ({} : InnerPath)) s.org.paths (a * 16 + b) p } }

/-- DIST entries between two dies after a change of their path (R49, R50, R53): every tile of `a` to every target of
`b`. The values are calibration and measured rates (free); HOPS is 3 and the targets stay VALID where the traffic is
relayed. -/
def pathDist (a b : Nat) (relayed : Bool) (s : State) : State :=
  if 8 ≤ a ∨ 8 ≤ b then s
  else
    let targets := ((List.range 12).map fun i => b * 12 + i) ++ [96 + b, 104 + b] ++ (List.range 6).map fun i => 112 + 6 * b + i
    let ch := (List.range 12).flatMap fun t => targets.zipIdx.map fun x =>
      let i := (a * 12 + t) * 160 + x.1
      let v := (Config.freeValue (s.freeCtr + t * 20 + x.2)).toNat
      let e := setFld (setFld (sget (fun _ => (0 : Word)) s.org.dist i) 23 0 v) 28 28 1
      (i, if relayed then setFld e 27 24 3 else e)
    distUpdate ch (tickFree 240 s)

/-- The event of an inner-path unit (R41): the spec does not give its bit. -/
def innerEvent (a : Nat) (s : State) : State := event (pInner a) (9 + (freeVal s).toNat % 20) (tickFree 1 s)

/-- A path's wavelength fails (R40, R41): a spare comes in while one is left; then the wavelength is dropped. -/
def innerWlFail (a b wl : Nat) (s : State) : State :=
  let p := pathSt s a b
  if 18 ≤ wl ∨ a = b ∨ 9 ≤ a ∨ 9 ≤ b ∨ p.failed.contains wl then s
  else
    let s1 := setPath a b { p with failed := p.failed ++ [wl] } s
    if p.failed.length < 2 then wearWrite 3 a 46 (16 + p.failed.length) 0x3F (wl + 32 * b) s1
    else
      let s2 := pathDist a b p.down s1
      if a < 8 then innerEvent a s2 else s2

def execInnerWavelengthFail (src dst wl : Nat) (s : State) : Res := .next (innerWlFail src dst wl s)

/-- A path goes down and is relayed through a compute die that Holog chooses (R42). -/
def execInnerPathDown (src dst relay : Nat) (s : State) : Res :=
  let p := pathSt s src dst
  if src = dst ∨ 9 ≤ src ∨ 9 ≤ dst ∨ 8 ≤ relay ∨ relay = src ∨ relay = dst ∨ p.down ∨ p.failed.length < 18 then .next s
  else
    let s1 := pathDist src dst true (setPath src dst { p with down := true, relay := relay } s)
    .next (if src < 8 then innerEvent src s1 else s1)

/-- A laser fails (R29, R30): group 0 and 1 of a die feed wavelengths 0 to 8 and 9 to 17 of its inner paths, group 2 of a
compute die its link ports. -/
def execLaserFail (die group wl : Nat) (s : State) : Res :=
  let id := die * 32 + group * 9 + wl
  if 9 ≤ die ∨ 9 ≤ wl ∨ 3 ≤ group ∨ (die = 8 ∧ group = 2) ∨ s.org.lasersFailed.contains id then .next s
  else
    let s0 := wearWrite 5 die (if group = 2 then 36 else 46) 0 0x3F (wl + 16 * group) s
    let s1 : State := { s0 with org := { s0.org with lasersFailed := s0.org.lasersFailed ++ [id] } }
    .next (if group = 2 then (List.range 6).foldl (fun t n => wlFails (6 * die + n) true wl t) s1
      else ((List.range 9).filter fun t => t != die).foldl (fun t d => innerWlFail die d (9 * group + wl) t) s1)

end Sys2Proof.Machine
end

