-- ==== Sys2Proof/Machine/EngineCmds.lean ====
section
/-! DEFINITION. Commands that the dispatcher hands to the engines (R468 to R470, R494 to R496, R587, R606, R610 to R612,
R681; rows COPY to SIGNAL, COLLECTIVE, DIRTYLOG). -/

namespace Sys2Proof.Machine

/-! ### Engines and their slots -/

/-- State of a copy engine. -/
def engState (s : State) (d n : Nat) : UState := pageState s (pCopyEngine d n)

/-- What the units a command needs allow (R510, R681): it goes on, it waits, or no alternative is left. -/
inductive Avail where
  | go | wait | off
deriving DecidableEq, Repr

/-- Availability of one unit. -/
def availOf : UState → Avail
  | .active => .go
  | .draining | .hold => .wait
  | _ => .off

/-- Availability of the engines of a die for work any of them may take, with a free slot among the active ones (R606). -/
def dieAvail (s : State) (d : Nat) : Avail :=
  let act := (List.range 8).filter fun n => decide (engState s d n = .active)
  if act ≠ [] then (if (s.xfer.msgs.filter fun m => m.die == d).length < 64 * act.length then .go else .wait)
  else if (List.range 8).any fun n => decide (engState s d n = .draining) || decide (engState s d n = .hold) then .wait
  else .off

/-- Messages of one queue's engine. -/
def queueMsgs (s : State) (d n : Nat) : Nat := (s.xfer.msgs.filter fun m => m.die == d && m.engine == some n).length

/-- Availability of the engine of a source queue (R587). -/
def queueAvail (s : State) (q : Nat) : Avail :=
  match availOf (engState s (q % 8) (q / 8)) with
  | .go => if queueMsgs s (q % 8) (q / 8) < 64 then .go else .wait
  | a => a

/-- A command completes ABORTED because a needed unit is off (R681). -/
def unitOffAbort (c : Cmd) (s : State) : State := dispSync (abortCmd (0x30, 0x06) c s)

/-- Put messages on the engines, numbered in order of start. -/
def addMsgs (l : List Msg) (s : State) : State :=
  { s with xfer := { s.xfer with
      nextId := s.xfer.nextId + l.length
      msgs := s.xfer.msgs ++ l.zipIdx.map fun e => { e.1 with id := s.xfer.nextId + e.2 } } }

/-- A command's unit has taken it. -/
def takeCmd (c : Cmd) (s : State) : State :=
  updCmd c.ring c.no (fun x => { x with launched := true, worked := true }) s

/-- A message of a command. -/
def msgOf (c : Cmd) (kind : MsgKind) (die : Nat) (engine : Option Nat) : Msg :=
  { id := 0, die := die, engine := engine, ring := c.ring, no := c.no, slice := c.slice, pasid := c.pasid, kind := kind }

/-- A failure of a command that a unit records, with its event (R598, R629). -/
def unitFail (c : Cmd) (p cls dt : Nat) (s : State) : State :=
  failHere c (cls, dt) (decide (0x10 ≤ cls ∧ cls ≤ 0x13)) (event p 0 (captureErr p (cmdErr s c p cls dt) s))

/-- Run a command that waits for its unit. -/
def withCmd (ring seq opc : Nat) (s : State) (p : Cmd → Bool) (f : Cmd → State) : Res :=
  match waitingCmd s ring seq opc with
  | none => .next s
  | some c => .next (if dispRuns s && p c then f c else s)

/-! ### COPY (R494, R606) -/

/-- The die whose engines run a COPY: the DIE field, or the owner of the first destination line (source line of a FLUSH). -/
def copyDie (c : Cmd) (s : State) : VRes Nat :=
  if c.fld 40 7 4 < 8 then .ok (c.fld 40 7 4) s
  else
    let flush := c.fld 40 1 0 == 1
    (xlateRange c.ctx pDispatch c.pasid (if flush then bytesAt c.raw 16 8 else bytesAt c.raw 24 8) 1 (if flush then .read else .write) s).bind
      fun ps s1 =>
        match ps with
        | p :: _ => .ok (if inTier p.pa then ownerDie p.pa else homeSeg p.pa p.il / 12) s1
        | [] => .ok 0 s1

/-- A COPY of any mode becomes a message of its die. -/
def copyStart (c : Cmd) (s : State) : State :=
  match copyDie c s with
  | .migrating va s1 => holdCmd c va s1
  | .fault cl dt _ s1 => failXlate c cl dt s1
  | .ok d s1 =>
    match dieAvail s1 d with
    | .wait => s1
    | .off => unitOffAbort c s1
    | .go =>
      let kind : MsgKind := if c.fld 40 1 0 = 0 then .copy else if c.fld 40 1 0 = 1 then .flush else .fill
      takeCmd c (addMsgs [{ msgOf c kind d none with
        src := bytesAt c.raw 16 8, dst := bytesAt c.raw 24 8, len := c.fld 32 39 0, pattern := bytesAt c.raw 44 4 }]
        (dropHeld pDispatch c.ring s1))

def execCopy (ring seq : Nat) (s : State) : Res := withCmd ring seq 3 s (fun c => c.fld 40 1 0 == 0) fun c => copyStart c s
def execCopyFlush (ring seq : Nat) (s : State) : Res := withCmd ring seq 3 s (fun c => c.fld 40 1 0 == 1) fun c => copyStart c s
def execCopyFill (ring seq : Nat) (s : State) : Res := withCmd ring seq 3 s (fun c => c.fld 40 1 0 == 2) fun c => copyStart c s

/-! ### PUT, GET and SIGNAL (R495, R587, R629) -/

/-- FAB_EN of a slice as a unit acts on it (R584). -/
def fabEn (s : State) (u slice : Nat) : Bool := bitOf (slStg s u slice 0x20) 0

/-- A transfer becomes a message of its queue's engine. -/
def transferStart (c : Cmd) (m : Msg) (s : State) : State :=
  let q := c.fld 40 17 12
  let p := pCopyEngine (q % 8) (q / 8)
  match queueAvail s q with
  | .wait => s
  | .off => unitOffAbort c s
  | .go =>
    if !fabEn s p c.slice then unitFail c p 0x13 0x03 s
    else
      takeCmd c (addMsgs [{ m with
        die := q % 8, engine := some (q / 8), node := c.fld 40 11 0, queue := q, counter := c.fld 40 27 18
        countEn := nbit (bytesAt c.raw 40 4) 28, holdMs := bytesAt c.raw 44 2 }] s)

def execPut (ring seq : Nat) (s : State) : Res :=
  withCmd ring seq 4 s (fun _ => true) fun c =>
    transferStart c { msgOf c .put 0 none with src := bytesAt c.raw 16 8, dst := bytesAt c.raw 24 8, len := c.fld 32 39 0 } s

def execGet (ring seq : Nat) (s : State) : Res :=
  withCmd ring seq 5 s (fun _ => true) fun c =>
    transferStart c { msgOf c .get 0 none with src := bytesAt c.raw 24 8, dst := bytesAt c.raw 16 8, len := c.fld 32 39 0 } s

def execSignal (ring seq : Nat) (s : State) : Res :=
  withCmd ring seq 6 s (fun _ => true) fun c =>
    transferStart c { msgOf c .signal 0 none with dst := bytesAt c.raw 24 8, pattern := bytesAt c.raw 32 8 } s

/-! ### DIRTYLOG (R468 to R470) -/

/-- Bytes of one die's dirty bitmap (R466, R468). -/
def dirtyLen : Nat := 196608

/-- The detail of a refused DIRTYLOG: DL_BODY, DL_SLICE, DL_OFF. -/
def dirtyBad (s : State) (c : Cmd) : Option Nat :=
  let w := bytesAt c.raw 24 4
  let dies := (List.range 8).filter fun d => nbit w (8 + d)
  let sl := if nbit w 6 then nfld w 5 0 else c.slice
  if nfld w 31 16 ≠ 0 ∨ bytesAt c.raw 28 4 ≠ 0 ∨ nfld w 15 8 = 0 ∨ bytesAt c.raw 16 8 % 64 ≠ 0 then some 0x80
  else if nbit w 6 ∧ sliceFunc s pDispatch c.slice ≠ 0 then some 0x81
  else if dies.any fun d => !bitOf (rdB s sl (dlPage d) 0x110) 0 then some 0x82
  else none

/-- DIRTYLOG: one share on the engines of every named die. -/
def dirtyStart (c : Cmd) (s : State) : State :=
  let w := bytesAt c.raw 24 4
  let dies := (List.range 8).filter fun d => nbit w (8 + d)
  let sl := if nbit w 6 then nfld w 5 0 else c.slice
  match dirtyBad s c with
  | some d =>
    let p := pWalkers (dies.headD 0)
    failHere c (0x13, d) true (captureErr p (cmdErr s c p 0x13 d) s)
  | none =>
    if dies.any fun d => decide (dieAvail s d = .off) then unitOffAbort c s
    else if dies.any fun d => decide (dieAvail s d = .wait) then s
    else
      takeCmd c (addMsgs (dies.map fun d => { msgOf c (.dirty (nbit w 7) sl) d none with
        src := rd64B s sl (dlPage d) 0x108, dst := bytesAt c.raw 16 8 + dirtyLen * d, len := dirtyLen }) s)

def execDirtylog (ring seq : Nat) (s : State) : Res := withCmd ring seq 0x0E s (fun _ => true) fun c => dirtyStart c s

/-! ### COLLECTIVE (R610 to R612, R618) -/

/-- A step as its 32 bytes spell it, with its reserved bits. -/
def stepOf (b : List Byte) : PlanStep × Bool :=
  let w := bytesAt b 0 4
  let v := bytesAt b 4 4
  ({ op := nfld w 2 0, fence := nbit w 3, countEn := nbit w 4, counter := nfld w 14 5, peer := nfld w 26 15, queue := nfld v 5 0
     cidx := nfld v 21 6, a := bytesAt b 8 8, b := bytesAt b 16 8, len := bytesAt b 24 8 % 2 ^ 40 },
   nfld w 31 27 != 0 || nfld v 31 22 != 0 || nfld (bytesAt b 24 8) 63 40 != 0)

/-- The detail of a plan that R612 refuses. -/
def planBad (s : State) (c : Cmd) (hd : List Byte) (steps : List (PlanStep × Bool)) (table : List Byte) (p : Nat) : Option Nat :=
  let w := bytesAt hd 0 4
  let v := bytesAt hd 4 4
  let ranks := nfld v 11 0 + 1
  let rank := nfld v 23 12
  let uses (x : PlanStep) : Bool := x.op == 0 || x.op == 1 || x.op == 4
  if nfld w 31 11 ≠ 0 ∨ nfld v 31 24 ≠ 0 ∨ nfld (bytesAt hd 8 4) 31 16 ≠ 0 ∨ bytesAt hd 12 4 ≠ 0 ∨ !zeroBytes hd 24 64
      ∨ ranks ≤ rank ∨ (steps.any fun x => x.2 || decide (5 ≤ x.1.op) || (uses x.1 && decide (ranks ≤ x.1.peer))
          || (x.1.op == 2 && (x.1.len % 256 != 0 || x.1.a % 256 != 0 || x.1.b % 256 != 0)))
      ∨ ((List.range ranks).any fun r => nfld (bytesAt table (2 * r) 2) 15 12 != 0
          || (r != rank && nfld (bytesAt table (2 * r) 2) 11 0 == nodeId s)) then some 0x01
  else if steps.any fun x => (x.1.op == 0 || x.1.op == 4) && x.1.queue % 8 != nfld w 10 7 then some 0x02
  else if !fabEn s p c.slice then some 0x03
  else none

/-- The plan of a command. -/
def planOf (c : Cmd) (hd : List Byte) (steps : List PlanStep) (table : List Byte) : Plan :=
  let w := bytesAt hd 0 4
  let v := bytesAt hd 4 4
  { ring := c.ring, no := c.no, slice := c.slice, pasid := c.pasid, seq := c.seq, holdMs := bytesAt c.raw 28 2, ordered := nbit w 3
    bf16 := nbit w 4, isMax := nbit w 5, paceMatch := nbit w 6, rank := nfld v 23 12, steps := steps
    peers := (List.range (nfld v 11 0 + 1)).map fun r => nfld (bytesAt table (2 * r) 2) 11 0 }

/-- The lag table of a die takes the peers of a plan (R618): entries of peers no plan names make room; a peer without
room is counted in LAG_OVF. -/
def trackPeers (d : Nat) (p : Plan) (s : State) : State :=
  let live := (s.xfer.plans.filter fun e => e.1 / 16 == d).flatMap fun e => e.2.peers
  let mine := dedupNat (p.peers.zipIdx.filterMap fun e => if e.2 = p.rank then none else some e.1)
  let cur := sget (fun _ => []) s.xfer.lag d
  let new := mine.filter fun n => !(cur.any fun e => e.node == n)
  let kept := if cur.length + new.length ≤ 64 then cur else cur.filter fun e => live.contains e.node || mine.contains e.node
  let room := 64 - kept.length
  let s1 : State := { s with xfer := { s.xfer with
    lag := sput (fun _ => []) s.xfer.lag d (kept ++ (new.take room).map fun n => { node := n }) } }
  let lost := new.length - (new.take room).length
  if lost = 0 then s1 else event (pCollective d) 2 (satInc (pCollective d + 1) 0x11C lost s1)

/-- Read ranges through an engine. -/
def readRange (c : Cmd) (hp va n : Nat) (s : State) : VRes (List Byte × Bool) :=
  (xlateRange c.ctx hp c.pasid va n .read s).bind fun ps s1 => .ok (readPieces s1 ps, piecesPoison s1 ps) s1

/-- A COLLECTIVE takes a slot of its engine, or waits for one (R510, R610). The header is read through the dispatcher, the
rest of the plan and the rank table through the engine. -/
def collectiveStart (c : Cmd) (s : State) : State :=
  let va := bytesAt c.raw 16 8
  let len := bytesAt c.raw 24 4
  if len < 64 then unitFail c (pCollective 0) 0x13 0x01 s
  else
    match readRange c pDispatch va 64 s with
    | .migrating a s1 => holdCmd c a s1
    | .fault cl dt _ s1 => failXlate c cl dt s1
    | .ok (hd, bad) s1 =>
      let d := nfld (bytesAt hd 0 4) 10 7
      let n := nfld (bytesAt hd 8 4) 15 0 + 1
      if bad then unitFail c (pCollective 0) 0x20 0x09 s1
      else if 8 ≤ d then unitFail c (pCollective 0) 0x13 0x01 s1
      else if len < 64 + 32 * n then unitFail c (pCollective d) 0x13 0x01 s1
      else
        let p := pCollective d
        match availOf (pageState s1 p), (List.range 16).find? fun k => (slook s1.xfer.plans (d * 16 + k)).isNone with
        | .off, _ => unitOffAbort c s1
        | .wait, _ => s1
        | .go, none => s1
        | .go, some slot =>
          let ranks := nfld (bytesAt hd 4 4) 11 0 + 1
          match (readRange c p (va + 64) (32 * n) s1).bind fun x t => (readRange c p (bytesAt hd 16 8) (2 * ranks) t).bind fun y t1 => .ok (x, y) t1 with
          | .migrating a s2 => holdCmd c a s2
          | .fault cl dt _ s2 => failXlate c cl dt s2
          | .ok (x, y) s2 =>
            let steps := (List.range n).map fun i => stepOf ((x.1.drop (32 * i)).take 32)
            if x.2 || y.2 then unitFail c p 0x20 0x09 s2
            else
              match planBad s2 c hd steps y.1 p with
              | some dt => unitFail c p 0x13 dt s2
              | none =>
                let pl := planOf c hd (steps.map fun e => e.1) y.1
                let s3 := dropHeld pDispatch c.ring s2
                takeCmd c (trackPeers d pl { s3 with xfer := { s3.xfer with plans := sadd s3.xfer.plans (d * 16 + slot) pl } })

def execCollective (ring seq : Nat) (s : State) : Res := withCmd ring seq 8 s (fun _ => true) fun c => collectiveStart c s

end Sys2Proof.Machine
end

