-- ==== Sys2Proof/Machine/Engines.lean ====
section
/-! DEFINITION. The copy engines, flows and the transfer engines (13_collectives.md; rows CHUNK_SEND to GET_FAIL,
XE_FLOW_RESET). A chunk is sent, and a packet taken, in one step (assumption log 12). -/

namespace Sys2Proof.Machine

/-! ### Flows -/

/-- The sending side of a flow. -/
def txFlow (s : State) (q node : Nat) : FlowTx := sget (fun _ => ({} : FlowTx)) s.xfer.tx (q * 4096 + node)

def setTxFlow (q node : Nat) (f : FlowTx) (s : State) : State :=
  { s with xfer := { s.xfer with tx := sput (fun _ => ({} : FlowTx)) s.xfer.tx (q * 4096 + node) f } }

/-- The receiving side of a flow, by node × 64 + queue. -/
def rxFlow (s : State) (key : Nat) : FlowRx := sget (fun _ => ({} : FlowRx)) s.xfer.rx key

def setRxFlow (key : Nat) (f : FlowRx) (s : State) : State :=
  { s with xfer := { s.xfer with rx := sput (fun _ => ({} : FlowRx)) s.xfer.rx key f } }

/-- The message with a number. -/
def findMsg (s : State) (id : Nat) : Option Msg := s.xfer.msgs.find? fun m => m.id == id

def updMsg (id : Nat) (f : Msg → Msg) (s : State) : State :=
  { s with xfer := { s.xfer with msgs := s.xfer.msgs.map fun m => if m.id = id then f m else m } }

/-- The stream of a message at its engine (R462). -/
def msgStream (m : Msg) : Nat := 0x1000 + m.id

/-- Whether a message is held on MIGRATING. -/
def msgHeld (s : State) (m : Msg) : Bool :=
  s.xlate.heldStreams.any fun h => h.stream == msgStream m && pageKind h.holder == some .copyEngine

/-- Whether a message is a transfer on a flow. -/
def Msg.isFlow (m : Msg) : Bool := match m.kind with | .put | .get | .signal => true | _ => false

/-- What the position of a message counts up to: its length, or the one chunk of a SIGNAL (R588). -/
def Msg.goal (m : Msg) : Nat := match m.kind with | .signal => 1 | _ => m.len

/-- The chunks of a message on its flow. -/
def chunksOf (s : State) (m : Msg) : List TxChunk := (txFlow s m.queue m.node).chunks.filter fun c => c.msg == some m.id

/-- The page of the engine a message belongs to, `n` for one that any engine of the die may run. -/
def msgPage (m : Msg) (n : Nat) : Nat := pCopyEngine m.die (m.engine.getD n)

/-- The context of a message for an error record. -/
def msgCtx (s : State) (m : Msg) : ErrRec :=
  match findCmd s m.ring m.no with
  | some c => { c.ctx with pasid := m.pasid }
  | none => { ctxValid := true, pasid := m.pasid, slice := m.slice, ring := m.ring, srcLogical := 0x3F }

/-! ### Plans and messages end -/

/-- A plan ends once its steps are all done, or no further one is issued and the issued ones are done (R614). -/
def planSettle (key : Nat) (s : State) : State :=
  match slook s.xfer.plans key with
  | none => s
  | some p =>
    let issued := List.range p.next
    if (p.fail.isSome ∨ p.steps.length ≤ p.next) ∧ (issued.all fun i => p.done.contains i) then
      let pg := pCollective (key / 16)
      let s1 : State := { s with xfer := { s.xfer with plans := serase key s.xfer.plans } }
      let s2 := addProg pg 0 1 (dropHeld pg key s1)
      match p.fail, findCmd s2 p.ring p.no with
      | some (_, cl, dt), some c => unitFail c pg cl dt s2
      | _, _ => dispSync (maybeFinish p.ring p.no s2)
    else s

/-- Step `i` of a plan has completed, OK or with a failure (R613, R614). -/
def planStepDone (key i : Nat) (st : Option (Nat × Nat)) (s : State) : State :=
  match slook s.xfer.plans key with
  | none => s
  | some p =>
    let fail := match st, p.fail with
      | some x, some f => if i < f.1 then some (i, x.1, x.2) else some f
      | some x, none => some (i, x.1, x.2)
      | none, f => f
    planSettle key { s with xfer := { s.xfer with plans := sadd s.xfer.plans key { p with done := setAdd i p.done, fail := fail } } }

/-- A message ends with a status (R598, R607): its flow's unanswered chunks are cancelled (R602), and its command or plan
follows. -/
def endMsg (m : Msg) (n : Nat) (st : Nat × Nat) (s : State) : State :=
  let pg := msgPage m n
  let s0 : State := { s with xfer := { s.xfer with msgs := s.xfer.msgs.filter fun x => x.id != m.id } }
  let s1 := if m.isFlow then
      let f := txFlow s0 m.queue m.node
      let gone := f.chunks.filter fun c => c.msg == some m.id
      setTxFlow m.queue m.node { f with
        chunks := f.chunks.filter fun c => c.msg != some m.id, cancelled := f.cancelled ++ m.owed ++ gone.map fun c => c.cseq } s0
    else s0
  let s2 := addProg pg 0 1 (dropHeld pg (msgStream m) s1)
  match m.plan with
  | some (d, slot, i) =>
    let s3 := if st.1 = 0 then s2
      else event pg 0 (captureErr pg { msgCtx s2 m with
        cls := st.1, detail := st.2, gen := (unitSt s2 pg).gen.toNat, srcDie := m.die, srcUnit := pageUnit pg } s2)
    planStepDone (d * 16 + slot) i (if st.1 = 0 then none else some st) s3
  | none =>
    match findCmd s2 m.ring m.no with
    | some c => if st.1 = 0 then dispSync (maybeFinish m.ring m.no s2) else unitFail c pg st.1 st.2 s2
    | none => s2

/-- Record a failure of chunk `k` of a message; the first in chunk order counts (R598). -/
def failChunk (m : Msg) (k cls dt : Nat) (s : State) : State :=
  updMsg m.id (fun x => match x.fail with
    | some f => if k < f.1 then { x with fail := some (k, cls, dt) } else x
    | none => { x with fail := some (k, cls, dt) }) s

/-- A message ends when it has nothing left to do: the failed chunk and those before it are answered, or every chunk has
been sent and acknowledged (R596, R598, R600). -/
def settleMsg (id n : Nat) (s : State) : State :=
  match findMsg s id with
  | none => s
  | some m =>
    match m.fail with
    | some (k, cl, dt) => if (chunksOf s m).any fun c => decide (c.idx ≤ k) then s else endMsg m n (cl, dt) s
    | none => if m.goal ≤ m.pos ∧ chunksOf s m = [] then endMsg m n (0, 0) s else s

/-! ### Packets of chunks (R589 to R592) -/

/-- A transfer header (R590). -/
def xferHeader (addr ep counter : Nat) (countEn msgEnd poison resync : Bool) (cseq npkt pidx job pace value len : Nat) : List Byte :=
  leBytes 8 (addr % 2 ^ 49)
  ++ leBytes 4 (ep % 64 + 0x40 * (counter % 1024) + 0x10000 * b2n countEn + 0x20000 * b2n msgEnd + 0x40000 * b2n poison + 0x80000 * b2n resync)
  ++ leBytes 4 (cseq % 0x10000 + 0x10000 * (npkt - 1) + 0x200000 * pidx)
  ++ leBytes 4 (job % 0x10000 + 0x10000 * (pace % 0x10000)) ++ leBytes 8 value ++ leBytes 4 (len % 0x20000)

/-- FAB_EP, FAB_JOB, FAB_PASID and FAB_CTR_VA of a slice as a unit acts on them (R584). -/
def fabEp (s : State) (u slice : Nat) : Nat := fld (slStg s u slice 0x20) 6 1
def fabJob (s : State) (u slice : Nat) : Nat := fld (slStg s u slice 0x20) 22 7
def fabPasid (s : State) (u slice : Nat) : Nat := fld (slStg s u slice 0x24) 19 0
def fabCtrVa (s : State) (u slice : Nat) : Nat :=
  stg64 s u 0 (sliceReg slice 0x28).1 (sliceReg slice 0x28).2 / 0x4000 * 0x4000

/-- PACE_WORD [15:0] (R617). -/
def paceBits (s : State) : Nat := (rd s pPace 0x100).toNat % 0x10000

/-- The PSEQ the next packet of a source queue to a node takes. -/
def nextPseq (s : State) (q node : Nat) : Nat := sget (fun _ => 0) s.xfer.pseq (q * 4096 + node)

/-- Send one packet of a source queue from a die: it takes the flow's next PSEQ and the queue's ORD (R592). -/
def sendPkt (die : Nat) (slice : Option Nat) (q node typ : Nat) (payload : List Byte) (s : State) : State :=
  let key := q * 4096 + node
  let n := sget (fun _ => 0) s.xfer.pseq key
  let s1 : State := { s with xfer := { s.xfer with pseq := sput (fun _ => 0) s.xfer.pseq key ((n + 1) % 0x10000) } }
  injectPkt die slice (q / 8) {
    src := nodeId s, dst := node, queue := q, typ := typ, pseq := n
    ord := bitOf (rd s (pCopyEngine (q % 8) (q / 8)) 0x104) 0, payload := payload } s1

/-- An answer to a chunk of a flow (R591): one packet that carries the CSEQ. -/
def answerPkt (die q node typ cseq value : Nat) (s : State) : State :=
  sendPkt die none q node typ (xferHeader 0 0 0 false false false false cseq 1 0 0 (paceBits s) value 0) s

/-- Part of translated pieces. -/
def clipPieces : List Piece → Nat → Nat → List Piece
  | [], _, _ => []
  | p :: t, off, n =>
    if n = 0 then []
    else if p.len ≤ off then clipPieces t (off - p.len) n
    else
      let k := min n (p.len - off)
      { p with va := p.va + off, pa := p.pa + off, len := k } :: clipPieces t 0 (n - k)

/-- Packets of a chunk of `n` data bytes (R589). -/
def packetsFor (n : Nat) : Nat := max 1 ((n + 4047) / 4048)

/-- Send the data packets of a chunk: `mk` gives the header of packet `i` with its poison mark. -/
def sendData (die : Nat) (slice : Option Nat) (q node typ n : Nat) (ps : List Piece) (mk : Nat → Bool → List Byte) (s : State) : State :=
  let bs := readPieces s ps
  readTouch slice ps <| (List.range (packetsFor n)).foldl (fun t i =>
    let bad := piecesPoison s (clipPieces ps (4048 * i) (min 4048 (n - 4048 * i)))
    sendPkt die slice q node typ (mk i bad ++ (bs.drop (4048 * i)).take 4048) t) s

/-- Bytes of chunk `k` of a message. -/
def Msg.chunkLen (m : Msg) (k : Nat) : Nat := match m.kind with | .signal => 0 | _ => min 65536 (m.len - 65536 * k)

/-- Whether chunk `k` is the last of its message. -/
def Msg.lastChunk (m : Msg) (k : Nat) : Bool := match m.kind with | .signal => true | _ => decide (m.len ≤ 65536 * (k + 1))

/-- Put chunk `k` of a transfer on the fabric with its CSEQ (R588 to R591): whether a source byte was poisoned. -/
def emitChunk (m : Msg) (k cseq : Nat) (resync : Bool) (s : State) : VRes Bool :=
  let pg := msgPage m 0
  let n := m.chunkLen k
  let hdr (addr npkt pidx value : Nat) (bad : Bool) : List Byte :=
    xferHeader addr (fabEp s pg m.slice) m.counter m.countEn (m.lastChunk k) bad resync cseq npkt pidx (fabJob s pg m.slice) (paceBits s) value n
  match m.kind with
  | .signal => .ok false (addProg pg 4 1 (sendPkt m.die (some m.slice) m.queue m.node 0x02 (hdr m.dst 1 0 m.pattern false) s))
  | .get =>
    .ok false (addProg pg 4 1 (sendPkt m.die (some m.slice) m.queue m.node 0x03 (hdr (m.src + 65536 * k) 1 0 (m.dst + 65536 * k) false) s))
  | _ =>
    (xlateRange (msgCtx s m) pg m.pasid (m.src + 65536 * k) n .read s).bind fun ps s1 =>
      .ok (piecesPoison s1 ps) (addProg pg 4 (packetsFor n)
        (sendData m.die (some m.slice) m.queue m.node 0x01 n ps
          (fun i bad => hdr (m.dst + 65536 * k + 4048 * i) (packetsFor n) i 0 bad) s1))

/-! ### Sending chunks (R588, R600, R602, R605) -/

/-- The runs of consecutive numbers in a list of CSEQs. -/
def runsOf : List Nat → List (Nat × Nat)
  | [] => []
  | x :: t =>
    match runsOf t with
    | (a, b) :: r => if (x + 1) % 0x10000 = a then (x, b) :: r else (x, x) :: (a, b) :: r
    | [] => [(x, x)]

/-- Send a CANCEL chunk for a run (R602). -/
def emitCancel (q node cseq : Nat) (run : Nat × Nat) (resync : Bool) (s : State) : State :=
  sendPkt (q % 8) none q node 0x04 (xferHeader 0 0 0 false false false resync cseq 1 0 0 (paceBits s) (run.1 + 0x10000 * run.2) 0) s

/-- Before the next chunk of a flow its cancelled chunks are named, one CANCEL for each run (R602). -/
def sendCancels (q node : Nat) (s : State) : State :=
  let f := txFlow s q node
  let pg := pCopyEngine (q % 8) (q / 8)
  let s0 := setTxFlow q node { f with cancelled := [] } s
  (runsOf f.cancelled).foldl (fun t r =>
    let g := txFlow t q node
    let c : TxChunk := { cseq := g.next, msg := none, idx := 0, len := 0, isCancel := some r, resync := g.resync, pseq := nextPseq t q node }
    let t1 := setTxFlow q node { g with next := (g.next + 1) % 0x10000, chunks := g.chunks ++ [c], resync := false } t
    emitCancel q node g.next r g.resync (addProg pg 4 1 (satInc pg 0x110 ((r.2 + 0x10000 - r.1) % 0x10000 + 1) t1))) s0

/-- Count the bytes an engine has moved for a message (R624, R666, R689). -/
def countMoved (m : Msg) (pg n : Nat) (s : State) : State :=
  let p := sliceReg m.slice 0x40
  addRingProg m.ring 1 n (add64 p.1 p.2 n (addProg pg 2 1 (addProg pg 1 n s)))

/-- A message meets MIGRATING (R462). -/
def holdMsg (m : Msg) (pg va : Nat) (s : State) : State := event pg 1 (holdStream pg (msgStream m) m.pasid va s)

/-- The next chunk of a transfer (R588). -/
def flowChunk (m : Msg) (s : State) : State :=
  let pg := msgPage m 0
  let k := match m.kind with | .signal => 0 | _ => m.pos / 65536
  let s0 := sendCancels m.queue m.node s
  let f := txFlow s0 m.queue m.node
  match emitChunk m k f.next f.resync s0 with
  | .migrating va s1 => holdMsg m pg va s1
  | .fault cl dt _ s1 => settleMsg m.id 0 (failChunk m k cl dt s1)
  | .ok bad s1 =>
    let n := m.chunkLen k
    let g := txFlow s1 m.queue m.node
    let c : TxChunk := { cseq := f.next, msg := some m.id, idx := k, len := n, isGet := decide (m.kind = .get), last := m.lastChunk k, poison := bad
                         resync := f.resync, pseq := nextPseq s0 m.queue m.node }
    let s2 := setTxFlow m.queue m.node { g with next := (g.next + 1) % 0x10000, chunks := g.chunks ++ [c], resync := false } s1
    let s3 := countMoved m pg n (updMsg m.id (fun x => { x with pos := if m.goal ≤ m.pos + max n 1 then m.goal else m.pos + n, started := true }) s2)
    if bad then failChunk m k 0x20 0x09 s3 else s3

/-! ### Local chunks: COPY, FLUSH, FILL, DIRTYLOG -/

/-- Poison the 256 B sectors of the destination that poisoned source bytes reach (R423). -/
def carryPoison (src dst : List Piece) (n : Nat) (s : State) : State :=
  (List.range ((n + 255) / 64)).foldl (fun t i =>
    let k := min 64 (n - 64 * i)
    if k ≠ 0 ∧ piecesPoison s (clipPieces src (64 * i) k) then poisonPieces (clipPieces dst (64 * i) k) t else t) s

/-- FLUSH of one line: copies recalled, D and P sectors written to memory, the line dropped (R414). -/
def flushLine (p : Piece) (line : Nat) (s : State) : State :=
  let seg := homeSeg (line * 1024) p.il
  let s1 := recallLine seg line s
  let h := home s1 seg line
  let bad := h.sectorsIn .p
  let all := h.sectorsIn .d ++ bad
  let cells := all.flatMap fun i => cellsOfSector (fun o => h.byte o) i
  setHome seg line (h.dropData) (writeSectors line all bad cells (landWrites line s1))

/-- A local chunk of a message: its pieces translated, its effect; the flag says that poison was met. -/
def localChunk (m : Msg) (pg n : Nat) (s : State) : VRes Bool :=
  let cx := msgCtx s m
  match m.kind with
  | .copy =>
    (xlateRange cx pg m.pasid (m.src + m.pos) n .read s).bind fun a s1 =>
    (xlateRange cx pg m.pasid (m.dst + m.pos) n .write s1).bind fun b s2 =>
      let bad := piecesPoison s2 a
      let s3 := writeFor m.ring m.no m.slice b (readPieces s2 a) s2
      .ok bad (readTouch (some m.slice) a (if bad then carryPoison a b n s3 else s3))
  | .flush =>
    (xlateRange cx pg m.pasid (m.src + m.pos) n .read s).bind fun a s1 =>
      .ok false (a.foldl (fun t p => if p.mtype = 3 then t else (linesOf p.pa p.len).foldl (fun x l => flushLine p l x) t) s1)
  | .fill =>
    (xlateRange cx pg m.pasid (m.dst + m.pos) n .write s).bind fun b s1 =>
      .ok false (writeFor m.ring m.no m.slice b ((List.range n).map fun i => BitVec.ofNat 8 (m.pattern / 2 ^ (8 * (i % 4)))) s1)
  | .dirty clear slice =>
    (xlateRange cx pg m.pasid (m.dst + m.pos) n .write s).bind fun b s1 =>
      let a := m.src + m.pos
      let bs := cohBytes s1 true a n
      let s2 := writeFor m.ring m.no m.slice b bs (touch true none a n s1)
      .ok false (if clear then cohWrite true (some slice) a (List.replicate n 0) s2 else s2)
  | _ => .ok false s

/-- The next chunk of a local message on engine `n` (R608). -/
def localStep (m : Msg) (n : Nat) (s : State) : State :=
  let pg := pCopyEngine m.die n
  let len := min 65536 (m.len - m.pos)
  match localChunk m pg len s with
  | .migrating va s1 => holdMsg m pg va s1
  | .fault cl dt _ s1 => settleMsg m.id n (failChunk m (m.pos / 65536) cl dt s1)
  | .ok bad s1 =>
    let s2 := countMoved m pg len (updMsg m.id (fun x => { x with pos := x.pos + len, started := true }) (dropHeld pg (msgStream m) s1))
    settleMsg m.id n (updMsg m.id (fun x =>
      let p := x.poisoned || bad
      { x with
        poisoned := p
        fail := if p && decide (x.goal ≤ x.pos) && x.fail.isNone then some (0, 0x20, 0x09) else x.fail }) s2)

/-! ### CHUNK_SEND (R606, R607) -/

/-- Chunks of a queue that are not acknowledged. -/
def queueUnacked (s : State) (q : Nat) : Nat :=
  s.xfer.tx.foldl (fun n e => if e.1 / 4096 = q then n + e.2.chunks.length else n) 0

/-- Whether a message has a chunk ready (R588, R607, R608). -/
def msgReady (s : State) (m : Msg) : Bool :=
  m.fail.isNone && decide (m.pos < m.goal) && !msgHeld s m
  && (!m.isFlow ||
      (decide ((txFlow s m.queue m.node).chunks.length < 16) && decide (queueUnacked s m.queue < 256)
       && !(s.xfer.msgs.any fun x => decide (x.id < m.id) && x.isFlow && x.queue == m.queue && x.node == m.node
              && x.fail.isNone && decide (x.pos < x.goal))))

/-- The messages an engine could take a chunk of. -/
def engineReady (s : State) (d n : Nat) : List Msg :=
  s.xfer.msgs.filter fun m => m.die == d && (m.engine.isNone || m.engine == some n) && msgReady s m && slicePlays s (pCopyEngine d n) m.slice

/-- The message whose chunk comes next (R607). -/
def engineNext (s : State) (d n : Nat) : Option Msg :=
  let l := engineReady s d n
  let round := roundSync (dedupNat (l.map fun m => m.slice)) (sget (fun _ => []) s.xfer.rounds (d * 8 + n))
  match lowestSlice round (dedupNat (l.map fun m => m.slice)) with
  | none => none
  | some sl =>
    let rings := sortBy (fun a b => decide (a < b)) (dedupNat ((l.filter fun m => m.slice == sl).map fun m => m.ring))
    let ring := nextAfter ((slook s.xfer.turns ((d * 8 + n) * 64 + sl)).getD 8192) rings
    l.find? fun m => m.slice == sl && m.ring == ring

/-- CHUNK_SEND: an engine's chunk boundary. -/
def chunkSend (d n : Nat) (s : State) : State :=
  let st := engState s d n
  if 8 ≤ d ∨ 8 ≤ n ∨ s.inHold ∨ ¬(st = .active ∨ st = .draining) then s
  else
    match engineNext s d n with
    | none => s
    | some m =>
      let key := d * 8 + n
      let w := fld (slStg s (pCopyEngine d n) m.slice 0x0C) 15 8
      let l := engineReady s d n
      let round := roundSync (dedupNat (l.map fun x => x.slice)) (sget (fun _ => []) s.xfer.rounds key)
      let bytes := match m.kind with | .signal => 0 | _ => min 65536 (m.len - m.pos)
      let s1 : State := { s with xfer := { s.xfer with
        rounds := sput (fun _ => []) s.xfer.rounds key (roundCharge m.slice bytes w round)
        turns := sadd s.xfer.turns (key * 64 + m.slice) m.ring
        lastMsg := sadd s.xfer.lastMsg key m.id } }
      let s2 := match slook s.xfer.lastMsg key with
        | some x => if x = m.id then s1 else addProg (pCopyEngine d n) 7 1 s1
        | none => s1
      pump (if m.isFlow then flowChunk m s2 else localStep m n s2)

def execChunkSend (die engine : Nat) (s : State) : Res := .next (chunkSend die engine s)

end Sys2Proof.Machine
end

