-- ==== Sys2Proof/Machine/EnginesRx.lean ====
section
/-! DEFINITION. The transfer engines (13_collectives.md; rows PUT_DATA to PACE_PING, XE_FLOW_RESET): data packets taken,
chunks counted, answers and notices of a transfer. -/

namespace Sys2Proof.Machine

/-! ### Headers and the inbox -/

/-- A transfer header read from a packet (R590). -/
structure XHead where
  addr : Nat
  ep : Nat
  counter : Nat
  countEn : Bool
  msgEnd : Bool
  poison : Bool
  resync : Bool
  cseq : Nat
  npkt : Nat
  pidx : Nat
  job : Nat
  pace : Nat
  value : Nat
  len : Nat
deriving DecidableEq, Repr

/-- The header of a payload. -/
def headOf (b : List Byte) : XHead :=
  let w := bytesAt b 8 4
  let v := bytesAt b 12 4
  let x := bytesAt b 16 4
  { addr := nfld (bytesAt b 0 8) 48 0, ep := nfld w 5 0, counter := nfld w 15 6, countEn := nbit w 16, msgEnd := nbit w 17
    poison := nbit w 18, resync := nbit w 19, cseq := nfld v 15 0, npkt := nfld v 20 16 + 1, pidx := nfld v 25 21
    job := nfld x 15 0, pace := nfld x 31 16, value := bytesAt b 20 8, len := nfld (bytesAt b 28 4) 16 0 }

/-- Take the oldest packet of a type that waits at a die's transfer engine (R593). -/
def takePkt (die typ : Nat) (s : State) : Option (Packet × State) :=
  (takeFirst (fun p => p.typ == typ) (sget (fun _ => []) s.xfer.inbox die)).map fun r =>
    (r.1, { s with xfer := { s.xfer with inbox := sput (fun _ => []) s.xfer.inbox die r.2 } })

/-- What a command does with the oldest packet of a type: its pace bits are kept (R618), then `f`; `idle` where none
waits. Nothing moves in HOLD (R757). -/
def withPkt (die typ : Nat) (s : State) (idle : State) (f : Packet → XHead → State → State) : State :=
  if s.inHold then s
  else
    match takePkt die typ s with
    | none => idle
    | some (p, s1) => pump (f p (headOf p.payload) (notePace p.src (headOf p.payload).pace s1))

/-- The group page of a die's copy engines. -/
def pCopyGrp (d : Nat) : Nat := pageOf d 49 0

/-- The key of a received flow, and the die that keeps its state (R593). -/
def rxKey (node q : Nat) : Nat := node * 64 + q
def stateDie (key : Nat) : Nat := (key / 64 + key % 64) % 8

/-- The copy-engine page a flow's accesses and records belong to at a die (R594, R598). -/
def rxPage (die key : Nat) : Nat := pCopyEngine die (key % 64 / 8)

/-! ### Counting chunks (R585, R586, R595) -/

/-- Add to a counter in a slice's address space by the Felt ADD of R330: BYTES, and MSGS at the end of a message.
Returns what stopped it: migrating or a NACK (`migrating`), or a fault. -/
def addCounter (hp slice pasid ctrVa counter len : Nat) (msgEnd : Bool) (s : State) : VRes Unit :=
  let va := ctrVa + 16 * counter
  let cx : ErrRec := { ctxValid := true, pasid := pasid, slice := slice, srcLogical := 0x3F }
  (xlateRange cx hp pasid va 16 .write s).bind fun ps s1 =>
    match ps with
    | [] => .ok () s1
    | p :: _ =>
      let op (off n : Nat) : FReq := { kind := .atom, agent := pageDie hp, stream := 0, slice := some slice, code := 0
                                       off := (p.pa + off) % 1024, size := 8, operand := leBytes 8 n }
      let a := cohOp p.il p.pa (op 0 len) (logDirty slice p.pa s1)
      if a.2.2.2 = 0x100 then .migrating va s
      else if !msgEnd then .ok () a.1
      else .ok () (cohOp p.il p.pa (op 8 1) a.1).1

/-- A chunk's entry is complete: every packet was accepted. -/
def RxEntry.full (e : RxEntry) : Bool := decide (e.npkt ≤ e.got.length)

/-- Record a refusal and answer it (R594, R598): cause 0 XLATE, 1 ENDPOINT. -/
def refuseChunk (die key cseq cause : Nat) (slice pasid : Nat) (ctx : Bool) (s : State) : State :=
  let p := rxPage die key
  let e : ErrRec := { ctxValid := ctx, pasid := pasid, slice := slice, cls := if cause = 0 then 0x10 else 0x40, detail := 0x0B
                      gen := (unitSt s p).gen.toNat, srcDie := die, srcUnit := 49, srcLogical := 0x3F }
  answerPkt die (key % 64) (key / 64) 0x13 cseq cause (satInc (pCopyGrp die) 0x108 1 (event p 3 (captureErr p e s)))

/-- Answer BUSY (R594). -/
def busyChunk (die key cseq : Nat) (s : State) : State :=
  answerPkt die (key % 64) (key / 64) 0x12 cseq 0 (satInc (pCopyGrp die) 0x104 1 s)

/-- The effects of counting a chunk, each before the next: flag, counter, ACK (R595). -/
def countChunk (key : Nat) (e : RxEntry) (s : State) : VRes Unit :=
  let d := stateDie key
  let hp := rxPage d key
  let cx : ErrRec := { ctxValid := true, pasid := e.pasid, slice := e.slice, srcLogical := 0x3F }
  if e.isGet then .ok () s
  else
    let flag : VRes Unit := match e.signal with
      | some (a, v) => (xlateRange cx hp e.pasid a 8 .write s).bind fun ps s1 => .ok () (writePieces e.slice ps (leBytes 8 v) s1)
      | none => .ok () s
    (flag.bind fun _ s1 =>
      if e.countEn then addCounter hp e.slice e.pasid e.ctrVa e.counter e.len e.msgEnd s1 else .ok () s1).bind fun _ s2 =>
        .ok () (answerPkt d (key % 64) (key / 64) 0x11 e.cseq 0 s2)

/-- Remove a chunk's entry. -/
def dropEntry (key cseq : Nat) (s : State) : State :=
  let f := rxFlow s key
  setRxFlow key { f with entries := f.entries.filter fun e => e.cseq != cseq } s

/-- The state die counts the complete chunks of a flow in CSEQ order, skipping released ones (R595, R602). A chunk whose
counting waits on MIGRATING or is NACKed stays in its entry; one whose flag or counter faults is refused. -/
def countFlow (key : Nat) : Nat → State → State
  | 0, s => s
  | fuel + 1, s =>
    let f := rxFlow s key
    match f.expected with
    | none =>
      match f.entries.find? RxEntry.full with
      | some e => countFlow key fuel (setRxFlow key { f with expected := some e.cseq } s)
      | none => s
    | some n =>
      if f.released.contains n then
        countFlow key fuel (setRxFlow key { f with released := setDel n f.released, expected := some ((n + 1) % 0x10000) } s)
      else
        match f.entries.find? fun e => e.cseq == n && e.full with
        | none => s
        | some e =>
          match countChunk key e s with
          | .migrating _ _ => s
          | .fault _ _ _ s1 => refuseChunk (stateDie key) key n 0 e.slice e.pasid true (dropEntry key n s1)
          | .ok _ s1 =>
            let g := rxFlow s1 key
            countFlow key fuel (setRxFlow key { g with
              entries := g.entries.filter fun x => x.cseq != n, expected := some ((n + 1) % 0x10000) } s1)

/-- Count what can be counted of a flow. -/
def countAll (key : Nat) (s : State) : State :=
  countFlow key (2 * (rxFlow s key).entries.length + (rxFlow s key).released.length + 2) s

/-- Count what can be counted of every flow whose state a die keeps. -/
def countDie (die : Nat) (s : State) : State :=
  if s.inHold then s
  else pump ((s.xfer.rx.map fun e => e.1).foldl (fun t k => if stateDie k = die then countAll k t else t) s)

/-! ### Taking data packets (R594) -/

/-- The slice that receives on an endpoint: the lowest enabled one (R584). -/
def endpointSlice (s : State) (u ep : Nat) : Option Nat :=
  (List.range 64).find? fun sl => sliceEnabled s u sl && fabEn s u sl && fabEp s u sl == ep

/-- Receive entries of a die in use (R594, R625). -/
def rxInUse (s : State) (die : Nat) : Nat :=
  s.xfer.rx.foldl (fun n e => n + (e.2.entries.filter fun x => x.die == die).length) 0

/-- Whether a CSEQ has been counted already, or released. -/
def FlowRx.past (f : FlowRx) (cseq : Nat) : Bool :=
  f.released.contains cseq || (match f.expected with
    | some e => decide (0 < (e + 0x10000 - cseq) % 0x10000) && decide ((e + 0x10000 - cseq) % 0x10000 < 0x8000)
    | none => false)

/-- A chunk is refused or answered BUSY: its entry goes, and the rest of that sending is discarded. -/
def turnAway (key : Nat) (h : XHead) (s : State) : State :=
  let f := rxFlow s key
  let got := match f.entries.find? fun e => e.cseq == h.cseq with | some e => e.got | none => []
  let rest := serase h.cseq f.refused
  setRxFlow key { f with
    entries := f.entries.filter fun e => e.cseq != h.cseq
    refused := if h.npkt ≤ got.length + 1 then rest else sadd rest h.cseq (h.pidx :: got) } s

/-- Whether a packet belongs to a sending that was turned away; the flow with that noted (R594). -/
def discardRest (f : FlowRx) (h : XHead) : Option FlowRx :=
  match slook f.refused h.cseq with
  | some seen =>
    if seen.contains h.pidx then none
    else some { f with refused := if h.npkt ≤ seen.length + 1 then serase h.cseq f.refused else sadd f.refused h.cseq (h.pidx :: seen) }
  | none => none

/-- Serve a GET chunk: its GET_DATA packets leave with the bytes the homes hold now (R390, R597); `ps` is the source. -/
def serveGet (die key : Nat) (req : List Byte) (slice : Nat) (ps : List Piece) (resends : Nat) (s : State) : State :=
  let h := headOf req
  let q := key % 64
  let node := key / 64
  let g : GetServe := { queue := q, node := node, cseq := h.cseq, resends := resends, pseq := nextPseq s q node, die := die, header := req }
  let old := s.xfer.serves.filter fun x => !(x.queue == q && x.node == node
    && (x.cseq == h.cseq || decide (16 ≤ (h.cseq + 0x10000 - x.cseq) % 0x10000)))
  let s1 : State := { s with xfer := { s.xfer with serves := old ++ [g] } }
  sendData die (some slice) q node 0x10 h.len ps (fun i bad =>
    xferHeader (h.value + 4048 * i) h.ep h.counter h.countEn h.msgEnd bad false h.cseq (packetsFor h.len) i
      (fabJob s1 (pCopyGrp die) slice) (paceBits s1) 0 h.len) s1

/-- What a translated data packet does (R594 step 4, R595, R597, R604). -/
def acceptPkt (die typ key : Nat) (p : Packet) (h : XHead) (slice pasid : Nat) (ps : List Piece) (s : State) : State :=
  let f := rxFlow s key
  let cur := f.entries.find? fun e => e.cseq == h.cseq
  let got := match cur with | some e => e.got | none => []
  if cur.isNone ∧ 4096 ≤ rxInUse s die then busyChunk die key h.cseq (turnAway key h s)
  else if got.contains h.pidx then s
  else
    let e0 : RxEntry := cur.getD {
      cseq := h.cseq, die := die, npkt := h.npkt, countEn := h.countEn, counter := h.counter, len := h.len, msgEnd := h.msgEnd
      slice := slice, pasid := pasid, ctrVa := fabCtrVa s (pCopyGrp die) slice, isGet := decide (typ = 3)
      signal := if typ = 2 then some (h.addr, h.value) else none }
    let s1 := setRxFlow key { f with
      entries := (f.entries.filter fun e => e.cseq != h.cseq) ++ [{ e0 with got := h.pidx :: got }]
      expected := if cur.isNone ∧ h.resync then some h.cseq else f.expected } s
    let s2 :=
      if typ = 1 then
        let t := writePieces slice ps ((p.payload.drop 32).take 4048) s1
        if h.poison then
          let e : ErrRec := { ctxValid := true, pasid := pasid, slice := slice, cls := 0x20, detail := 0x0A
                              srcDie := die, srcUnit := 49, srcLogical := 0x3F }
          captureErr (rxPage die key) { e with gen := (unitSt t (rxPage die key)).gen.toNat } (poisonPieces ps t)
        else t
      else if typ = 3 then serveGet die key p.payload slice ps 0 s1
      else s1
    countAll key s2

/-- A transfer engine takes a data packet of type PUT_DATA (1), SIGNAL (2) or GET_REQ (3) (R594). The translation's own
record is not made where the chunk is refused: R598 gives the record. -/
def takeData (typ die : Nat) (p : Packet) (h : XHead) (s : State) : State :=
  let key := rxKey p.src p.queue
  let u := pCopyGrp die
  match discardRest (rxFlow s key) h with
  | some f => setRxFlow key f s
  | none =>
    let s := setRxFlow key { rxFlow s key with refused := serase h.cseq (rxFlow s key).refused } s
    let f := rxFlow s key
    let fresh := !(f.entries.any fun e => e.cseq == h.cseq)
    if fresh ∧ !h.resync ∧ f.past h.cseq ∧ typ ≠ 3 then
      (if h.pidx = 0 then answerPkt die (key % 64) (key / 64) 0x11 h.cseq 0 s else s)
    else
      match endpointSlice s u h.ep with
      | none => refuseChunk die key h.cseq 1 0 0 false (turnAway key h s)
      | some sl =>
        let pasid := fabPasid s u sl
        if fabJob s u sl ≠ h.job then refuseChunk die key h.cseq 1 sl pasid true (turnAway key h s)
        else
          let n := if typ = 1 then (p.payload.drop 32).length else if typ = 2 then 8 else h.len
          match xlateRange { ctxValid := true, pasid := pasid, slice := sl } (rxPage die key) pasid h.addr n (if typ = 3 then .read else .write) s with
          | .fault _ _ _ _ => refuseChunk die key h.cseq 0 sl pasid true (turnAway key h s)
          | .migrating _ s1 => busyChunk die key h.cseq (turnAway key h s1)
          | .ok ps s1 =>
            if fresh ∧ !h.resync ∧ f.past h.cseq then serveGet die key p.payload sl ps 0 s1
            else acceptPkt die typ key p h sl pasid ps s1

/-- PUT_DATA, SIGNAL_PACKET, GET_REQ: with no packet of the type waiting, chunks whose counting waited are counted. -/
def execPutData (die : Nat) (s : State) : Res := .next (withPkt die 0x01 s (countDie die s) (takeData 1 die))
def execSignalPacket (die : Nat) (s : State) : Res := .next (withPkt die 0x02 s (countDie die s) (takeData 2 die))
def execGetReq (die : Nat) (s : State) : Res := .next (withPkt die 0x03 s (countDie die s) (takeData 3 die))

/-! ### CANCEL (R602) -/

/-- The CSEQs from `a` to `b`. -/
def cseqRange (a b : Nat) : List Nat := (List.range ((b + 0x10000 - a) % 0x10000 + 1)).map fun i => (a + i) % 0x10000

/-- CANCEL: the named chunks' entries are released and count as counted with 0 bytes; the CANCEL is a chunk itself. -/
def cancelPkt (die : Nat) (p : Packet) (h : XHead) (s : State) : State :=
  let key := rxKey p.src p.queue
  let f := rxFlow s key
  let gone := cseqRange (h.value % 0x10000) (h.value / 0x10000 % 0x10000)
  if !h.resync ∧ f.past h.cseq then answerPkt die (key % 64) (key / 64) 0x11 h.cseq 0 s
  else
    let e : RxEntry := { cseq := h.cseq, die := die, npkt := 1, got := [0], cancel := some (h.value % 0x10000, h.value / 0x10000 % 0x10000) }
    countAll key (setRxFlow key { f with
      entries := (f.entries.filter fun x => !gone.contains x.cseq && x.cseq != h.cseq) ++ [e]
      refused := f.refused.filter fun x => !gone.contains x.1
      expected := if h.resync then some h.cseq else f.expected
      released := f.released ++ gone.filter fun c => !f.past c } s)

def execCancel (die : Nat) (s : State) : Res := .next (withPkt die 0x04 s s (cancelPkt die))

/-! ### Chunks at the sender -/

/-- A sent chunk of a flow. -/
def findChunk (s : State) (q node cseq : Nat) : Option TxChunk := (txFlow s q node).chunks.find? fun c => c.cseq == cseq

/-- Change a sent chunk. -/
def updChunk (q node cseq : Nat) (g : TxChunk → TxChunk) (s : State) : State :=
  let f := txFlow s q node
  setTxFlow q node { f with chunks := f.chunks.map fun c => if c.cseq = cseq then g c else c } s

/-- Forget a sent chunk; `cancel` says that no ACK came, so that a CANCEL is to name it (R602). -/
def dropChunk (q node cseq : Nat) (cancel : Bool) (s : State) : State :=
  let f := txFlow s q node
  setTxFlow q node { f with
    chunks := f.chunks.filter fun c => c.cseq != cseq
    cancelled := if cancel then f.cancelled ++ [cseq] else f.cancelled } s

/-- The message of a sent chunk. -/
def chunkMsg (s : State) (c : TxChunk) : Option Msg :=
  match c.msg with
  | some i => findMsg s i
  | none => none

/-- Whether a chunk follows the failed chunk of its message, so that its answers are ignored (R600). -/
def beyondFail (m : Msg) (c : TxChunk) : Bool := match m.fail with | some f => decide (f.1 < c.idx) | none => false

/-- A transfer makes progress: the bound of R603 runs anew. -/
def progress (id : Nat) (s : State) : State := updMsg id (fun x => { x with heldAt := x.heldAt.map fun _ => s.now }) s

/-- The page of a sender's queue. -/
def qPage (q : Nat) : Nat := pCopyEngine (q % 8) (q / 8)

/-- A chunk has failed (R598); it is cancelled once its transfer has ended (R602). -/
def chunkFailed (q node : Nat) (c : TxChunk) (m : Msg) (cls dt : Nat) (s : State) : State :=
  settleMsg m.id 0 (updMsg m.id (fun x => { x with owed := x.owed ++ [c.cseq] }) (failChunk m c.idx cls dt (dropChunk q node c.cseq false s)))

/-- Send a whole chunk again with its CSEQ (R599, R601). -/
def resendChunk (q node : Nat) (c : TxChunk) (s : State) : State :=
  let p := qPage q
  let note (s : State) : State := addProg p 5 1 (satInc p 0x10C 1 s)
  let mark (s1 : State) : State := updChunk q node c.cseq (fun x => { x with busyAt := none, pseq := nextPseq s q node }) s1
  match c.isCancel, chunkMsg s c with
  | some r, _ => note (emitCancel q node c.cseq r c.resync (mark s))
  | none, some m =>
    match emitChunk m c.idx c.cseq c.resync s with
    | .migrating va s1 => holdMsg m p va s1
    | .fault cl dt _ s1 => chunkFailed q node c m cl dt s1
    | .ok bad s1 =>
      let s2 := note (mark (dropHeld p (msgStream m) s1))
      if bad then failChunk m c.idx 0x20 0x09 s2 else s2
  | none, none => s

/-! ### Answers (R596 to R603) -/

/-- TRANSFER_ACK: the chunk is counted at the receiver. -/
def ackPkt (p : Packet) (h : XHead) (s : State) : State :=
  match findChunk s p.queue p.src h.cseq with
  | none => s
  | some c =>
    if c.isGet then s
    else
      let s1 := dropChunk p.queue p.src h.cseq false s
      match c.msg with
      | some i => settleMsg i 0 (progress i s1)
      | none => s1

def execTransferAck (die : Nat) (s : State) : Res := .next (withPkt die 0x11 s s ackPkt)

/-- BUSY: the chunk is to be sent again after 16 × n µs, at most 1 ms (R601). -/
def busyPkt (p : Packet) (h : XHead) (s : State) : State :=
  let s0 := addProg (qPage p.queue) 6 1 s
  match findChunk s p.queue p.src h.cseq with
  | none => s0
  | some c =>
    if (match chunkMsg s c with | some m => beyondFail m c | none => false) then s0
    else updChunk p.queue p.src h.cseq (fun x => { x with
      busy := x.busy + 1, busyAt := some (s.now + min (16000 * (x.busy + 1)) 1000000) }) s0

def execBusy (die : Nat) (s : State) : Res := .next (withPkt die 0x12 s s busyPkt)

/-- BUSY_RETRY: the time of a busied chunk has come. -/
def busyRetry (q node cseq : Nat) (s : State) : State :=
  match findChunk s q node cseq with
  | none => s
  | some c =>
    match c.busyAt with
    | none => s
    | some t =>
      let st := engState s (q % 8) (q / 8)
      if s.inHold ∨ s.now < t ∨ ¬(st = .active ∨ st = .draining) then s else pump (resendChunk q node c s)

def execBusyRetry (queue node cseq : Nat) (s : State) : Res := .next (busyRetry queue node cseq s)

/-- REFUSE: FAULT_XLATE with REMOTE_XLATE, or PEER_DOWN with REMOTE_REFUSED (R598). -/
def refusePkt (p : Packet) (h : XHead) (s : State) : State :=
  match findChunk s p.queue p.src h.cseq with
  | none => s
  | some c =>
    match chunkMsg s c with
    | none => dropChunk p.queue p.src h.cseq true s
    | some m =>
      if beyondFail m c then s
      else chunkFailed p.queue p.src c m (if h.value % 4 = 0 then 0x10 else 0x40) (if h.value % 4 = 0 then 4 else 5) s

def execRefuse (die : Nat) (s : State) : Res := .next (withPkt die 0x13 s s refusePkt)

/-- HELD: the bound of R603 starts, and the engine's event rises (R624). -/
def heldPkt (p : Packet) (h : XHead) (s : State) : State :=
  match findChunk s p.queue p.src h.cseq with
  | none => s
  | some c =>
    let s1 := event (qPage p.queue) 2 s
    match c.msg with
    | some i => updMsg i (fun x => if x.heldAt.isSome then x else { x with heldAt := some s.now }) s1
    | none => s1

/-- A HELD notice names the flow by the node its packet was for: the notice's VALUE holds it (the layout is the
model's). -/
def execHeld (die : Nat) (s : State) : Res :=
  .next (withPkt die 0x14 s s fun p h t => heldPkt { p with src := h.value % 4096 } h t)

/-- HELD_NOTICE: the packet at the head of an input has waited 100 µs for a port whose peer is in HOLD (R603). -/
def heldNotice (key : Nat) (s : State) : State :=
  match inQueue s key, routeAt s key with
  | f :: _, some (.out k _ _) =>
    let note := (f.src * 4096 + f.dst, f.squeue, bytesAt f.payload 12 2)
    if s.inHold ∨ !portPeerHold s k ∨ !f.first ∨ ¬(f.typ ≤ 4 ∨ f.typ = 0x10) ∨ s.xfer.heldNotes.contains note then s
    else
      let s1 : State := { s with xfer := { s.xfer with heldNotes := note :: s.xfer.heldNotes } }
      pump (injectPkt (inputDie key) none 8 { src := nodeId s, dst := f.src, queue := f.squeue, typ := 0x14
                                              payload := noticeBytes s (bytesAt f.payload 12 2) f.dst } s1)
  | _, _ => s

def execHeldNotice (input : Nat) (s : State) : Res := .next (heldNotice input s)

/-- PEER_HOLD_TIMEOUT: a transfer that drew HELD made no progress for HOLD_WAIT_MS (R603). -/
def peerHoldTimeout (id : Nat) (s : State) : State :=
  match findMsg s id with
  | none => s
  | some m =>
    match m.heldAt with
    | none => s
    | some t =>
      if s.inHold ∨ m.holdMs = 0 ∨ s.now < t + m.holdMs * 1000000 then s else pump (endMsg m 0 (0x41, 0x08) s)

def execPeerHoldTimeout (msg : Nat) (s : State) : Res := .next (peerHoldTimeout msg s)

/-! ### UNREACH and GET_FAIL (R598, R599) -/

/-- Whether an UNREACH notice speaks of a packet of the last sending. -/
def ofSending (first pseq : Nat) : Bool := decide ((pseq + 0x10000 - first) % 0x10000 < 17)

/-- An UNREACH notice for a packet a sender sent. -/
def unreachTx (q node cseq pseq cause : Nat) (s : State) : State :=
  match findChunk s q node cseq with
  | none => s
  | some c =>
    if !ofSending c.pseq pseq then s
    else
      let again := decide (cause = unreachDown) && decide (c.resend < 3)
      match c.isCancel, chunkMsg s c with
      | some r, _ =>
        if again then resendChunk q node c (updChunk q node cseq (fun x => { x with resend := x.resend + 1 }) s)
        else
          let s1 := dropChunk q node cseq true s
          let f := txFlow s1 q node
          setTxFlow q node { f with cancelled := cseqRange r.1 r.2 ++ f.cancelled } s1
      | none, some m =>
        if beyondFail m c then s
        else if again then resendChunk q node c (updChunk q node cseq (fun x => { x with resend := x.resend + 1 }) s)
        else chunkFailed q node c m 0x40 (if cause = unreachDown then 7 else 6) s
      | none, none => s

/-- An UNREACH notice for GET_DATA of a responder: sent again at most 3 times, then GET_FAIL. -/
def unreachServe (q node cseq pseq cause : Nat) (s : State) : State :=
  match s.xfer.serves.find? fun x => x.queue == q && x.node == node && x.cseq == cseq with
  | none => s
  | some g =>
    if !ofSending g.pseq pseq then s
    else
      let h := headOf g.header
      let key := rxKey node q
      let giveUp (s : State) : State :=
        answerPkt g.die q node 0x16 cseq 0 { s with xfer := { s.xfer with serves := s.xfer.serves.filter fun x => decide (x ≠ g) } }
      if cause ≠ unreachDown ∨ 3 ≤ g.resends then giveUp s
      else
        match endpointSlice s (pCopyGrp g.die) h.ep with
        | none => giveUp s
        | some sl =>
          let pasid := fabPasid s (pCopyGrp g.die) sl
          match xlateRange { ctxValid := true, pasid := pasid, slice := sl } (rxPage g.die key) pasid h.addr h.len .read s with
          | .ok ps s1 => serveGet g.die key g.header sl ps (g.resends + 1) (addProg (qPage q) 5 1 (satInc (qPage q) 0x10C 1 s1))
          | .migrating _ s1 => busyChunk g.die key cseq s1
          | .fault _ _ _ _ => refuseChunk g.die key cseq 0 sl pasid true s

/-- UNREACH: the notice's VALUE names the packet that was dropped, its cause and its TYPE. -/
def unreachPkt (h : XHead) (s : State) : State :=
  let v := h.value
  let node := nfld v 11 0
  let q := nfld v 17 12
  let pseq := nfld v 33 18
  let cause := nfld v 36 34
  let typ := nfld v 44 37
  if typ = 0x10 then unreachServe q node h.cseq pseq cause s
  else if 1 ≤ typ ∧ typ ≤ 4 then unreachTx q node h.cseq pseq cause s
  else s

def execUnreach (die : Nat) (s : State) : Res := .next (withPkt die 0x15 s s fun _ h t => unreachPkt h t)

/-- GET_FAIL: PEER_DOWN with LINK_LOST. -/
def getFailPkt (p : Packet) (h : XHead) (s : State) : State :=
  match findChunk s p.queue p.src h.cseq with
  | none => s
  | some c =>
    match chunkMsg s c with
    | none => s
    | some m => if !c.isGet || beyondFail m c then s else chunkFailed p.queue p.src c m 0x40 7 s

def execGetFail (die : Nat) (s : State) : Res := .next (withPkt die 0x16 s s getFailPkt)

/-! ### GET_DATA (R596, R604) -/

/-- The chunks of one GET are counted at the requester in CSEQ order (R596): the first is complete. -/
def countGets (q node id : Nat) : Nat → State → State
  | 0, s => s
  | fuel + 1, s =>
    match findMsg s id, (txFlow s q node).chunks.find? fun c => c.msg == some id with
    | some m, some c =>
      if !c.full then s
      else
        let hp := qPage q
        let r : VRes Unit := if m.countEn
          then addCounter hp m.slice (fabPasid s hp m.slice) (fabCtrVa s hp m.slice) m.counter c.len c.last s else .ok () s
        match r with
        | .migrating _ _ => s
        | .fault cl dt _ s1 => chunkFailed q node c m cl dt s1
        | .ok _ s1 =>
          let s2 := dropChunk q node c.cseq false s1
          countGets q node id fuel (if c.poison then failChunk m c.idx 0x20 0x09 s2 else s2)
    | _, _ => s

/-- GET_DATA: a packet is accepted at this device's homes; on MIGRATING it stays with the engine. -/
def getDataPkt (die : Nat) (before : State) (p : Packet) (h : XHead) (s : State) : State :=
  let q := p.queue
  match findChunk s q p.src h.cseq with
  | none => s
  | some c =>
    match chunkMsg s c with
    | none => s
    | some m =>
      if !c.isGet ∨ c.got.contains h.pidx then s
      else
        let data := p.payload.drop 32
        let hp := pCopyEngine die (q / 8)
        match xlateRange (msgCtx s m) hp m.pasid h.addr data.length .write s with
        | .migrating va _ => holdMsg m hp va before
        | .fault cl dt _ s1 => chunkFailed q p.src c m cl dt s1
        | .ok ps s1 =>
          let s2 := writeFor m.ring m.no m.slice ps data s1
          let s3 := if h.poison then
              captureErr hp { msgCtx s2 m with cls := 0x20, detail := 0x0A, gen := (unitSt s2 hp).gen.toNat, srcDie := die, srcUnit := 49 }
                (poisonPieces ps s2)
            else s2
          let s4 := updChunk q p.src h.cseq (fun x => { x with
            got := h.pidx :: x.got, full := decide (h.npkt ≤ x.got.length + 1), poison := x.poison || h.poison }) s3
          settleMsg m.id 0 (countGets q p.src m.id 17 (progress m.id (dropHeld hp (msgStream m) s4)))

/-- With no GET_DATA waiting, complete chunks whose counting waited are counted. -/
def recountGets (die : Nat) (s : State) : State :=
  if s.inHold then s
  else pump ((s.xfer.msgs.filter fun m => m.kind == .get && m.die == die).foldl
    (fun t m => settleMsg m.id 0 (countGets m.queue m.node m.id 17 t)) s)

def execGetData (die : Nat) (s : State) : Res := .next (withPkt die 0x10 s (recountGets die s) (getDataPkt die s))

/-! ### PACE_PING and XE_FLOW_RESET -/

/-- PACE_PING: carries the pace word only (R620); every packet's pace bits are kept as it is taken. -/
def execPacePing (die : Nat) (s : State) : Res := .next (withPkt die 0x17 s s fun _ _ t => t)

/-- PACE_MATCH.ACTIVE (R628). -/
def matchActive (s : State) : Bool := bitOf (rd s pPace 0x108) 9

/-- The peers of the plans a collective engine runs. -/
def planPeers (s : State) (d : Nat) : List Nat :=
  dedupNat ((s.xfer.plans.filter fun e => e.1 / 16 == d).flatMap fun e =>
    e.2.peers.zipIdx.filterMap fun x => if x.2 = e.2.rank then none else some x.1)

/-- PACE_PING_TIMER: while a plan waits or matching is active, every 20 µs (R620). -/
def pacePingTimer (d : Nat) (s : State) : State :=
  let waits := s.xfer.plans.any fun e => e.1 / 16 == d && e.2.waitFrom.isSome
  if 8 ≤ d ∨ s.inHold ∨ !(waits || matchActive s) then s
  else pump ((planPeers s d).foldl (fun t n => answerPkt d d n 0x17 0 0 t) s)

def execPacePingTimer (die : Nat) (s : State) : Res := .next (pacePingTimer die s)

/-- XE_FLOW_RESET (R625): the receiving state of one flow, or of every flow, becomes empty. -/
def xeFlowReset (data : Word) (s : State) : State :=
  if bitOf data 18 then { s with xfer := { s.xfer with rx := [] } }
  else { s with xfer := { s.xfer with rx := serase (rxKey (fld data 11 0) (fld data 17 12)) s.xfer.rx } }

def execXeFlowReset (data : Word) (s : State) : Res := .next (xeFlowReset data s)

end Sys2Proof.Machine
end

