-- ==== Sys2Proof/Machine/Collect.lean ====
section
/-! DEFINITION. Collective plans and lag (13_collectives.md R610 to R618; rows COLLECTIVE_SEND to COLLECTIVE_SIGNAL,
LAG_WINDOW). Rows name the plan by its die and slot. -/

namespace Sys2Proof.Machine

/-! ### Plans -/

/-- Change a plan. -/
def updPlan (key : Nat) (f : Plan → Plan) (s : State) : State :=
  match slook s.xfer.plans key with
  | some p => { s with xfer := { s.xfer with plans := sadd s.xfer.plans key (f p) } }
  | none => s

/-- The context of a plan for an error record. -/
def planCtx (s : State) (p : Plan) : ErrRec :=
  match findCmd s p.ring p.no with
  | some c => c.ctx
  | none => { ctxValid := true, pasid := p.pasid, slice := p.slice, ring := p.ring, seq := p.seq, srcLogical := 0x3F }

/-- Whether a collective engine works: its unit active or draining, not in HOLD. -/
def planRuns (s : State) (d : Nat) : Bool :=
  let st := pageState s (pCollective d)
  decide (d < 8) && !s.inHold && (decide (st = .active) || decide (st = .draining))

/-- Whether a plan is held on MIGRATING (R462, R616). -/
def planHeld (s : State) (key : Nat) : Bool := streamHeld s (pCollective (key / 16)) key

/-- The step a plan can issue next (R613): none after a failure, and with FENCE only when every earlier step has
completed. -/
def nextStep (s : State) (key op : Nat) : Option (Plan × PlanStep) :=
  match slook s.xfer.plans key with
  | none => none
  | some p =>
    match p.steps[p.next]? with
    | none => none
    | some x =>
      if planRuns s (key / 16) && !planHeld s key && p.fail.isNone && x.op == op
          && (!x.fence || (List.range p.next).all fun i => p.done.contains i) then some (p, x) else none

/-- The next step of a plan is issued. -/
def issueStep (key : Nat) (s : State) : State :=
  addProg (pCollective (key / 16)) 2 1 (updPlan key (fun p => { p with next := p.next + 1 }) s)

/-- A failure of a plan's step, which the engine records. -/
def stepFails (key i cls dt : Nat) (p : Plan) (s : State) : State :=
  let pg := pCollective (key / 16)
  planStepDone key i (some (cls, dt)) (event pg 0 (captureErr pg { planCtx s p with
    cls := cls, detail := dt, gen := (unitSt s pg).gen.toNat, srcDie := key / 16, srcUnit := 48 } s))

/-- A plan meets MIGRATING. -/
def holdPlan (key va : Nat) (p : Plan) (s : State) : State := holdStream (pCollective (key / 16)) key p.pasid va s

/-- Do a row for a plan's next step of one operation. -/
def withStep (die slot op : Nat) (s : State) (f : Nat → Plan → PlanStep → State) : Res :=
  match nextStep s (die * 16 + slot) op with
  | some (p, x) => if slot < 16 then .next (f (die * 16 + slot) p x) else .next s
  | none => .next s

/-! ### SEND and SIGNAL -/

/-- Hand a transfer to its queue's copy engine, or wait for a slot there (R606, R613). -/
def handOver (key : Nat) (p : Plan) (x : PlanStep) (m : Msg) (s : State) : State :=
  match queueAvail s x.queue with
  | .wait => s
  | .off => stepFails key p.next 0x30 0x06 p (issueStep key s)
  | .go =>
    let id := s.xfer.nextId
    let s1 := addProg (pCollective (key / 16)) 7 1 (issueStep key (addMsgs [{ m with
      die := x.queue % 8, engine := some (x.queue / 8), ring := p.ring, no := p.no, slice := p.slice, pasid := p.pasid
      node := p.peers.getD x.peer 0, queue := x.queue, counter := x.counter, countEn := x.countEn, holdMs := p.holdMs
      plan := some (key / 16, key % 16, p.next) }] s))
    settleMsg id 0 s1

def execCollectiveSend (die slot : Nat) (s : State) : Res :=
  withStep die slot 0 s fun key p x =>
    handOver key p x { id := 0, die := 0, ring := 0, no := 0, slice := 0, pasid := 0, kind := .put, src := x.a, dst := x.b, len := x.len } s

def execCollectiveSignal (die slot : Nat) (s : State) : Res :=
  withStep die slot 4 s fun key p x =>
    handOver key p x { id := 0, die := 0, ring := 0, no := 0, slice := 0, pasid := 0, kind := .signal, dst := x.b, pattern := x.a } s

/-! ### WAIT and lag (R618) -/

/-- Charge waiting time to a peer. -/
def chargeLag (d node ns : Nat) (s : State) : State :=
  let l := (sget (fun _ => []) s.xfer.lag d).map fun (e : LagEntry) =>
    if e.node = node then { e with charged := e.charged + ns, total := (e.total + ns) % 2 ^ 64 } else e
  addProg (pCollective d) 5 (ns / 1000) { s with xfer := { s.xfer with lag := sput (fun _ => []) s.xfer.lag d l } }

/-- WAIT: the step is issued when its turn comes; it completes when BYTES of the own counter has reached the threshold,
and until then holds back every later step. -/
def collectiveWait (key : Nat) (p : Plan) (x : PlanStep) (s : State) : State :=
  let hp := pCollective (key / 16)
  let sl := p.slice
  match xlateRange (planCtx s p) hp (fabPasid s hp sl) (fabCtrVa s hp sl + 16 * x.counter) 8 .read s with
  | .migrating va s1 => holdPlan key va p s1
  | .fault cl dt _ s1 => stepFails key p.next cl dt p (updPlan key (fun q => { q with waitFrom := none }) (issueStep key s1))
  | .ok ps s0 =>
    let s1 := readTouch (some p.slice) ps s0
    if piecesPoison s0 ps then stepFails key p.next 0x20 0x09 p (updPlan key (fun q => { q with waitFrom := none }) (issueStep key s1))
    else if x.b ≤ leNat (readPieces s0 ps) then
      let s2 := match p.waitFrom with
        | some t => chargeLag (key / 16) (p.peers.getD x.peer 0) (s.now - t) s1
        | none => s1
      planStepDone key p.next none (updPlan key (fun q => { q with waitFrom := none }) (issueStep key s2))
    else if p.waitFrom.isSome then s1
    else updPlan key (fun q => { q with waitFrom := some s.now }) s1

def execCollectiveWait (die slot : Nat) (s : State) : Res := withStep die slot 1 s fun key p x => collectiveWait key p x s

/-! ### REDUCE -/

/-- The Felt code of a plan's reductions (R613). -/
def planRedCode (p : Plan) : Nat := 0x10 + b2n p.bf16 + 2 * b2n p.isMax

/-- How one RED of a REDUCE ends: accepted, to be sent again, held on MIGRATING, or failed. -/
inductive RedRes where
  | done (s : State) | again (s : State) | held (s : State) | failed (cls dt : Nat) (s : State)

/-- Whether an issued step, which no FENCE keeps apart from step `j`, writes what the REDUCE reads (R614): a step may
complete at any time until a FENCE waits for it. -/
def Plan.races (p : Plan) (j : Nat) (x : PlanStep) : Bool :=
  (p.steps.take p.next).zipIdx.any fun e =>
    e.2 != j && (e.1.op == 2 || e.1.op == 3) && decide (e.1.b < x.a + x.len) && decide (x.a < e.1.b + e.1.len)
      && !(((p.steps.take (max j e.2 + 1)).drop (min j e.2 + 1)).any fun y => y.fence)

/-- One RED of 256 B (R613, R615). Of step `j`; what a REDUCE reads while a step still writes there is free (R614). -/
def redSector (key j : Nat) (p : Plan) (x : PlanStep) (i : Nat) (s : State) : RedRes :=
  let hp := pCollective (key / 16)
  let cx := planCtx s p
  match (xlateRange cx hp p.pasid (x.a + 256 * i) 256 .read s).bind fun a t =>
      (xlateRange cx hp p.pasid (x.b + 256 * i) 256 .write t).bind fun b t1 => .ok (a, b) t1 with
  | .migrating va s1 => .held (holdPlan key va p s1)
  | .fault cl dt _ s1 => .failed cl dt s1
  | .ok (a, b) s1 =>
    if piecesPoison s1 a then .failed 0x20 0x09 s1
    else
      match b with
      | [] => .done s1
      | t :: _ =>
        let race := p.races j x
        let free := (List.range 256).map fun k => BitVec.ofNat 8 (Config.freeValue (s1.freeCtr + k)).toNat
        let r : FReq := { kind := .red, agent := key / 16, stream := key, slice := some p.slice, code := planRedCode p
                          off := t.pa % 1024, sectors := [t.pa % 1024 / 256], operand := if race then free else readPieces s1 a
                          ordered := p.ordered, cidx := x.cidx, ccount := p.peers.length
                          cmd := some (p.ring, p.no) }
        let s2 := addProg hp 4 1 (readTouch (some p.slice) a (if race then tickFree 256 s1 else s1))
        let res := cohOp t.il t.pa r (logDirty p.slice t.pa s2)
        if res.2.2.2 = 0x100 then .again (addProg hp 6 1 res.1)
        else
          let s3 := noteHomes p.ring p.no [homeBit t.il t.pa] (addProg hp 1 256 res.1)
          if res.2.2.2 = 0 then .done s3 else .failed (if res.2.2.2 = 0x05 then 0x20 else 0x13) res.2.2.2 s3

/-- The REDs of a step still to send, in order: those NACKed stay to be sent again; the first failure is noted; a plan
held on MIGRATING keeps the rest. -/
def redSectors (key i : Nat) (p : Plan) (x : PlanStep) : List Nat → State → List Nat × State
  | [], s => ([], s)
  | k :: t, s =>
    match redSector key i p x k s with
    | .held s1 => (k :: t, s1)
    | .done s1 => redSectors key i p x t s1
    | .again s1 =>
      let r := redSectors key i p x t s1
      (k :: r.1, r.2)
    | .failed cl dt s1 =>
      let s2 := updPlan key (fun q => match q.fail with
        | some f => if i < f.1 then { q with fail := some (i, cl, dt) } else q
        | none => { q with fail := some (i, cl, dt) }) s1
      redSectors key i p x t s2

/-- Go on with one issued REDUCE step. -/
def runReduce (key : Nat) (s : State) (e : Nat × List Nat) : State :=
  match slook s.xfer.plans key with
  | none => s
  | some p =>
    match p.steps[e.1]? with
    | none => s
    | some x =>
      if planHeld s key then s
      else
        let r := redSectors key e.1 p x e.2 s
        let s1 := updPlan key (fun q => { q with
          pend := if r.1 = [] then serase e.1 q.pend else sadd q.pend e.1 r.1 }) r.2
        if r.1 = [] then
          match slook s1.xfer.plans key with
          | some q =>
            (match q.fail with
             | some f => if f.1 = e.1 then stepFails key e.1 f.2.1 f.2.2 q s1 else planStepDone key e.1 none s1
             | none => planStepDone key e.1 none s1)
          | none => s1
        else s1

/-- COLLECTIVE_REDUCE: REDs to be sent again are sent; then the next step is issued, if it is a REDUCE. -/
def collectiveReduce (die slot : Nat) (s : State) : State :=
  let key := die * 16 + slot
  if !planRuns s die ∨ 16 ≤ slot then s
  else
    let s1 := match slook s.xfer.plans key with
      | some p => p.pend.foldl (runReduce key) s
      | none => s
    match nextStep s1 key 2 with
    | some (p, x) => runReduce key (issueStep key s1) (p.next, List.range (x.len / 256))
    | none => s1

def execCollectiveReduce (die slot : Nat) (s : State) : Res := .next (collectiveReduce die slot s)

/-! ### COPY -/

/-- A local copy; poison goes along and fails the step (R423). -/
def collectiveCopy (key : Nat) (p : Plan) (x : PlanStep) (s : State) : State :=
  let hp := pCollective (key / 16)
  let cx := planCtx s p
  match (xlateRange cx hp p.pasid x.a x.len .read s).bind fun a t =>
      (xlateRange cx hp p.pasid x.b x.len .write t).bind fun b t1 => .ok (a, b) t1 with
  | .migrating va s1 => holdPlan key va p s1
  | .fault cl dt _ s1 => stepFails key p.next cl dt p (issueStep key s1)
  | .ok (a, b) s1 =>
    let bad := piecesPoison s1 a
    let s2 := writeFor p.ring p.no p.slice b (readPieces s1 a) s1
    let s3 := readTouch (some p.slice) a (if bad then carryPoison a b x.len s2 else s2)
    if bad then stepFails key p.next 0x20 0x09 p (issueStep key s3) else planStepDone key p.next none (issueStep key s3)

def execCollectiveCopy (die slot : Nat) (s : State) : Res := withStep die slot 3 s fun key p x => collectiveCopy key p x s

/-! ### Lag windows (R618, R621) -/

/-- LAG_MIN_PCT (R627): 0 acts as 25. -/
def lagPct (s : State) (d : Nat) : Nat := let v := fld (rd s (pCollective d + 1) 0x120) 6 0; if v = 0 then 25 else v

/-- An entry at the end of a window. -/
def closeWindow (pct : Nat) (e : LagEntry) : LagEntry :=
  let met := decide (pct * 100000 ≤ e.charged * 100)
  let win := (e.win * 2 + b2n met) % 1024
  { e with charged := 0, win := win, windows := e.windows + 1, lagging := decide (win = 1023) }

/-- LAG_WINDOW: the time of the WAITs in progress is charged, and every entry's window closes. -/
def lagWindow (d : Nat) (s : State) : State :=
  if 8 ≤ d ∨ s.inHold then s
  else
    let waits := s.xfer.plans.filter fun e => decide (e.1 / 16 = d) && e.2.waitFrom.isSome
    let s1 := waits.foldl (fun t e =>
      match e.2.waitFrom, e.2.steps[e.2.next]? with
      | some from', some x =>
        updPlan e.1 (fun q => { q with waitFrom := some s.now }) (chargeLag d (e.2.peers.getD x.peer 0) (s.now - from') t)
      | _, _ => t) s
    let old := sget (fun _ => []) s1.xfer.lag d
    let new := old.map (closeWindow (lagPct s1 d))
    let rose := (old.zip new).any fun p => !p.1.lagging && p.2.lagging
    let s2 : State := { s1 with xfer := { s1.xfer with lag := sput (fun _ => []) s1.xfer.lag d new } }
    if rose then event pPace 1 (event (pCollective d) 1 s2) else s2

def execLagWindow (die : Nat) (s : State) : Res := .next (lagWindow die s)

end Sys2Proof.Machine
end

