-- ==== Sys2Proof/Machine/XlateCmds.lean ====
section
/-! DEFINITION. The translation commands that act on tiles: rows WALK_READ, INV_ACK and INV_COMPLETE (10_translation.md).
-/

namespace Sys2Proof.Machine

/-- The walk in flight of a holder's stream. -/
def findWalk (s : State) (hp stream : Nat) : Option Walk := s.xlate.walks.find? fun w => w.holder == hp && w.stream == stream

/-- Replace, or end, the walk of a holder's stream. -/
def putWalk (hp stream : Nat) (w : Option Walk) (s : State) : State :=
  let rest := s.xlate.walks.filter fun x => !(x.holder == hp && x.stream == stream)
  { s with xlate := { s.xlate with walks := match w with | some v => rest ++ [v] | none => rest } }

/-- The tile and slot of a walk made for a thread group. -/
def walkGroup (w : Walk) : Option (Nat × Nat × Nat) :=
  if pageKind w.holder = some .tlb ∧ w.stream < 64 then some (pageDie w.holder, pageUnit w.holder, w.stream) else none

/-- A group whose walk has ended goes on. -/
def wakeGroup (d u slot : Nat) (s : State) : State :=
  match groupOf (tileSt s d u) slot with
  | some g => if g.wait = .memory then setGroup d u slot { g with wait := .ready } s else s
  | none => s

/-- The PC of a group. -/
def groupPc (s : State) (d u slot : Nat) : Nat :=
  match groupOf (tileSt s d u) slot with
  | some g => g.pc
  | none => 0

/-- A walk ends at MIGRATING (R462). -/
def walkMigrating (w : Walk) (s : State) : State :=
  match walkGroup w with
  | some (d, u, slot) =>
    park d u slot { cause := 0x0F, addr := w.va, addrValid := true, pc := groupPc s d u slot } s
  | none => holdStream w.holder w.stream w.pasid w.va s

/-- A walk ends in a fault (R445, R478). -/
def walkFault (w : Walk) (cls dt : Nat) (s : State) : State :=
  let s1 := recordXFault w.holder w.die cls dt w.pasid w.va s
  match walkGroup w with
  | some (d, u, slot) => parkXlate d u slot (groupPc s1 d u slot) w.va cls dt s1
  | none => s1

/-- Walk a stream's miss again from its start (R452, R457); a PASID that has lost its root, or whose root is no permitted
table target, faults. -/
def rewalk (w : Walk) (s : State) : State :=
  match walkDie s (holderDie w.holder), rootOf s (holderUnit w.holder) w.pasid with
  | some d, some root =>
    if !tableTarget s w.pasid root then walkFault { w with die := d } (xfault 13 4).1 (xfault 13 4).2 (putWalk w.holder w.stream none s)
    else
    let st := walkStart s d w.pasid w.va root
    putWalk w.holder w.stream (some { w with die := d, level := st.1, table := st.2, stale := false }) s
  | some _, none => walkFault w (xfault 5 4).1 (xfault 5 4).2 (putWalk w.holder w.stream none s)
  | none, _ => s

/-- WALK_READ (R445, R451 to R453, R457): the walker of a stream's walk takes its next entry; `ue` for a read that
returned no usable data. -/
def execWalkRead (holder stream : Nat) (ue : Bool) (s : State) : Res :=
  match findWalk s holder stream with
  | none => .next s
  | some w =>
    if s.inHold then .next s
    else if w.stale then .next (rewalk w (if pageKind holder = some .tlb then addProg holder 7 1 s else s))
    else if (unitSt s (pWalkers w.die)).state ≠ .active then .next (rewalk w s)
    else
      let s1 := countEntryRead w.die s
      let fin (s : State) : State := countWalk holder w.die (putWalk holder stream none s)
      match walkEntry s w.pasid w.va w.level w.table ue with
      | .next t =>
        .next (putWalk holder stream (some { w with level := w.level + 1, table := t })
          (wcacheAdd w.die w.pasid w.level w.va t s1))
      | .leaf size base leaf =>
        let s2 := tlbInstall holder w.pasid size base leaf (fin s1)
        .next (match walkGroup w with | some (d, u, slot) => wakeGroup d u slot s2 | none => s2)
      | .migrating => .next (walkMigrating w (fin s1))
      | .fault c dt => .next (walkFault w c dt (fin s1))

/-! ### Invalidations -/

/-- Whether a holder still has accesses made through a PASID of an invalidation that are not accepted (R455). -/
def holderBusy (s : State) (hp : Nat) (v : Inval) : Bool :=
  if pageKind hp = some .tlb then
    let t := tileSt s (pageDie hp) (pageUnit hp)
    let mine (p : Nat) : Bool := v.pasid == none || v.pasid == some p
    (t.sb.any fun e => e.2.any fun x => !x.scratch && mine x.pasid)
      || (match t.task with
          | some k => mine k.pasid && t.resident.any fun g => decide (g.2.unaccepted ≠ 0) || g.2.load.isSome
          | none => false)
  else false

/-- Drop what an invalidation covers at one holder: its entries, the walk cache's non-leaf entries, and the results of
walks in flight, those made for it or by the walkers of its walk cache (R454, R457). -/
def invDropAt (hp : Nat) (v : Inval) (s : State) : State :=
  let old := tlbOf s hp
  let kept := old.filter fun e => !invDrops v e
  let s1 := setTlb hp kept s
  let ws := s1.xlate.walks.map fun w =>
    if (w.holder = hp ∨ pWalkers w.die = hp) ∧ invOverlaps v w.pasid w.va 1 then { w with stale := true } else w
  let s2 : State := { s1 with xlate := { s1.xlate with walks := ws } }
  match pageKind hp with
  | some .tlb => inc32 hp 0x104 1 (addProg hp 6 (old.length - kept.length) s2)
  | some .walkers =>
    let d := pageDie hp
    let l := (wcacheOf s2 d).filter fun e => !invOverlaps v e.pasid e.va (levelSize e.level)
    { s2 with xlate := { s2.xlate with wcache := sput (fun _ => []) s2.xlate.wcache d l } }
  | _ => s2

/-- INV_ACK (R455, R456): a holder acknowledges the first invalidation of a die that still waits for it. -/
def execInvAck (die holder : Nat) (s : State) : Res :=
  match (invalsOf s die).find? fun v => v.waiting.contains holder with
  | none => .next s
  | some v =>
    if s.inHold ∨ holderBusy s holder v then .next s
    else
      let rec upd : List Inval → List Inval
        | [] => []
        | x :: t => if x.waiting.contains holder then { x with waiting := setDel holder x.waiting } :: t else x :: upd t
      .next (invDropAt holder v (setInvals die (upd (invalsOf s die)) s))

/-- Held streams an invalidation covers translate again and resume where MIGRATING is clear (R463). -/
def resumeHeld (v : Inval) (s : State) : State :=
  { s with xlate := { s.xlate with heldStreams := s.xlate.heldStreams.filter fun h =>
      !(invOverlaps v h.pasid h.va 1 && decide ((translateNow h.holder h.pasid h.va .read s).1 ≠ .migrating)) } }

/-- The slots of a tile parked on MIGRATING that an invalidation covers, with their tags (R463). -/
def parkedOn (s : State) (v : Inval) (d u : Nat) : List (Nat × Nat) :=
  let t := tileSt s d u
  match t.task with
  | none => []
  | some k =>
    (t.resident.filter fun e => match e.2.parked with
      | some i => i.cause == 0x0F && invOverlaps v k.pasid i.addr 1
      | none => false).map fun e => (e.1, (sget (fun _ => (0 : BitVec 8)) t.tags e.1).toNat)

/-- Groups parked on MIGRATING that an invalidation covers are replayed (R463). -/
def replayParked (v : Inval) (s : State) : State :=
  (List.range 8).foldl (fun s d => (List.range 15).foldl (fun s u =>
    (parkedOn s v d u).foldl (fun s p => parkReplay d u p.1 p.2 s) s) s) s

/-- INV_COMPLETE (R459, R463): the invalidation at the front of a die's queue completes. -/
def execInvComplete (die : Nat) (s : State) : Res :=
  match invalsOf s die with
  | v :: rest =>
    if s.inHold ∨ v.waiting ≠ [] then .next s
    else
      let p := pWalkers die
      let s1 := inc32 p 0x130 1 (wr p 0x12C (setFld (rd s p 0x12C) 31 16 v.tag) (setInvals die rest s))
      .next (replayParked v (resumeHeld v (addProg p 5 1 (event p 1 s1))))
  | [] => .next s

end Sys2Proof.Machine
end

