-- ==== Sys2Proof/Machine/Prot.lean ====
section
/-! DEFINITION. Protection commits and slices (14_slices.md; rows COMMIT to MIG_LOAD). -/

namespace Sys2Proof.Machine

/-! ### Staged fields (R644) -/

/-- Whether a register key is a staged field's. -/
def isStg (key : Nat) : Bool :=
  match specAt (key % 0x4000000 / 0x1000) (key % 0x1000) with
  | some r => decide (r.acc = .stg) && decide (0x100 ≤ key % 0x1000)
  | none => false

/-- The staging copy of every staged field that differs from its reset value. -/
def stagedNow (s : State) : List (Nat × Word) := s.regs.filter fun e => isStg e.1

/-- DISCARD: the committed copy over the staging copy. -/
def discard (s : State) : State :=
  { s with regs := s.committed.foldl (fun m e => sput regReset m e.1 e.2) (s.regs.filter fun e => !isStg e.1) }

def execDiscard (s : State) : Res := .next (discard s)

/-! ### The checks of R646 -/

/-- A field of a setup. -/
def setupWord (m : List (Nat × Word)) (bank p off : Nat) : Word := sget regReset m (regKey bank p off)

/-- A slice's field of a setup. -/
def setupSl (m : List (Nat × Word)) (slice off : Nat) : Word := setupWord m 0 (sliceReg slice off).1 (sliceReg slice off).2

/-- The byte of a ring group in a setup (R665). -/
def setupGroup (m : List (Nat × Word)) (g : Nat) : Nat := fld (setupWord m 0 pSlice (0x100 + 4 * (g / 4))) (8 * (g % 4) + 7) (8 * (g % 4))

/-- The enabled slice a ring group is assigned to in a setup. -/
def setupGroupSlice (m : List (Nat × Word)) (g : Nat) : Option Nat :=
  let b := setupGroup m g
  if nbit b 7 ∧ bitOf (setupSl m (b % 64) 0) 0 then some (b % 64) else none

/-- The entries of a PASID binding table: index and bytes of those with VALID = 1 (R634). -/
def validEntries (s : State) (base : Nat) : List (Nat × List Byte) :=
  ((List.range 1024).map fun i => (i, cohBytes s true (base + 32 * i) 32)).filter fun e => nbit (bytesAt e.2 0 4) 20

/-- Whether a VALID entry breaks R634. -/
def entryBad (b : List Byte) : Bool :=
  nfld (bytesAt b 0 4) 31 21 != 0 || nfld (bytesAt b 4 4) 31 8 != 0 || decide (128 < bytesAt b 4 4 % 256)
  || nfld (bytesAt b 8 8) 12 1 != 0 || nfld (bytesAt b 8 8) 63 48 != 0 || nfld (bytesAt b 16 8) 15 0 != 0
  || nfld (bytesAt b 16 8) 63 48 != 0 || bytesAt b 24 8 != 0

/-- The binding an entry makes. -/
def bindingOf (e : Nat × List Byte) : Binding :=
  let r := bytesAt e.2 8 8
  { slice := e.1 / 16, pasid := bytesAt e.2 0 4 % 0x100000, slot64k := bytesAt e.2 4 4 % 256
    root := if nbit r 0 then some (nfld r 47 13 * 0x2000) else none, saveBase := nfld (bytesAt e.2 16 8) 47 16 * 0x10000 }

/-- Whether a list of numbers repeats one. -/
def repeats : List Nat → Bool
  | [] => false
  | x :: t => t.contains x || repeats t

/-- Reserved tiles of an enabled slice in a setup; bits of logical tiles that do not exist are ignored (R635). -/
def setupTiles (s : State) (m : List (Nat × Word)) (slice : Nat) : List Nat :=
  if bitOf (setupSl m slice 0) 0 then
    (List.range 96).filter fun lt => (tileUnit s lt).isSome && bitOf (setupSl m slice (0x10 + 4 * (lt / 32))) (lt % 32)
  else []

/-- Whether a ring of a group is not OFF. -/
def groupBusy (s : State) (g : Nat) : Bool := s.disp.rings.any fun e => decide (e.1 / 64 = g) && decide (e.2.state ≠ .off)

/-- Whether a window breaks R642. -/
def windowBad (m : List (Nat × Word)) (slice : Nat) : Bool :=
  let w := setupWord m 0 pWindows (0x100 + 4 * slice)
  let fn := fld (setupSl m slice 0) 6 1
  bitOf w 11 && (if fn = 0 then decide (1984 < fld w 10 0) else fld w 10 0 != 0)

/-- Whether a fabric endpoint is badly set. -/
def fabBad (m : List (Nat × Word)) (l : List Binding) (slice : Nat) : Bool :=
  bitOf (setupSl m slice 0x20) 0
    && (!(l.any fun b => b.slice == slice && b.pasid == fld (setupSl m slice 0x24) 19 0) || fld (setupSl m slice 0x28) 13 0 != 0)

/-- The first rule of R646 that a snapshot breaks, with the bindings it makes. -/
def commitCheck (s : State) (m : List (Nat × Word)) : Option Nat × List Binding :=
  let base := (setupWord m 0 pProt 0x110).toNat + (setupWord m 0 pProt 0x114).toNat * 0x100000000
  if base % 4096 ≠ 0 ∨ !(inTier base && backed s base && inTier (base + 32767) && backed s (base + 32767)) ∨ cohPoisonN s true base 32768 then
    (some 0x01, [])
  else
    let v := validEntries s base
    let l := v.map bindingOf
    if v.any fun e => entryBad e.2 then (some 0x01, l)
    else if repeats (l.map fun b => b.pasid) then (some 0x02, l)
    else if repeats ((List.range 64).flatMap (setupTiles s m)) then (some 0x03, l)
    else if (List.range 128).any fun g => groupBusy s g
        && (setupGroupSlice s.committed g != setupGroupSlice m g || setupGroup s.committed g != setupGroup m g) then (some 0x04, l)
    else if (List.range 64).any (windowBad m) then (some 0x05, l)
    else if (List.range 64).any (fabBad m l) then (some 0x06, l)
    else (none, l)

/-! ### Units that acknowledge (R648, R861) -/

/-- The pages of the units that acknowledge a commit. -/
def ackPages : List Nat :=
  (List.range 8).flatMap (fun d =>
    (List.range 15).map (fun u => pTile d u) ++ (List.range 13).map (fun n => pSegment d n)
      ++ [pWalkers d, pCollective d, pageOf d 49 0] ++ (List.range 8).map (fun n => pCopyEngine d n) ++ [pDie d])
  ++ [pDispatch, pHostif, pPageAlloc, pIntr]

/-- The state of an acknowledging unit: the dispatcher is the one in service. -/
def ackState (s : State) (p : Nat) : UState := if p = pDispatch then pageState s (pDsp s) else pageState s p

/-- Units that acknowledge at once. -/
def acksAtOnce (s : State) (p : Nat) : Bool :=
  let x := ackState s p
  decide (x = .off) || decide (x = .spare) || decide (x = .retired)

/-- PASIDs whose binding a commit removes or whose root it changes (R434, R651). -/
def changedPasids (s : State) : List Nat :=
  (s.prot.pbt.filter fun b => !(s.prot.pbtNew.any fun x => x.pasid == b.pasid && x.slice == b.slice && x.root == b.root)).map fun b => b.pasid

/-- Whether the commit in progress changes a staged word. -/
def commitChanges (s : State) (bank p off : Nat) : Bool := setupWord s.committed bank p off != setupWord s.prot.snapshot bank p off

/-- Whether it changes a slice-set mask. -/
def masksChange (s : State) : Bool := (List.range 15).any fun i => commitChanges s 0 pProt (0x124 + 4 * i)

/-- Whether it changes the storage of a slice's pool (R295). -/
def poolMoves (s : State) (slice : Nat) : Bool :=
  [0x108, 0x10C, 0x110, 0x114].any fun o => commitChanges s slice pPools o

/-- Conditions of R455 for what a holder drops, and of R295 for the page allocator. -/
def mayAck (s : State) (p : Nat) : Bool :=
  match pageKind p with
  | some .tile => (changedPasids s).all fun x =>
      !holderBusy s (p + 10) { tag := 0, pasid := some x, va := 0, len := 0, sizes := 15, fn := 0, waiting := [] }
  | some .pagealloc => s.steward.running.all fun e => !(poolMoves s e.1)
  | _ => true

/-! ### What a unit does as it adopts (R434, R295, R311, R651) -/

/-- Drop a holder's entries of PASIDs, and the results of its walks. -/
def dropPasids (hp : Nat) (l : List Nat) (s : State) : State :=
  let s1 := setTlb hp ((tlbOf s hp).filter fun e => !l.contains e.pasid) s
  let ws := s1.xlate.walks.map fun w => if w.holder = hp ∧ l.contains w.pasid then { w with stale := true } else w
  { s1 with xlate := { s1.xlate with walks := ws } }

/-- The save region of a PASID that loses its binding is forgotten, and its residency (R651). -/
def dropContext (l : List Nat) (s : State) : State :=
  { s with disp := { s.disp with
      saved := s.disp.saved.filter fun e => !l.contains e.1
      resid := s.disp.resid.filter fun e => !l.contains e.2.pasid } }

/-- Commands of a PASID complete ABORTED; the spec gives no detail for this end, so it is a free value. -/
def abortPasids (l : List Nat) (s : State) : State :=
  let dt := (freeVal s).toNat % 256
  ((tickFree 1 s).disp.cmds.filter fun c => l.contains c.pasid && c.status.isNone).foldl
    (fun t c => match findCmd t c.ring c.no with | some x => abortCmd (0x30, dt) x t | none => t) (tickFree 1 s)

/-- Tiles that a slice can no longer use finish the command they run before another slice has them (R651). -/
def noteMoving (s : State) : State :=
  let leaves (lt : Nat) : Option (Nat × Option (Nat × Nat)) :=
    match tileCmd s lt with
    | some j =>
      (match findCmd s j.1 j.2 with
       | some c => if usableBy s c.slice lt then none else some (c.slice, some j)
       | none => none)
    | none =>
      match slook s.disp.resid lt with
      | some x => if usableBy s x.slice lt then none else some (x.slice, none)
      | none => none
  dispSync ((List.range 96).foldl (fun t lt =>
    match leaves lt, slook t.disp.moving lt with
    | some m, none => { t with disp := { t.disp with moving := sadd t.disp.moving lt m } }
    | _, _ => t) s)

/-- The page allocator meets changed storage of an enabled pool: with a lane not empty the pool is left disabled (R295). -/
def poolAdopt (slice : Nat) (s : State) : State :=
  if poolEn s slice ∧ poolMoves s slice ∧ ((List.range 8).any fun k => decide (laneFree s slice k ≠ 0)) then
    let key := regKey slice pPools 0x104
    let v := setFld (setupWord s.prot.snapshot slice pPools 0x104) 20 20 0
    event pPageAlloc 1 { s with prot := { s.prot with snapshot := sput regReset s.prot.snapshot key v } }
  else s

/-- What an acknowledging unit does at its boundary, before it adopts. -/
def adoptBefore (p : Nat) (s : State) : State :=
  let l := changedPasids s
  match pageKind p with
  | some .tile => dropPasids (p + 10) l s
  | some .copyEngine | some .collective => dropPasids p l s
  | some .walkers =>
    let d := pageDie p
    let s1 := dropPasids p l s
    { s1 with xlate := { s1.xlate with wcache := sput (fun _ => []) s1.xlate.wcache d ((wcacheOf s1 d).filter fun e => !l.contains e.pasid) } }
  | some .segment =>
    if masksChange s then
      match logicalSeg s (pageDie p) (pageUnit p - 20) with
      | some seg => dropReplicas (pageDie p) seg s
      | none => s
    else s
  | some .dispatch => if l = [] then dropPasids p l s else dropContext l (abortPasids l (dropPasids p l s))
  | some .pagealloc => (List.range 64).foldl (fun t sl => poolAdopt sl t) s
  | _ => s

/-- A unit adopts and has acknowledged. -/
def adopt (p : Nat) (s : State) : State :=
  let s1 := adoptBefore p s
  let s2 : State := { s1 with prot := { s1.prot with waiting := setDel p s1.prot.waiting } }
  addProg pHubProt 2 1 (if p = pDispatch then noteMoving s2 else s2)

/-- Sequence records of a pool that a commit enables are adopted (R660). -/
def adoptRecords (slice : Nat) (s : State) : State :=
  let ids := ((List.range (seqCount s slice)).map fun i => seqBase s slice + i).filter fun q => seqOwned s slice q && (seqRec s q).active
  { s with steward := { s.steward with active := ids.foldl (fun l q => sadd l q slice) (s.steward.active.filter fun e => e.2 != slice) } }

/-- Step 5 of R645, once every unit has acknowledged. -/
def finishCommit (s : State) : State :=
  if s.prot.phase ≠ .committing ∨ s.prot.waiting ≠ [] then s
  else
    let opens := (List.range 64).filter fun sl =>
      !bitOf (setupWord s.committed sl pPools 0x104) 20 && bitOf (setupWord s.prot.snapshot sl pPools 0x104) 20
    let s1 : State := { s with committed := s.prot.snapshot, prot := { pbt := s.prot.pbtNew } }
    let s2 := wr pProt 0x108 0 (inc32 pProt 0x100 1 (opens.foldl (fun t sl => adoptRecords sl t) s1))
    dispSync (addProg pProt 0 1 (event pProt 0 s2))

/-- Units that went OFF, SPARE or RETIRED acknowledge. -/
def commitFollow (s : State) : State :=
  if s.prot.phase ≠ .committing then s
  else finishCommit ((s.prot.waiting.filter (acksAtOnce s)).foldl (fun t p => adopt p t) s)

/-! ### COMMIT and COMMIT_ACK -/

/-- COMMIT (R645 steps 1 to 4, R649): the snapshot is taken, checked, and refused or sent to the units. -/
def commit (s : State) : State :=
  if s.prot.phase ≠ .idle then event pProt 2 s
  else
    let m := stagedNow s
    match commitCheck s m with
    | (some dt, _) => addProg pProt 4 1 (event pProt 1 (wr pProt 0x108 (BitVec.ofNat 32 (4 + 8 * dt)) s))
    | (none, l) =>
      let old := fld (rd s pProt 0x108) 10 2
      commitFollow (wr pProt 0x108 (BitVec.ofNat 32 (2 + 4 * old)) { s with prot := {
        phase := .committing, snapshot := m, pbt := s.prot.pbt, pbtNew := l, waiting := ackPages } })

def execCommit (s : State) : Res := .next (commit s)

/-- COMMIT_ACK: the unit of a page adopts at its boundary and acknowledges; one in HOLD does so after resumption. -/
def commitAck (p : Nat) (s : State) : State :=
  if s.prot.phase ≠ .committing ∨ !s.prot.waiting.contains p ∨ ackState s p = .hold ∨ !mayAck s p then s
  else commitFollow (adopt p s)

def execCommitAck (unit : Nat) (s : State) : Res := .next (commitAck unit s)

/-! ### Slice domains (R643, R656 to R658, R673) -/

/-- The rings of a slice. -/
def sliceRings (s : State) (slice : Nat) : List Nat := (List.range 8192).filter fun r => sliceOfRing s r == some slice

/-- Reset of a slice domain: GEN rises, every ring is forced OFF and its commands end with `st`. -/
def sliceDomainReset (st : Nat × Nat) (slice : Nat) (s : State) : State :=
  let x := sliceSt s slice
  let s1 := (sliceRings s slice).foldl (fun t r =>
    if (ringSt t r).state = .off then setRing r { ringSt t r with gen := (ringSt t r).gen + 1 } t
    else ringForceOff st r t) (setSliceSt slice { x with gen := x.gen + 1 } s)
  addProg pSlice 0 1 (dispSync s1)

/-- SL_CTRL.RESET: a slice that is CONTAINED stays so. -/
def execSliceReset (slice : Nat) (s : State) : Res := if 64 ≤ slice then .next s else .next (sliceDomainReset (0x30, 0x04) slice s)

/-- A slice enters CONTAINED (R656, R697): its commands end ABORTED with CONTAINED, its events are redirected. -/
def containSlice (s : State) (slice : Nat) : State :=
  let s1 := setSliceSt slice { sliceSt s slice with contained := true } s
  event pSlice 0 (sliceDomainReset (0x30, 0x05) slice s1)

/-- SL_CTRL.RELEASE: the slice leaves CONTAINED and redirection ends. -/
def release (slice : Nat) (s : State) : State :=
  if 64 ≤ slice ∨ !(sliceSt s slice).contained then s
  else event pSlice 1 (dispSync (setSliceSt slice { sliceSt s slice with contained := false } s))

def execRelease (slice : Nat) (s : State) : Res := .next (release slice s)

/-- A write of SL_CTRL.QUIESCE (R658): 1 sets every ring of the slice DRAINING. -/
def quiesce (slice : Nat) (on : Bool) (s : State) : State :=
  if 64 ≤ slice then s
  else
    let p := sliceReg slice 4
    let s1 := wr p.1 p.2 (setFld (rd s p.1 p.2) 0 0 (b2n on)) s
    let s2 := if on then (s1.disp.rings.filter fun e => sliceOfRing s1 e.1 == some slice).foldl (fun t e => ringDrain e.1 t) s1 else s1
    noteQuiet slice s2

def execQuiesce (slice : Nat) (on : Bool) (s : State) : Res := .next (quiesce slice on s)

/-- A write of SL_CTRL (R666): RESET, RELEASE, QUIESCE. -/
def slCtrlWrite (slice : Nat) (w : Word) (s : State) : State :=
  let s1 := if bitOf w 1 ∧ slice < 64 then sliceDomainReset (0x30, 0x04) slice s else s
  let s2 := if bitOf w 2 then release slice s1 else s1
  quiesce slice (bitOf w 0) s2

/-! ### MIG_LOAD (R659) -/

/-- MIG_CTRL.LOAD. -/
def migLoad (s : State) : State :=
  let ring := fld (rd s pSlice 0x180) 12 0
  let f (off : Nat) := fld (rd s pSlice off) 16 0
  let r := ringSt s ring
  if r.state ≠ .off ∨ ringCapacity r < idxDiff (f 0x188) (f 0x184) ∨ ringCapacity r < idxDiff (f 0x190) (f 0x18C) then event pSlice 3 s
  else setRing ring { r with
    head := f 0x184, tail := f 0x188, cqHead := f 0x18C, cqTail := f 0x190, expSeq := (rd s pSlice 0x194).toNat } s

def execMigLoad (s : State) : Res := .next (migLoad s)

end Sys2Proof.Machine
end

