-- ==== Sys2Proof/Machine/Hatbox.lean ====
section
/-! DEFINITION. The crash dump, the watchdog, failover and device faults (15_recovery.md; rows HEARTBEAT to WD_DECLARE,
DEVICE_FAULT, HATBOX to HATBOX_NOR_COPY). -/

namespace Sys2Proof.Machine

/-! ### The Hatbox image (R711 to R714) -/

/-- `n` free bytes: places of the image whose layout the spec does not give (assumption log 41). -/
def freeBytes (s : State) (n : Nat) : List Byte := (List.range n).map fun i => BitVec.ofNat 8 (Config.freeValue (s.freeCtr + i)).toNat

/-- Write free bytes to reserved memory. -/
def writeFree (pa n : Nat) (s : State) : State := tickFree n (cohWrite true none pa (freeBytes s n) s)

/-- The header pages of a die field, in order of offset. -/
def diePages (die : Nat) : List Nat :=
  (List.range 64).flatMap fun u => ((List.range 16).map fun b => pageOf die u b).filter hasHeader

/-- ERR_REC of a page as 32 bytes (R84). -/
def errBytes (s : State) (p : Nat) : List Byte := (List.range 8).flatMap fun i => leBytes 4 (rd s p (0x20 + 4 * i)).toNat

/-- The ERR_REC entries of die fields: BAR0 offset, record, 28 bytes of zeros (R713), at most 1,024. -/
def errEntries (s : State) (dies : List Nat) : List Byte :=
  (((dies.flatMap diePages).filter fun p => bitOf (rd s p 0x20) 31).take 1024).flatMap fun p =>
    leBytes 4 (p * 4096) ++ errBytes s p ++ List.replicate 28 0

/-- The last park entries of a die's ring, at most 1,024, oldest first. -/
def lastParks (s : State) (d : Nat) : List Byte :=
  let n := min 1024 (parkEntries s d)
  let prod := fld (rd s (pCluster d 0) 0x20C) 16 0
  let base := rd64 s (pCluster d 0) 0x200 / 4096 * 4096
  (List.range n).flatMap fun i => cohBytes s true (base + 32 * ((prod + 0x20000 - n + i) % parkEntries s d)) 32

/-- The share of compute die `d` (R713). -/
def dieShare (d : Nat) (s : State) : State :=
  let b := rsvdBase d
  let s1 := cohWrite true none (b + 0x1000) (snapDieBytes s d) s
  let s2 := cohWrite true none (b + 0x21000) (errEntries s [d]) s1
  writeFree b 4096 (cohWrite true none (b + 0x31000) (lastParks s d) s2)

/-- The physical base of the hub share, HB_BASE (R713, R718). -/
def hatHubBase : Nat := rsvdBase 0 + 0x40000

/-- The hub share (R713). -/
def hubShare (s : State) : State :=
  let b := hatHubBase
  let s1 := cohWrite true none (b + 0x1000) ([8, 9, 10, 15].flatMap fun d => snapDieBytes s d) s
  let s2 := cohWrite true none (b + 0x81000) (errEntries s [8, 9, 10, 15]) s1
  writeFree b 4096 (writeFree (b + 0xE1000) 0x10000 (writeFree (b + 0x91000) 0x50000 s2))

/-- Write an image for a trigger (R711 to R713). -/
def writeHatbox (code : Nat) (s : State) : State :=
  let s1 := if snapLatched s then s else snapTrigger 2 s
  let s2 := hubShare ((List.range 8).foldl (fun t d => dieShare d t) s1)
  addProg pWatchdog 6 1 (event pWatchdog 3 (wr pWatchdog 0x14C (BitVec.ofNat 32 (1 + 2 * code)) s2))

/-- HATBOX: the oldest trigger is served, or counted while an image is held (R711, R712). -/
def hatbox (s : State) : State :=
  match s.recov.hatReq with
  | [] => s
  | code :: rest =>
    let s1 : State := { s with recov := { s.recov with hatReq := rest } }
    if hatValid s1 then satInc pWatchdog 0x158 1 s1 else writeHatbox code s1

def execHatbox (s : State) : Res := .next (hatbox s)

/-- HB_REQ (R711, R718). -/
def execHbReq (s : State) : Res := .next (hatTrigger 6 s)

/-- HB_STAT.VALID written 1 (R712, R718): the image is released, with its status. -/
def hbStatWrite (w : Word) (s : State) : State :=
  if bitOf w 0 ∧ hatValid s then wr pWatchdog 0x14C 0 s else s

def execHbStatClear (s : State) : Res := .next (hbStatWrite 1 s)

/-- HATBOX_NOR_COPY (R714, R799): with the input at 40 V or more, outside HOLD, the image goes to the Hatbox slot: a header of
4 KiB whose bytes are free, the shares in order, the hub's last; NOR_COPIED. -/
def execHatboxNorCopy (s : State) : Res :=
  if !hatValid s ∨ s.inHold ∨ s.power.vin < 40000 ∨ bitOf (rd s pWatchdog 0x14C) 4 then .next s
  else
    let s1 := norProgram 0x900000 (freeBytes s 4096) (norErase 0x900000 0x400000 s)
    let s2 := (List.range 8).foldl (fun t d => norProgram (0x901000 + d * 0x40000) (cohBytes t true (rsvdBase d) 0x40000) t)
      (tickFree 4096 s1)
    let s3 := norProgram 0xB01000 (cohBytes s2 true hatHubBase 0x100000) s2
    .next (wr pWatchdog 0x14C (rd s3 pWatchdog 0x14C ||| 0x10) s3)

/-! ### Device fault (R695) -/

/-- The device enters a device fault: DEV_FAULT, its event, a Hatbox trigger, ALERT_N. -/
def deviceFault (s : State) : State :=
  if devFault s then s
  else
    let s1 := event pWatchdog 7 (wr pWatchdog 0x108 (rd s pWatchdog 0x108 ||| 0x400) s)
    dispSync (hatTrigger 3 { s1 with alertN := true })

/-- DEVICE_FAULT by a cause no other command shows: the dispatch table has an uncorrectable error (R695). -/
def execDeviceFault (s : State) : Res := .next (deviceFault s)

/-! ### Heartbeat, watchdog, failover (R688, R692 to R694) -/

/-- HEARTBEAT: Holog adds 1 to HB_COUNT, which starts with RUN (R792, R797). -/
def execHeartbeat (s : State) : Res :=
  if s.inHold ∨ phase s ≠ 5 then .next s else .next (inc32 pWatchdog 0x100 1 s)

/-- The page of the dispatcher that is not in service. -/
def pOther (s : State) : Nat := if s.disp.primary = 0 then pStandby else pDispatch

/-- Whether a standby dispatcher is there to take over. -/
def hasStandby (s : State) : Bool := decide ((unitSt s (pOther s)).state = .spare)

/-- A failover begins (R692, R719): the primary is stopped in FAULTED and the standby reads PRIMARY; without a standby
the device faults (R695). -/
def startFailover (s : State) : State :=
  if s.disp.failover then s
  else if !hasStandby s then deviceFault s
  else
    let w := rd s pWatchdog 0x108
    let s1 := wr pWatchdog 0x108 (setFld (setFld w 0 0 1) 9 2 (min (fld w 9 2 + 1) 255)) s
    let s2 := setUState (pDsp s1) .faulted false (addProg pWatchdog 4 1 (event pWatchdog 0 s1))
    hatTrigger 2 { s2 with
      disp := { s2.disp with failover := true, primary := 1 - s2.disp.primary }
      recov := { s2.recov with misses := 0 } }

/-- WATCHDOG_SAMPLE (R688): a sample equal to the one before is a missed beat; three in a row start a failover, or a
device fault within 10 ms of a takeover or without a standby (R695). It stands still in BOOT and in HOLD. -/
def watchdogSample (s : State) : State :=
  if s.inHold ∨ phase s ≠ 5 then s
  else
    let n := (rd s pWatchdog 0x100).toNat
    let seen (m : Nat) (t : State) : State := { t with recov := { t.recov with hbLast := some n, misses := m } }
    match s.recov.hbLast with
    | none => seen 0 s
    | some x =>
      if x ≠ n then addProg pWatchdog 0 1 (seen 0 s)
      else if s.recov.misses + 1 < 3 then seen (s.recov.misses + 1) s
      else if !bitOf (rd s pWatchdog 0x104) 0 then seen 3 s
      else
        let soon := match s.recov.takeover with | some t => decide (s.now < t + 10000000) | none => false
        if soon then deviceFault (seen 0 s) else startFailover (seen 0 s)

def execWatchdogSample (s : State) : Res := .next (watchdogSample s)

/-- FAILOVER: the new primary has rebuilt pending bits, ranks, age clocks and claims, and serves (R512, R692). -/
def failover (s : State) : State :=
  if !s.disp.failover ∨ s.inHold ∨ devFault s then s
  else
    let rings := s.disp.rings.map fun e => (e.1, { e.2 with
      pend := decide (e.2.state = .active) && decide (idxDiff e.2.tail e.2.head ≠ 0) })
    let s1 : State := { s with
      disp := { s.disp with rings := rings, failover := false }
      recov := { s.recov with takeover := some s.now } }
    let p := pDsp s1
    let s2 := setUState p .active false (setUnit p { unitSt s1 p with enable := true, drain := false } s1)
    dispSync (wr pWatchdog 0x108 (rd s2 pWatchdog 0x108 &&& 0xFFFFFFFE) s2)

def execFailover (s : State) : Res := .next (failover s)

/-- Pounce tests the dispatcher that is not in service (R694, R704): the standby, or the end of the device's standby. -/
def standbyTest (ok : Bool) (s : State) : State :=
  let p := pOther s
  if s.disp.failover ∨ (unitSt s p).state = .retired then s
  else if ok then setUState p .spare false (setUnit p { unitSt s p with enable := false, drain := false } s)
  else
    let s1 := wearWrite 11 8 (pageUnit p) 0 0x3F 0 (setUState p .retired false s)
    event pWatchdog 1 (wr pWatchdog 0x108 (rd s1 pWatchdog 0x108 ||| 2) s1)

/-! ### WD_DECLARE (R690) -/

/-- The oldest started and incomplete command of a ring. -/
def oldestOpen (s : State) (ring : Nat) : Option Cmd := (ringCmds s ring).find? fun c => c.status.isNone

/-- A write of WD_DECLARE: with GO the ring's oldest open command becomes GUILTY. -/
def wdDeclare (w : Word) (s : State) : State :=
  let ring := fld w 12 0
  if !bitOf w 13 ∨ (ringSt s ring).state = .guilty then s
  else
    match oldestOpen s ring with
    | none => s
    | some c =>
      let s1 := addProg pWatchdog 5 1 (event pWatchdog 2 s)
      let s2 := captureErr pWatchdog (cmdErr s1 c pWatchdog 0x31 0x20) s1
      guiltyEnter ring c.no (0x31, 0x20) s2

def execWdDeclare (ring : Nat) (s : State) : Res := .next (wdDeclare (BitVec.ofNat 32 (ring % 8192 + 8192)) s)

end Sys2Proof.Machine
end

