-- ==== Sys2Proof/Machine/DevReset.lean ====
section
/-! DEFINITION. Device reset and the boot ROM (15_recovery.md R715, R716; 17_firmware.md R778 to R785; rows DEVICE_RESET,
PERST_N, PERST_N_DEASSERT, POWER_ON). -/

namespace Sys2Proof.Machine

/-! ### What a device reset leaves (R715, R716) -/

/-- Every segment writes back (R715 step 2): dirty data in flight reaches its home or memory, OWNED lines are recalled, D
and P sectors go to memory. `unreadable` are (line, sector) pairs that cannot be read: they are written as poison. -/
def feltWriteBack (unreadable : List (Nat × Nat)) (s : State) : State :=
  let s1 := s.felt.net.foldl (fun t m =>
    match m.kind with
    | .memWr => if backed t (m.line * 1024) then writeSectors m.line m.sectors m.poison m.data t else t
    | .wbData => setHome m.seg m.line (mergeOwner m (home t m.seg m.line)) t
    | _ => t) s
  let s2 := s1.felt.lines.foldl (fun t e =>
    let seg := e.1 / 0x4000000000
    let line := e.1 % 0x4000000000
    if (home t seg line).owner.isSome then recallLine seg line t else t) s1
  s2.felt.lines.foldl (fun t e =>
    let seg := e.1 / 0x4000000000
    let line := e.1 % 0x4000000000
    let lost := (unreadable.filter fun u => u.1 == line && decide ((home t seg line).sector u.2 = .d)).map fun u => u.2
    let t1 := markPoison seg line lost 0x09 0 t
    let h := home t1 seg line
    let out := h.sectorsIn .d ++ h.sectorsIn .p
    if backed t1 (line * 1024) then
      writeSectors line out (h.sectorsIn .p) (out.flatMap fun i => cellsOfSector h.byte i) t1
    else t1) s2

/-- Registers that a device reset keeps: error records, RWS registers, the Hatbox status, what fuses and the MMC hold,
and configurations that take effect at the reset (R716, R429, R852). -/
def keptReg (key : Nat) : Bool :=
  let p := key % 0x4000000 / 0x1000
  let off := key % 0x1000
  (hasHeader p && decide (0x20 ≤ off) && decide (off < 0x40))
    || (match specAt p off with | some r => decide (r.acc = .rws) | none => false)
    || (p == pWatchdog && off == 0x14C) || (p == pBlocker && off == 0x104) || (p == pBoot && (off == 0x124 || off == 0x128))
    || (pageKind p == some .ucie && off == 0x100) || (pageKind p == some .lpddrc && off == 0x100)

/-- A sparse map over keys below `n`. -/
def sparseOf {β : Type} [DecidableEq β] (d : Nat → β) (n : Nat) (f : Nat → β) : List (Nat × β) :=
  ((List.range n).map fun k => (k, f k)).filter fun e => decide (e.2 ≠ d e.1)

/-- The controllers of a die after a device reset: poison list, repairs and what boot found of the packages stay. -/
def resetMemCtl (m : MemCtl) : MemCtl :=
  { rowsUsed := m.rowsUsed, bankUsed := m.bankUsed, remaps := m.remaps, farPoison := m.farPoison, farLost := m.farLost
    nearShort := m.nearShort, present := m.present, hppr := m.hppr, selfRefresh := true }

/-- Every unit is reset (R715 step 3, R716): the state of the part but what outlives a device reset; DEV_TIME restarts,
every GEN rises, the phase is RESET. -/
def clearDevice (s : State) : State :=
  { pending := s.pending, out := s.out, freeCtr := s.freeCtr, alertN := s.alertN, mem := s.mem, nearMarks := s.nearMarks
    regs := s.regs.filter fun e => keptReg e.1
    units := sparseOf (fun _ => ({} : UnitSt)) 16384 fun p => if hasHeader p then { gen := (unitSt s p).gen + 1 } else {}
    slices := sparseOf (fun _ => ({} : SliceSt)) 64 fun n => { gen := (sliceSt s n).gen + 1 }
    disp := { rings := sparseOf (fun _ => ({} : Ring)) 8192 fun r => { gen := (ringSt s r).gen + 1 } }
    org := { s.org with bindTile := [], bindSeg := [], dist := [], paths := [], lasersFailed := [] }
    memctl := sparseOf (fun _ => ({} : MemCtl)) 8 fun d => resetMemCtl (memCtl s d)
    nor := s.nor
    power := { s.power with bounds := [], models := [], moduleFrac := 0, uncharged := 0, ringEnergy := [], sliceEnergy := []
                            shares := [], hold := {} }
    boot := { part := s.boot.part, perst := s.boot.perst, image := s.boot.image }
    host := { nextTag := s.host.nextTag }
    mmc := { s.mmc with base := s.mmc.base + s.now } }

/-! ### The boot ROM (R782, R783, R790, R799) -/

/-- Set BOOT_STAT (R808). -/
def setBootStat (ph code die : Nat) (s : State) : State :=
  wr pBoot 0x100 (BitVec.ofNat 32 (ph % 8 + 0x100 * (code % 256) + 0x10000 * (die % 16))) s

/-- The device refuses to start (R790, R809). -/
def bootStop (code die : Nat) (s : State) : State := event pBoot 1 (setBootStat 6 code die s)

/-- The index of the first entry of a list that satisfies a condition. -/
def firstIdx {α : Type} (p : α → Bool) (l : List α) : Option Nat := l.findIdx? p

/-- The first breach of the straps, fuses and NOR: code and die (R5, R26, R27, R783, R790). -/
def romBreach (x : Part) : Option (Nat × Nat) :=
  let pos := x.straps.map fun e => e.1
  let var := x.straps.map fun e => e.2
  match firstIdx (fun v => decide (2 ≤ v)) var with
  | some d => some (0x01, d)
  | none =>
    match firstIdx (fun p => decide (9 ≤ p)) pos with
    | some d => some (0x02, d)
    | none =>
      match firstIdx (fun p => decide (1 < (pos.filter fun q => q == p).length)) pos with
      | some d => some (0x03, d)
      | none =>
        match (List.range 9).find? fun p => !pos.contains p with
        | some p => some (0x04, p)
        | none =>
          match firstIdx (fun v => v != var.headD 0) var with
          | some d => some (0x05, d)
          | none => if !x.fusesOk then some (0x06, 0) else if !x.norOk then some (0x07, 0) else none

/-- The ROM programs the next boot-count entry, erasing the half it enters (R799). -/
def countBoot (s : State) : State :=
  let n := s.nor.boots + 1
  let i := s.nor.bootEntries % 8192
  let s1 := if i % 4096 = 0 then norErase (0x10000 + 8 * i) 0x8000 s else s
  let s2 := norProgram (0x10000 + 8 * i) (leBytes 4 n ++ leBytes 4 (0xFFFFFFFF - n % 0x100000000)) s1
  { s2 with nor := { s2.nor with boots := n, bootEntries := s2.nor.bootEntries + 1 } }

/-- What the ROM takes over from straps, fuses and detect balls (R5, R92, R854). -/
def takePart (s : State) : State :=
  let x := s.boot.part
  let v : Nat := (x.straps.map fun e => e.2).headD 0
  let ord : Nat := if x.tiles = 12 ∧ v = 0 then 0 else if x.tiles = 12 ∧ v = 1 then 1 else if x.tiles = 11 ∧ v = 0 then 2 else 15
  let s1 : State := { s with org := { s.org with
    strapPos := x.straps.map fun e => e.1
    strapVar := x.straps.map fun e => e.2
    tilesPerDie := x.tiles, variant := v, order := ord, spareTile := x.spareTile, spareSeg := x.spareSeg
    csPresent := x.chiplets } }
  (List.range 8).foldl (fun t d => setMemCtl d { memCtl t d with
    present := if v = 1 then [(memCtl t d).present.getD 0 true, false] else (memCtl t d).present } t) s1

/-- Both the ROM's checks and link training are done: the boot window opens (R781, R784). HOLD pauses the phase (R791). -/
def maybeWait (s : State) : State :=
  if phase s = 1 ∧ !s.inHold ∧ s.boot.toFind = [] ∧ bitOf (rd s pHostif 0x100) 13 then setBootStat 2 0 0 s else s

/-- The ROM runs: straps, fuses and NOR are checked, the boot is counted, and present sites wait for discovery. -/
def romRun (s : State) : State :=
  let s0 := setBootStat 1 0 0 { s with boot := { s.boot with romAt := s.now } }
  match romBreach s0.boot.part with
  | some (code, die) => bootStop code die s0
  | none =>
    let s1 := takePart (countBoot s0)
    let s2 := wr pBoot 0x160 (BitVec.ofNat 32 s1.nor.boots) s1
    maybeWait { s2 with boot := { s2.boot with toFind := (List.range 2).filter fun k => s2.org.csPresent.getD k false } }

/-- The effective cap and its source (R740, R775): 0 BLK_CAP, 1 the MMC, 2 THROTTLE_N; the lowest code on a tie. -/
def capOf (s : State) : Nat × Nat :=
  let a := fld (rd s pBlocker 0x100) 12 0
  let b := if s.mmc.cap < a then (s.mmc.cap, 1) else (a, 0)
  if s.power.throttle ∧ 1200 < b.1 then (1200, 2) else b

/-- BLK_STAT's cap fields, THROTTLE and STUCK (R775). -/
def setCap (s : State) : State :=
  let c := capOf s
  let w := setFld (setFld (rd s pBlocker 0x10C) 12 0 c.1) 14 13 c.2
  wr pBlocker 0x10C (setFld (setFld w 15 15 (b2n s.power.throttle)) 16 16 (b2n (bitOf (rd s pBlocker 0x170) 1))) s

/-- Bring the effective cap up to date, with its event; in HOLD it waits for resumption (R762, R776). -/
def capSync (s : State) : State :=
  if s.inHold ∨ !s.power.up then s
  else
    let s1 := setCap s
    if fld (rd s pBlocker 0x10C) 12 0 = fld (rd s1 pBlocker 0x10C) 12 0 then s1 else event pBlocker 0 s1

/-- A device reset (R673, R715, R716, R779), with its cause for BOOT_CAUSE: 1 PERST_N, 2 DEV RESET, 3 FLR of the PF,
4 after a device fault. With PERST_N the host link goes down. -/
def deviceReset (cause : Nat) (unreadable : List (Nat × Nat)) (s : State) : State :=
  let link := rd s pHostif 0x100
  let s1 := if hatValid s then satInc pWatchdog 0x158 1 s else writeHatbox 4 s
  let s2 := clearDevice (feltWriteBack unreadable s1)
  let s3 := wr pBoot 0x124 (rd s2 pBoot 0x124 &&& 0x3F) (wr pBoot 0x128 (rd s2 pBoot 0x128 &&& 0xFF) s2)
  let s4 := wr pHostif 0x100 (if cause = 1 then link &&& 0xFFFFDFFF else link) s3
  let s5 := setCap (wr pBoot 0x164 (BitVec.ofNat 32 cause) s4)
  if cause = 1 then s5 else romRun s5

/-- A device reset that meets HOLD is applied at resumption (R679, R762). -/
def deviceResetReq (cause : Nat) (unreadable : List (Nat × Nat)) (s : State) : State :=
  if !s.power.up then s
  else if s.inHold then
    { s with power := { s.power with hold := { s.power.hold with reset := some (s.power.hold.reset.getD cause) } } }
  else deviceReset cause unreadable s

/-- DEVICE_RESET: the driver resets the device, by the DEV page or after a device fault (R695, R779). -/
def execDeviceReset (unreadable : List (Nat × Nat)) (s : State) : Res :=
  .next (deviceResetReq (if devFault s then 4 else 2) unreadable s)

/-! ### PERST_N (R779, R781, R812, R840) -/

/-- PERST_N is asserted: a device reset; the device is held in RESET. In HOLD the host link retrains at once, and the reset
waits (R762). -/
def execPerstN (unreadable : List (Nat × Nat)) (s : State) : Res :=
  let s1 : State := { s with boot := { s.boot with perst := true } }
  .next (deviceResetReq 1 unreadable
    (if s1.inHold then wr pHostif 0x100 (rd s1 pHostif 0x100 &&& 0xFFFFDFFF) s1 else s1))

/-- PERST_N is deasserted: BIF_N is sampled (low: a 2 × x8 slot), link training begins, and the ROM starts if the device was
held in RESET (R781, R782, R812). -/
def perstDeassert (bifLow : Bool) (s : State) : State :=
  let was := s.boot.perst
  let s1 : State := { s with boot := { s.boot with perst := false } }
  if !s.power.up then s1
  else
    let s2 := wr pHostif 0x100 (setFld (rd s1 pHostif 0x100) 9 9 (b2n bifLow)) s1
    if was ∧ phase s2 = 0 ∧ !s2.inHold then romRun s2 else s2

def execPerstNDeassert (bifLow : Bool) (s : State) : Res := .next (perstDeassert bifLow s)

/-! ### Power-on (R722, R780, R783) -/

/-- POWER_ON: the input is in range and the eFuse is free to start; `part` is what fuses, straps and detect balls give,
`vin` the input in mV; the ROM runs after power-on (BOOT_CAUSE 0). -/
def powerOn (part : Part) (vin : Nat) (s : State) : State :=
  if s.power.up ∨ s.power.efuse ≠ .off ∨ ¬(40000 ≤ vin ∧ vin ≤ 60000) then s
  else
    let s1 : State := { s with
      power := { s.power with efuse := .on, up := true, vin := vin, retries := 0 }
      mmc := { s.mmc with psStat := setFld s.mmc.psStat 2 1 s.power.retries }
      boot := { s.boot with part := part, fresh := true } }
    let s2 := wr pBoot 0x124 (BitVec.ofNat 32 (part.svn % 64)) (wr pBoot 0x128 (BitVec.ofNat 32 (part.programmed % 16 + 16 * (part.revoked % 16))) s1)
    romRun (setCap (wr pBlocker 0x104 (BitVec.ofNat 32 s2.mmc.cap) (wr pBoot 0x164 0 s2)))

def execPowerOn (part : Part) (vin : Nat) (s : State) : Res := .next (powerOn part vin s)

end Sys2Proof.Machine
end

