-- ==== Sys2Proof/Machine/Units.lean ====
section
/-! DEFINITION. UNIT_CTRL and the states of units (02_register_pages.md R74 to R78), resets of unit domains
(15_recovery.md R673 to R681; rows ENABLE, DRAIN, FORCE_OFF, RESET, ACCEPTED_WORK_FINISHED). -/

namespace Sys2Proof.Machine

/-! ### Which units a write reaches (R31, R32, R70) -/

/-- A page and, through its members, theirs; units in SPARE or RETIRED are left out (R32). -/
def liveUnder : Nat → State → Nat → List Nat
  | 0, s, p => if counted s p then [p] else []
  | fuel + 1, s, p => if counted s p then p :: (ctrlMembersOf p).flatMap (liveUnder fuel s) else []

/-- Whether a page is a leaf. -/
def isLeaf (p : Nat) : Bool := (ctrlMembersOf p).isEmpty

/-- Whether a page is a tile's header or one of its blocks. -/
def inTile (p : Nat) : Bool := decide (pageDie p < 8) && decide (pageUnit p < 15)

/-- Whether a hub unit is one of 2 to 10 (R675, R695). -/
def isHubUnit (p : Nat) : Bool := pageDie p == 8 && decide (2 ≤ pageUnit p) && decide (pageUnit p ≤ 10)

/-- Whether a page is a dispatcher's. -/
def isDsp (p : Nat) : Bool := p == pDispatch || p == pStandby

/-! ### The work a unit holds (R654, R680) -/

/-- The command of a tile's task. -/
def tileWork (s : State) (d u : Nat) : List (Nat × Nat) :=
  match (tileSt s d u).task, (tileSt s d u).issued with
  | some k, _ => if k.aborted then [] else [(k.ring, k.no)]
  | none, some k => [(k.ring, k.no)]
  | none, none => []

/-- The requests a segment has open. -/
def segReqs (s : State) (g : Nat) : List FReq :=
  (s.felt.lines.filter fun e => decide (e.1 / 0x4000000000 = g)).flatMap fun e =>
    match e.2.trans with
    | some t => if t.kind = .req then t.req :: t.merged else []
    | none => []

/-- The commands whose work a leaf unit holds, oldest first where the unit orders them. -/
def unitCmds (s : State) (p : Nat) : List (Nat × Nat) :=
  let d := pageDie p
  let u := pageUnit p
  if inTile p then tileWork s d u
  else
    match pageKind p with
    | some .segment =>
      (match logicalSeg s d (u - 20) with | some g => (segReqs s g).filterMap fun r => r.cmd | none => [])
    | some .walkers =>
      (s.xlate.walks.filter fun w => w.die == d && inTile w.holder).flatMap fun w => tileWork s (pageDie w.holder) (pageUnit w.holder)
    | some .collective => (s.xfer.plans.filter fun e => e.1 / 16 == d).map fun e => (e.2.ring, e.2.no)
    | some .copyEngine => (s.xfer.msgs.filter fun m => m.die == d && m.engine == some (pageBlock p - 1)).map fun m => (m.ring, m.no)
    | some .pagealloc => s.steward.running.map fun e => e.2
    | _ => []

/-- The slices whose work a unit holds (R654). -/
def unitSlices (s : State) (p : Nat) : List Nat :=
  let a := (unitCmds s p).filterMap fun c => (findCmd s c.1 c.2).map fun x => x.slice
  let b := match pageKind p with
    | some .segment =>
      (match logicalSeg s (pageDie p) (pageUnit p - 20) with
       | some g => (segReqs s g).filterMap fun r => r.slice
       | none => [])
    | some .copyEngine => (s.xfer.rx.flatMap fun f =>
        if f.1 % 64 == 8 * (pageBlock p - 1) + pageDie p then f.2.entries.map fun e => e.slice else [])
    | some .walkers => (s.xlate.walks.filter fun w => w.die == pageDie p).filterMap fun w =>
        ((bindingsAt s pDispatch).find? fun x => x.pasid == w.pasid).map fun x => x.slice
    | _ => []
  dedupNat (a ++ b)

/-! ### Commands whose unit is reset (R680) -/

/-- A command that had work in a unit completes with `st` once its other work has ended; the WATCHDOG page records it. -/
def lostWork (st : Nat × Nat) (s : State) (c : Nat × Nat) : State :=
  match findCmd s c.1 c.2 with
  | none => s
  | some x =>
    if x.status.isSome then s
    else
      let s1 := if x.fail.isNone then captureErr pWatchdog (cmdErr s x pWatchdog st.1 st.2) (failCmd c.1 c.2 st s) else s
      maybeFinish c.1 c.2 s1

/-! ### Aborting accepted work -/

/-- The task of a tile and every task of its set are aborted; those not yet started are taken back (R135, R856). -/
def abortTiles (d : Nat) (us : List Nat) (s : State) : State :=
  us.foldl (fun t u =>
    let x := tileSt t d u
    let t1 := match x.task with | some k => setClusterBar d (u / 5) (barInst k u) {} t | none => t
    let t2 := match x.issued with
      | some k => setClusterBar d (u / 5) (barInst k u) {} (unissue d u k (setTile d u { x with issued := none } t1))
      | none => t1
    abortTile d u t2) s

/-- A copy engine's messages end; a plan's step that one of them ran fails; its flows carry RESYNC next (R605). -/
def abortEngine (d n : Nat) (st : Nat × Nat) (s : State) : State :=
  let mine (m : Msg) : Bool := m.die == d && m.engine == some n
  let steps := (s.xfer.msgs.filter mine).filterMap fun m => m.plan
  let s1 := dropMsgs mine (dropMsgHolds mine s)
  let q := 8 * n + d
  let tx := s1.xfer.tx.map fun e => if e.1 / 4096 = q then (e.1, { e.2 with resync := true }) else e
  let s2 : State := { s1 with xfer := { s1.xfer with tx := tx } }
  steps.foldl (fun t x => planStepDone (x.1 * 16 + x.2.1) x.2.2 (some st) t) s2

/-- A collective engine's plans end; a round of theirs left open stays open (R616). -/
def abortPlans (d : Nat) (s : State) : State :=
  { s with
    xfer := { s.xfer with plans := s.xfer.plans.filter fun e => e.1 / 16 != d }
    xlate := { s.xlate with heldStreams := s.xlate.heldStreams.filter fun h => h.holder != pCollective d } }

/-- A holder of translations drops what it holds; it acknowledges at once every invalidation under which it has no access
open (R452, R456). -/
def dropHolder (hp : Nat) (s : State) : State :=
  let s1 := setTlb hp [] s
  { s1 with xlate := { s1.xlate with
      invals := s1.xlate.invals.map fun e =>
        (e.1, e.2.map fun v => if holderBusy s hp v then v else { v with waiting := setDel hp v.waiting }) } }

/-- Abort the work a leaf unit holds, but for tiles, whose tasks end together (R346, R452, R605, R616). -/
def abortLeaf (st : Nat × Nat) (unreadable : List (Nat × Nat)) (s : State) (p : Nat) : State :=
  let d := pageDie p
  match pageKind p with
  | some .tlb => dropHolder p s
  | some .segment =>
    (match logicalSeg s d (pageUnit p - 20) with
     | some g => if (segSt s g).resetting then s else segmentReset g unreadable s
     | none => s)
  | some .sdramc => setMemCtl d { memCtl s d with repair := none } s
  | some .walkers =>
    let s1 := dropHolder p s
    { s1 with xlate := { s1.xlate with wcache := sput (fun _ => []) s1.xlate.wcache d [] } }
  | some .collective => abortPlans d (dropHolder p s)
  | some .copyEngine => abortEngine d (pageBlock p - 1) st (dropHolder p s)
  | some .ucie => if s.felt.dead.contains d then s else agentDead d s
  | _ => s

/-! ### What a reset clears beside the work (R74, R88, R561, R673) -/

/-- The pages of a unit: its own, and the extension pages of a unit whose page is block 0. -/
def extPages (p : Nat) : List Nat :=
  if pageBlock p ≠ 0 then [p]
  else p :: ((List.range 15).map fun b => p + 1 + b).filter fun q => (pageKind q).isSome && !hasHeader q

/-- Registers that a reset of their unit leaves: ERR_REC, RWS registers, NODE_ID (one for the device) and LP_CFG. -/
def unitKeeps (p off : Nat) : Bool :=
  (decide (0x20 ≤ off) && decide (off < 0x40))
    || (match specAt p off with | some r => decide (r.acc = .rws) | none => false)
    || (pageKind p == some .port && off == 0x100) || (pageKind p == some .lpddrc && off == 0x100)
    || (pageKind p == some .ucie && off == 0x100)

/-- A unit's registers go to their reset values; its events are dropped first (R86). -/
def clearRegs (s : State) (p : Nat) : State :=
  let s1 := dropEvt p (rd s p 0x10) s
  { s1 with regs := s1.regs.filter fun e =>
      !((extPages p).contains (e.1 / 0x1000) && !unitKeeps (e.1 / 0x1000) (e.1 % 0x1000)) }

/-- What a tile block's reset clears in the tile: a core's buffers, the matrix array, the tile store (its content is
then undefined; pinned residency is lost). -/
def clearBlock (s : State) (p : Nat) : State :=
  let d := pageDie p
  let u := pageUnit p
  let b := pageBlock p
  let t := tileSt s d u
  match pageKind p with
  | some .vc => setTile d u { t with
      sb := t.sb.filter fun e => e.1 + 1 != b, replays := t.replays.filter fun e => e.1 + 1 != b
      parkHeld := t.parkHeld.filter fun e => bytesAt e 1 1 % 64 / 16 + 1 != b } s
  | some .matrix => setTile d u { t with mx := {} } s
  | some .tstore =>
    let t1 : TileSt := { t with scratch := [], scratchFree := some s.freeCtr, zeroTo := 0, scratchPoison := [], l1 := [], l1Size := 0, pin := 0 }
    let s1 := tickFree 0x800000 (setTile d u t1 s)
    { s1 with disp := { s1.disp with resid := serase (12 * d + logicalTile s1 d u) s1.disp.resid } }
  | _ => s

/-- What a leaf's reset clears beside its registers. -/
def clearLeaf (s : State) (p : Nat) : State :=
  let d := pageDie p
  let m := memCtl s d
  match pageKind p with
  | some .port => setPort (6 * d + (pageUnit p - 36)) {} s
  | some .sdramc => setMemCtl d { m with level := 0, leaveSince := [none, none, none], scrubNear := 0, regions := [] } s
  | some .lpddrc => setMemCtl d { m with scrubFar := 0, pausedTo := [] } s
  | _ => clearBlock s p

/-- A group's reset clears what belongs to the group: the transfer engine's entries of a die, the routing tables of a die's
ports (R561), and a die's replica controller, whose agent is dead (R342). -/
def clearGroup (s : State) (p : Nat) : State :=
  let d := pageDie p
  match pageKind p with
  | some .copygrp =>
    { s with xfer := { s.xfer with
        rx := s.xfer.rx.map fun f => (f.1, { f.2 with entries := f.2.entries.filter fun e => e.die != d })
        inbox := sput (fun _ => []) s.xfer.inbox d []
        serves := s.xfer.serves.filter fun g => g.die != d } }
  | some .die =>
    let s1 := if s.felt.dead.contains d then s else agentDead d s
    { s1 with links := { s1.links with routes := s1.links.routes.filter fun e => e.1 / 4096 / 6 != d } }
  | some .tile =>
    let t := tileSt s d (pageUnit p)
    let s1 := forgetRaw d (pageUnit p) (fun _ => true) (setTile d (pageUnit p) { t with
      task := none, issued := none, resident := [], barTile := [], replays := [], parkHeld := [], sb := [] } s)
    match t.task with
    | some k => dispSync (maybeFinish k.ring k.no s1)
    | none => s1
  | _ => s

/-! ### FORCE_OFF and RESET -/

/-- The pages whose GEN rises (R78, R135, R856): those covered, and all of every tile met, or whose task is in the set of
a task met. -/
def gensOf (s : State) (pages : List Nat) : List Nat :=
  let tiles := (pages.filter inTile).flatMap fun p => (pageUnit p :: setOf s (pageDie p) (pageUnit p)).map fun u => pTile (pageDie p) u
  dedupNat (pages ++ (dedupNat tiles).flatMap fun q => (List.range 11).map fun b => q + b)

/-- Abort the accepted work of every covered unit; the commands that lose work there complete with `st` (R680). -/
def abortUnder (st : Nat × Nat) (pages : List Nat) (unreadable : List (Nat × Nat)) (s : State) : State :=
  let leaves := pages.filter isLeaf
  let tiles := dedupNat ((pages.filter inTile).flatMap fun p =>
    (pageUnit p :: setOf s (pageDie p) (pageUnit p)).map fun u => pTile (pageDie p) u)
  let cmds := (leaves.filter fun p => !inTile p).flatMap (unitCmds s) ++ tiles.flatMap fun q => tileWork s (pageDie q) (pageUnit q)
  let s1 := (gensOf s pages).foldl (fun t p => bumpGen p t) s
  let s2 := tiles.foldl (fun t q => abortTiles (pageDie q) [pageUnit q] t) s1
  let s3 := leaves.foldl (abortLeaf st unreadable) s2
  dispSync (cmds.foldl (lostWork st) s3)

/-- The pages of a write that FORCE_OFF or RESET acts on: not the dispatchers, which R675 handles; a RESET leaves hub
units 2 to 10 alone. -/
def resetPages (s : State) (p : Nat) (isReset : Bool) : List Nat :=
  (liveUnder 5 s p).filter fun q => !isDsp q && !(isReset && isHubUnit q)

/-- A leaf of a FORCE_OFF enters OFF, unless it is FAULTED (R78) or a segment still resetting (R346). -/
def forceLeaf (own : Nat) (drain : Bool) (s : State) (p : Nat) : State :=
  let s0 := setUnit p { unitSt s p with enable := false, drain := drain } s
  match pageKind p with
  | some .segment =>
    (match logicalSeg s0 (pageDie p) (pageUnit p - 20) with
     | some g => if (unitSt s p).state = .faulted then setSegSt g { segSt s0 g with stay := true } s0 else s0
     | none => s0)
  | some .port =>
    let s1 := if (unitSt s p).state = .faulted then s0 else setUState p .off (p == own) s0
    let k := 6 * pageDie p + (pageUnit p - 36)
    portFollow k (portForced k s1)
  | _ => if (unitSt s p).state = .faulted then s0 else setUState p .off (p == own) s0

/-- A leaf of a RESET enters OFF with ENABLE and DRAIN 0, but a segment only at the end of R346. -/
def resetLeaf (own : Nat) (s : State) (p : Nat) : State :=
  let s0 := setUnit p { unitSt s p with enable := false, drain := false } s
  match pageKind p with
  | some .segment => clearRegs s0 p
  | some .port =>
    let k := 6 * pageDie p + (pageUnit p - 36)
    let s1 := portFollow k (setUState p .off (p == own) s0)
    clearLeaf (clearRegs s1 p) p
  | _ => clearLeaf (clearRegs (setUState p .off (p == own) s0) p) p

/-- The dispatchers a FORCE_OFF or RESET covers (R675): the one in service starts a failover; the other one is reset. -/
def dspReset (p : Nat) (isReset : Bool) (s : State) : State :=
  let l := pagesUnder 5 p
  let other := pOther s
  let s1 := if isReset ∧ l.contains other ∧ (unitSt s other).state ≠ .retired then
      setUState other .off false (bumpGen other (setUnit other { unitSt s other with enable := false, drain := false } s))
    else s
  if l.contains (pDsp s) then startFailover s1 else s1

/-- The walks in flight at walkers that are no longer ACTIVE go to the next die's (R452). -/
def rewalkOff (s : State) (p : Nat) : State :=
  if pageKind p = some .walkers ∧ (unitSt s p).state ≠ .active then
    (s.xlate.walks.filter fun w => w.die == pageDie p).foldl (fun t w => rewalk w t) s
  else s

/-- FORCE_OFF of a page (R76 to R78, R675). -/
def unitForceOff (p : Nat) (drain : Bool) (unreadable : List (Nat × Nat)) (s : State) : State :=
  let pages := resetPages s p false
  let s1 := abortUnder (0x30, 0x03) pages unreadable s
  let s2 := pages.foldl rewalkOff ((pages.filter isLeaf).foldl (forceLeaf p drain) s1)
  commitFollow (dspReset p false s2)

/-- RESET of a page (R74, R76, R673, R675); RESET of the DEV page is a device reset. -/
def unitReset (p : Nat) (unreadable : List (Nat × Nat)) (s : State) : State :=
  if p = pDev then deviceResetReq 2 unreadable s
  else
    let pages := resetPages s p true
    let s1 := abortUnder (0x30, 0x03) pages unreadable s
    let s2 := pages.foldl rewalkOff ((pages.filter isLeaf).foldl (resetLeaf p) s1)
    let s3 := (pages.filter fun q => !isLeaf q).foldl (fun t q =>
      clearGroup (clearRegs (setUnit q { unitSt t q with enable := false, drain := false } t) q) q) s2
    commitFollow (dspReset p true s3)

/-! ### ENABLE and DRAIN (R76) -/

/-- The state a unit takes as its ENABLE and DRAIN bits go to the values given. -/
def ctrlState (u : UnitSt) (enable drain : Bool) : UState :=
  match u.state with
  | .off => if enable && !u.enable then (if drain then .draining else .active) else .off
  | .active => if (u.enable && !enable) || (!u.drain && drain) then .draining else .active
  | .draining =>
    if (enable && !u.enable && !drain) || (u.drain && !drain && enable) then .active else .draining
  | x => x

/-- One leaf takes ENABLE and DRAIN; a port follows its unit (R543). -/
def ctrlLeaf (own : Nat) (enable drain : Bool) (s : State) (p : Nat) : State :=
  let u := unitSt s p
  let s1 := setUState p (ctrlState u enable drain) (p == own) (setUnit p { u with enable := enable, drain := drain } s)
  if pageKind p = some .port then portFollow (6 * pageDie p + (pageUnit p - 36)) s1 else s1

/-- ENABLE and DRAIN of a page and everything under it. -/
def unitBits (p : Nat) (enable drain : Bool) (s : State) : State :=
  let s1 := (liveUnder 5 s p).foldl (fun t q =>
    if isLeaf q then ctrlLeaf p enable drain t q else setUnit q { unitSt t q with enable := enable, drain := drain } t) s
  commitFollow (dispSync s1)

/-- A write of UNIT_CTRL to a page that honours it (R73 to R78): in HOLD it is applied at resumption. -/
def ctrlWriteU (p : Nat) (w : Word) (unreadable : List (Nat × Nat)) (s : State) : State :=
  if !(match pageKind p with | some k => k.honoursCtrl | none => false) then s
  else if s.inHold then
    { s with power := { s.power with hold := { s.power.hold with
        writes := s.power.hold.writes ++ [(64, p * 4096 + 8, BitVec.ofNat 64 w.toNat, false)] } } }
  else if bitOf w 3 then unitReset p unreadable s
  else if bitOf w 2 then unitForceOff p (bitOf w 1) unreadable s
  else unitBits p (bitOf w 0) (bitOf w 1) s

/-- A write of UNIT_CTRL whose segments find every sector readable. -/
def ctrlWrite (p : Nat) (w : Word) (s : State) : State := ctrlWriteU p w [] s

/-- UNIT_CTRL as a page reads it: ENABLE and DRAIN. -/
def ctrlWord (s : State) (p : Nat) : Word := BitVec.ofNat 32 (b2n (unitSt s p).enable + 2 * b2n (unitSt s p).drain)

/-- ENABLE: a write that sets ENABLE and leaves DRAIN as it reads; with FORCE_OFF the unit enters OFF (R77). -/
def execEnable (page : Nat) (on forceOff : Bool) (s : State) : Res :=
  .next (ctrlWrite page (setFld (setFld (ctrlWord s page) 0 0 (b2n on)) 2 2 (b2n forceOff)) s)

/-- DRAIN: a write that sets DRAIN and leaves ENABLE as it reads. -/
def execDrain (page : Nat) (on : Bool) (s : State) : Res := .next (ctrlWrite page (setFld (ctrlWord s page) 1 1 (b2n on)) s)

def execForceOff (page : Nat) (enable drain : Bool) (unreadable : List (Nat × Nat)) (s : State) : Res :=
  .next (ctrlWriteU page (BitVec.ofNat 32 (b2n enable + 2 * b2n drain + 4)) unreadable s)

def execReset (page : Nat) (forceOff : Bool) (unreadable : List (Nat × Nat)) (s : State) : Res :=
  .next (ctrlWriteU page (BitVec.ofNat 32 (4 * b2n forceOff + 8)) unreadable s)

/-- ACCEPTED_WORK_FINISHED (R76): a draining unit with ENABLE = 0 has finished what it had accepted. -/
def workFinished (p : Nat) (s : State) : State :=
  let u := unitSt s p
  if s.inHold ∨ !isLeaf p ∨ u.state ≠ .draining ∨ u.enable ∨ leafBusy s p then s
  else
    let s1 := setUState p .off false s
    commitFollow (if pageKind p = some .port then portFollow (6 * pageDie p + (pageUnit p - 36)) s1 else s1)

def execAcceptedWorkFinished (page : Nat) (s : State) : Res := .next (workFinished page s)

end Sys2Proof.Machine
end

