-- ==== Sys2Proof/Machine/Recovery.lean ====
section
/-! DEFINITION. Faults of shared units, recovery and Pounce (15_recovery.md R672, R684, R696 to R709; rows UNIT_FAULT,
RECOVERY_END, TEARDOWN_TIMEOUT, SPARE_TEST to TILE_SUBSTITUTION). -/

namespace Sys2Proof.Machine

/-! ### A unit faults (R76, R672, R695 to R698) -/

/-- POLICY.CONTAIN in force: whether recoveries run under ORDER_FIRST (R655, R663). -/
def orderFirst (s : State) : Bool := bitOf (sget regReset s.committed (regKey 0 pPolicy 0x100)) 0

/-- The error record of a unit's internal fault, with the context of the oldest work it held (R672). -/
def faultRec (s : State) (p cls dt : Nat) : ErrRec :=
  match (unitCmds s p).filterMap fun c => findCmd s c.1 c.2 with
  | c :: _ => cmdErr s c p cls dt
  | [] => { cls := cls, detail := dt, gen := (unitSt s p).gen.toNat, srcDie := pageDie p, srcUnit := pageUnit p, srcLogical := 0x3F }

/-- Add slices to WD_REC_SLICES and, under SLICE_FIRST, contain those not yet contained (R697 step 1). -/
def addSlices (l : List Nat) (s : State) : State :=
  let old := rd64 s pWatchdog 0x140
  let s1 := wr64 pWatchdog 0x140 (l.foldl (fun m x => if nbit m x then m else m + 2 ^ x) old) s
  if s1.recov.order then s1
  else l.foldl (fun t x => if (sliceSt t x).contained then t else containSlice t x) s1

/-- A tile in FAULTED loses its task, with the tasks of its set, and its pinned residency (R700, R707). -/
def tileLose (d u : Nat) (s : State) : State :=
  let us := if setOf s d u = [] then [u] else setOf s d u
  let cmds := us.flatMap (tileWork s d)
  let s1 := us.foldl (fun t x => bumpTileGen d x t) (abortTiles d us s)
  let t := tileSt s1 d u
  let s2 := forgetRaw d u (fun _ => true)
    (setTile d u { t with task := none, issued := none, resident := [], barTile := [], replays := [], parkHeld := [], sb := [] } s1)
  let s3 : State := { s2 with disp := { s2.disp with resid := serase (12 * d + logicalTile s2 d u) s2.disp.resid } }
  dispSync (cmds.foldl (lostWork (0x21, 0x10)) s3)

/-- A recovery begins, or a second fault joins the one in progress (R696, R703). -/
def beginRecovery (p : Nat) (slices : List Nat) (s : State) : State :=
  let begun := s.recov.running
  let order := if begun then s.recov.order else orderFirst s
  let seg := match pageKind p with | some .segment => (logicalSeg s (pageDie p) (pageUnit p - 20)).toList | _ => []
  let s1 : State := { s with recov := { s.recov with
    faulty := setAdd p s.recov.faulty, running := true, order := order, segs := seg ++ s.recov.segs } }
  let s2 := if begun then s1
    else
      let w := BitVec.ofNat 32 (pageDie p + 16 * pageUnit p + 0x400 * pageBlock p + 0x10000)
      hatTrigger 1 (event pPolicy 0 (wr pWatchdog 0x148 w (wr64 pWatchdog 0x140 0 s1)))
  let s3 := if order then { s2 with disp := { s2.disp with paused := true } } else s2
  let s4 := addSlices slices s3
  dispSync (if inTile p then tileLose (pageDie p) (pageUnit p) s4 else s4)

/-- What follows from a unit in FAULTED by its kind (R342, R452, R543, R692, R695, R696). -/
def afterFault (p : Nat) (slices : List Nat) (s : State) : State :=
  if isHubUnit p then deviceFault s
  else if p = pDsp s then startFailover s
  else if p = pOther s then s
  else
    let s1 := match pageKind p with
      | some .port => portFollow (6 * pageDie p + (pageUnit p - 36)) s
      | some .walkers => rewalkOff (abortLeaf (0, 0) [] s p) p
      | some .ucie | some .chiplet => if s.felt.dead.contains (pageDie p) then s else agentDead (pageDie p) s
      | _ => s
    commitFollow (beginRecovery p slices s1)

/-- UNIT_FAULT (R76): a leaf unit detects an uncontained internal fault; in HOLD it is FAULTED at resumption. -/
def unitFault (p cls dt : Nat) (s : State) : State :=
  if !isLeaf p ∨ !(match pageKind p with | some k => k.honoursCtrl | none => false) ∨ !counted s p then s
  else if s.inHold then
    { s with power := { s.power with hold := { s.power.hold with faults := s.power.hold.faults ++ [(p, cls, dt)] } } }
  else
    let slices := unitSlices s p
    if (unitSt s p).state = .faulted ∧ s.recov.faulty.contains p then captureErr p (faultRec s p cls dt) s
    else afterFault p slices (setUState p .faulted false (captureErr p (faultRec s p cls dt) s))

def execUnitFault (page cls detail : Nat) (s : State) : Res := .next (unitFault page cls detail s)

/-! ### Recovery ends (R697 step 4, R698 steps 4 to 7, R700) -/

/-- The status a command takes for what a recovery lost (R700): a write that became P at a segment that took part, or a
contribution lost with its round. -/
def lostStatus (s : State) (c : Cmd) : Option (Nat × Nat) :=
  if s.recov.segs.any fun g => (segSt s g).marked && c.homes.contains g then some (0x20, 0x12)
  else if s.recov.segs.any fun g => (segSt s g).lost.contains (c.ring, c.no) then some (0x20, 0x13)
  else none

/-- Under ORDER_FIRST, incomplete commands take the status of what was lost; `lost` are the messages that cannot be
resumed on a faulting engine. -/
def attributeLost (lost : List Nat) (s : State) : State :=
  let s1 := (s.disp.cmds.filter fun c => c.status.isNone).foldl (fun t c =>
    match lostStatus s c with
    | some st => lostWork st t (c.ring, c.no)
    | none => t) s
  let gone := s1.xfer.msgs.filter fun m => lost.contains m.id
  let s2 := dropMsgs (fun m => lost.contains m.id) (dropMsgHolds (fun m => lost.contains m.id) s1)
  gone.foldl (fun t m =>
    match m.plan with
    | some x => planStepDone (x.1 * 16 + x.2.1) x.2.2 (some (0x21, 0x11)) t
    | none => lostWork (0x21, 0x11) t (m.ring, m.no)) s2

/-- RECOVERY_END: every unit is back in service; dispatch resumes and RECOVERING is cleared. -/
def recoveryEnd (lost : List Nat) (s : State) : State :=
  if !s.recov.running ∨ s.recov.faulty ≠ [] ∨ s.inHold ∨ devFault s then s
  else
    let s1 := if s.recov.order then attributeLost lost s else s
    let s2 := s1.recov.segs.foldl (fun t g => setSegSt g { segSt t g with marked := false, lost := [], lostOf := [] } t) s1
    let s3 : State := { s2 with
      recov := { s2.recov with running := false, order := false, segs := [] }
      disp := { s2.disp with paused := false } }
    dispSync (addProg pPolicy 0 1 (event pPolicy 1 s3))

def execRecoveryEnd (lost : List Nat) (s : State) : Res := .next (recoveryEnd lost s)

/-- TEARDOWN_TIMEOUT (R684): a tile that has not ended an aborted task within 1 ms is reset as a tile domain. -/
def execTeardownTimeout (die unit : Nat) (s : State) : Res :=
  match (tileSt s die unit).task with
  | some k => if s.inHold ∨ !k.aborted ∨ s.now < k.abortAt + 1000000 then .next s else .next (unitReset (pTile die unit) [] s)
  | none => .next s

/-! ### Pounce (R704 to R709) -/

/-- Whether Pounce runs (R704, R709, R718): enabled, not in HOLD nor outside RUN, not in an ORDER_FIRST recovery. -/
def pounceRuns (s : State) : Bool :=
  bitOf (rd s pWatchdog 0x160) 16 && !s.inHold && !(s.recov.running && s.recov.order) && phase s == 5

/-- A unit enters RETIRED, with its entry in the wear record (R710). -/
def retire (p : Nat) (s : State) : State :=
  setUState p .retired false (wearWrite 11 (pageDie p) (pageUnit p) 0 0x3F 0 s)

/-- The SPARE tiles of a cluster, and the spare segments of a die. -/
def spareTiles (s : State) (d c : Nat) : List Nat :=
  ((List.range 5).map fun t => 5 * c + t).filter fun u => decide ((unitSt s (pTile d u)).state = .spare)
def spareSegs (s : State) (d : Nat) : List Nat := (List.range 13).filter fun n => decide ((unitSt s (pSegment d n)).state = .spare)

/-- SPARES_OUT of the WATCHDOG page when a group has no spare left (R708). -/
def sparesOut (left : List Nat) (s : State) : State := if left = [] then event pWatchdog 5 s else s

/-- New calibration values (free) for DIST entries; VALID and the other bits stay (R49, R53). -/
def recalibrate (ix : List Nat) (s : State) : State :=
  let ch := ix.zipIdx.map fun e =>
    let w := sget (fun _ => (0 : Word)) s.org.dist e.1
    (e.1, BitVec.ofNat 32 (w.toNat / 0x1000000 * 0x1000000 + (Config.freeValue (s.freeCtr + e.2)).toNat % 0x1000000))
  distUpdate ch (tickFree ix.length s)

/-- A unit is back in service after a recovery. -/
def recovered (p : Nat) (s : State) : State := { s with recov := { s.recov with faulty := setDel p s.recov.faulty } }

/-- A unit enters ACTIVE with ENABLE = 1. -/
def activate (p : Nat) (s : State) : State :=
  setUState p .active false (setUnit p { unitSt s p with enable := true, drain := false } s)

/-- A segment that failed its test is retired; the die's spare takes its logical ID and starts empty, or the device
faults (R707, R708). -/
def replaceSegment (d n seg : Nat) (s : State) : State :=
  match spareSegs s d with
  | [] => deviceFault (retire (pSegment d n) s)
  | t :: rest =>
    let s1 := wearWrite 2 d (20 + n) (20 + t) (seg % 12) 0 s
    let s2 : State := { s1 with org := { s1.org with bindSeg := sput (fun k => k % 12) s1.org.bindSeg seg t } }
    let s3 := activate (pSegment d t) (setUState (pSegment d n) .retired false s2)
    sparesOut rest (pounceDone true (recalibrate ((List.range 96).map fun k => k * 160 + seg) s3))

/-- Chunks of a copy engine that are not acknowledged are due to be sent again (R698 step 6, R599). -/
def resendDue (q : Nat) (s : State) : State :=
  { s with xfer := { s.xfer with tx := s.xfer.tx.map fun e =>
      if e.1 / 4096 = q then (e.1, { e.2 with chunks := e.2.chunks.map fun c => { c with busyAt := some s.now } }) else e } }

/-- A unit that is no tile and no segment is reset by its recovery, and tested. -/
def testReset (p : Nat) (ok : Bool) (s : State) : State :=
  let s1 := clearLeaf (clearRegs (bumpGen p s) p) p
  let cmds := unitCmds s1 p
  let s2 := if ok then activate p s1
    else cmds.foldl (lostWork (0x30, 0x06)) (retire p (abortLeaf (0x30, 0x06) [] s1 p))
  let s3 := match pageKind p with
    | some .port => portFollow (6 * pageDie p + (pageUnit p - 36)) s2
    | some .copyEngine => resendDue (8 * (pageBlock p - 1) + pageDie p) s2
    | _ => s2
  dispSync (recovered p s3)

/-- A segment whose reset has ended is tested; slices whose lines it marked P are affected too (R654, R697, R707). -/
def testSegment (p : Nat) (ok : Bool) (s : State) : State :=
  let d := pageDie p
  let n := pageUnit p - 20
  match logicalSeg s d n with
  | none => s
  | some g =>
    if (segSt s g).resetting ∨ (unitSt s p).state ≠ .off then s
    else
      let s1 := addSlices (dedupNat (segSt s g).lostOf) s
      recovered p (if ok then activate p s1 else replaceSegment d n g s1)

/-- SPARE_TEST (R697 step 3, R704, R707): Pounce tests a unit of a recovery, or a spare tile or segment; a spare that fails
is retired. -/
def spareTest (p : Nat) (ok : Bool) (s : State) : State :=
  if s.inHold ∨ devFault s then s
  else if s.recov.faulty.contains p then
    (if inTile p then s else if pageKind p = some .segment then testSegment p ok s
     else if (unitSt s p).state = .faulted ∨ (unitSt s p).state = .off then commitFollow (testReset p ok s) else s)
  else if (unitSt s p).state ≠ .spare ∨ isDsp p ∨ !pounceRuns s ∨ ok then s
  else
    let s1 := retire p s
    if pageKind p = some .tile then sparesOut (spareTiles s1 (pageDie p) (pageUnit p / 5)) s1
    else sparesOut (spareSegs s1 (pageDie p)) s1

def execSpareTest (page : Nat) (ok : Bool) (s : State) : Res := .next (spareTest page ok s)

/-- PATH_TEST (R694, R704): Pounce tests the dispatcher that is not in service, and spare wavelengths; `inner` are the
(source, destination, wavelength) of inner paths and `link` the (port, wavelength) that failed. -/
def execPathTest (standbyOk : Bool) (inner : List (Nat × Nat × Nat)) (link : List (Nat × Nat)) (s : State) : Res :=
  if !pounceRuns s then .next s
  else
    let s1 := standbyTest standbyOk s
    let s2 := inner.foldl (fun t x => innerWlFail x.1 x.2.1 x.2.2 t) s1
    .next (link.foldl (fun t x => if x.1 < 48 then wlFails x.1 true x.2 t else t) s2)

/-- Where a kind of unit has its CE_THRESH register (R154, R351, R424, R429). -/
def ceThresh (p : Nat) : Option Nat :=
  match pageKind p with
  | some .tstore | some .lpddrc => some 0x114
  | some .segment => some 0x11C
  | some .sdramc => some 0x118
  | _ => none

/-- Whether a spare row was fitted to a page's array within the last 24 h (R705). -/
def fittedLately (s : State) (p : Nat) : Bool :=
  match slook s.recov.fitted p with
  | some t => decide (s.now < t + 86400000000000)
  | none => false

/-- CE_RATE_EVAL (R154, R405, R704, R705): `rate` corrected errors in the last hour meet the page's CE_THRESH; `left` says
whether its array has spare rows or columns. Then a row is due, or the tile is to be substituted. -/
def ceRateEval (p rate : Nat) (left : Bool) (s : State) : State :=
  match ceThresh p with
  | none => s
  | some off =>
    if !pounceRuns s ∨ rate < (rd s p off).toNat then s
    else
      let s1 := event p 1 s
      if wearFull s1 ∨ !(pageKind p == some .tstore || pageKind p == some .segment) then s1
      else if left ∧ !fittedLately s1 p then { s1 with recov := { s1.recov with due := setAdd p s1.recov.due } }
      else if pageKind p = some .tstore then
        let lt := logicalTile s1 (pageDie p) (pageUnit p)
        if lt < 12 then { s1 with disp := { s1.disp with leaving := setAdd (12 * pageDie p + lt) s1.disp.leaving } } else s1
      else s1

def execCeRateEval (page rate : Nat) (left : Bool) (s : State) : Res := .next (ceRateEval page rate left s)

/-- ARRAY_SCRUB (R120, R340, R341, R704): the next word of an array is found corrected or uncorrectable. `loc` is the 64 B
word of a tile store, or the line of a segment, whose `sector` is meant. -/
def arrayScrub (p loc sector : Nat) (ce ue : Bool) (s : State) : State :=
  if !pounceRuns s then s
  else
    match pageKind p with
    | some .tstore =>
      let d := pageDie p
      let u := pageUnit p
      let s1 := if ce then satInc p 0x104 1 s else s
      if ue ∧ loc < 0x20000 then
        let w := BitVec.ofNat 32 (loc + 0x80000000)
        event p 0 (wr p 0x110 w (satInc p 0x108 1 (setTile d u ((tileSt s1 d u).poison (64 * loc) 64) s1)))
      else s1
    | some .segment =>
      let s1 := if ce then satInc p 0x114 1 s else s
      (match logicalSeg s1 (pageDie p) (pageUnit p - 20) with
       | some g =>
         if ue ∧ sector < 4 ∧ (home s1 g loc).sector sector ≠ .i then markPoison g loc [sector] 0x01 0 (event p 0 (satInc p 0x118 1 s1))
         else s1
       | none => s1)
    | _ => s

def execArrayScrub (page loc sector : Nat) (ce ue : Bool) (s : State) : Res := .next (arrayScrub page loc sector ce ue s)

/-- SPARE_ROW_FIT (R154, R705, R710, R718): Pounce fits a spare row, or a spare column, to an array that is due. -/
def spareRowFit (p loc : Nat) (column : Bool) (s : State) : State :=
  if !pounceRuns s ∨ !s.recov.due.contains p ∨ wearFull s then s
  else
    let s1 := wearWrite 9 (pageDie p) (pageUnit p) 0 0x3F loc s
    let s2 : State := { s1 with recov := { s1.recov with due := setDel p s1.recov.due, fitted := sadd s1.recov.fitted p s1.now } }
    let w := rd s2 p 0x10C
    let s3 := if pageKind p = some .tstore then
        event p 2 (wr p 0x10C (if column then setFld w 23 16 (fld w 23 16 + 1) else setFld w 7 0 (fld w 7 0 + 1)) s2)
      else s2
    pounceDone false s3

def execSpareRowFit (page loc : Nat) (column : Bool) (s : State) : Res := .next (spareRowFit page loc column s)

/-- A logical tile is bound to a spare of its cluster; the old tile is retired (R706 step 3). -/
def bindTile (d u v lt : Nat) (rest : List Nat) (s : State) : State :=
  let s1 := wearWrite 1 d u v lt 0 s
  let s2 : State := { s1 with org := { s1.org with bindTile := sput (fun _ => 0) s1.org.bindTile (12 * d + lt) (v + 1) } }
  let s3 := setUState (pTile d v) .active false (setUState (pTile d u) .retired false s2)
  let s4 := (List.range 10).foldl (fun t b => activate (pTile d v + 1 + b) t) s3
  sparesOut rest (pounceDone true (recalibrate ((List.range 160).map fun k => (12 * d + lt) * 160 + k) s4))

/-- A logical tile without a spare leaves service: its DIST entries are not VALID (R708). -/
def loseTile (d u lt : Nat) (s : State) : State :=
  let s1 := retire (pTile d u) s
  let s2 : State := { s1 with org := { s1.org with bindTile := sput (fun _ => 0) s1.org.bindTile (12 * d + lt) 0 } }
  distUpdate ((List.range 160).map fun k =>
    let i := (12 * d + lt) * 160 + k
    (i, setFld (sget (fun _ => (0 : Word)) s2.org.dist i) 31 31 0)) s2

/-- TILE_SUBSTITUTION (R706 to R708): a tile that leaves, once its last task is done and its residency spilled, or a tile
in FAULTED, at once. -/
def tileSubstitution (d u : Nat) (s : State) : State :=
  let lt := logicalTile s d u
  let k := 12 * d + lt
  let faulted := decide (pageState s (pTile d u) = .faulted)
  if 8 ≤ d ∨ 15 ≤ u ∨ 12 ≤ lt ∨ s.inHold ∨ devFault s ∨ (!faulted ∧ (!pounceRuns s ∨ !s.disp.leaving.contains k))
      ∨ tileBusy s k ∨ (slook s.disp.resid k).isSome ∨ wearFull s then s
  else
    let s1 := match spareTiles s d (u / 5) with
      | v :: rest => bindTile d u v lt rest s
      | [] => loseTile d u lt s
    let s2 : State := { s1 with
      recov := { s1.recov with faulty := s1.recov.faulty.filter fun p => !(pageDie p == d && pageUnit p == u) }
      disp := { s1.disp with leaving := setDel k s1.disp.leaving } }
    commitFollow (dispSync s2)

def execTileSubstitution (die unit : Nat) (s : State) : Res := .next (tileSubstitution die unit s)

end Sys2Proof.Machine
end

