-- ==== Sys2Proof/Machine/HostAcc.lean ====
section
/-! DEFINITION. What the host does to device memory: BAR4, CXL.mem and FLR (14_slices.md R641, 17_firmware.md R786,
18_interfaces.md R817 to R821; rows BAR4_ACCESS, CXL_MEM_ACCESS, FLR; BIRSP stands with the snoops). -/

namespace Sys2Proof.Machine

/-- The physical address of a DPA (R817). -/
def dpaMap (s : State) (o : Nat) : Option Nat :=
  if o < 0x4000000000 then some o
  else if s.org.variant = 1 then
    (if o < 0x8000000000 then some (0x10000000000 + (o - 0x4000000000) / 0x800000000 * 0x1000000000 + o % 0x800000000) else none)
  else if o < 0xC000000000 then some (0x10000000000 + (o - 0x4000000000))
  else none

/-- Whether the host's access of a physical address is homed INTERLEAVED: the spec gives it no leaf, so the home is the
one that already holds the line LOCAL, else the INTERLEAVED one (DEDUCED from R46 and R303, assumption log 31). -/
def hostIl (s : State) (pa : Nat) : Bool :=
  let h := home s (homeSeg pa false) (pa / 1024)
  h.dir.isNone && h.trans.isNone && h.sect.all fun x => decide (x = .i)

/-- The answer to a host read. -/
def answerHost (r : HostReq) (data : List Byte) (poison : Bool) (s : State) : State :=
  match r.write with
  | some _ => s
  | none => emit (.hostRead r.fn r.off data poison) s

/-- All ones of a read's length. -/
def allOnes (n : Nat) : List Byte := List.replicate n 0xFF

/-- A host access is refused (R641, R818): counted, recorded with class 0x10; a write is dropped. -/
def refuseHost (r : HostReq) (detail addr : Nat) (phys : Bool) (data : List Byte) (poison : Bool) (s : State) : State :=
  let e : ErrRec := { cls := 0x10, detail := detail, addr := addr, phys := phys, addrValid := true, srcDie := 8, srcUnit := 2
                      gen := (unitSt s pHostif).gen.toNat, srcLogical := 0x3F }
  answerHost r data poison (captureErr pHostif e (satInc pHostif 0x104 1 s))

/-- A refusal under R818: its detail is not given, so it is a free value. -/
def refuseDpa (r : HostReq) (poison : Bool) (s : State) : State :=
  let dt := (freeVal s).toNat % 256
  let s1 := event pHostif 5 (tickFree 1 s)
  if poison then refuseHost r dt r.off true (cohBytes s1 (hostIl s1 r.off) r.off r.len) true s1
  else refuseHost r dt r.off true (allOnes r.len) false s1

/-- Agent 8 becomes a sharer, or the owner, of a line the host may then hold (R821). -/
def hostKeeps (line keep : Nat) (il : Bool) (s : State) : State :=
  let seg := homeSeg (line * 1024) il
  let owned := (home s seg line).owner.isSome
  let s1 := fetchInto seg line [0, 1, 2, 3] (if keep = 2 ∨ owned then recallLine seg line s else s)
  let h := home s1 seg line
  let dir := if keep = 2 then some { mode := .owned, ptrs := [some 8, none, none] : DirEntry } else some (addSharer 8 0 h.dir)
  let c : AgLine := {
    st := if keep = 2 then .e else .s
    data := putCells ((List.range 1024).map fun o => (o, h.byte o)) [], poison := h.sectorsIn .p, seg := seg }
  let s2 := setCopy 8 line c (setHome seg line { h with dir := dir } s1)
  { s2 with host := { s2.host with lines := sadd s2.host.lines line (if keep = 2 then 2 else 1) } }

/-- What the host itself holds of a line is given up as it writes the line back (R821). -/
def hostReturns (line : Nat) (s : State) : State :=
  if (slook s.host.lines line).isSome then
    dropCopy 8 line { s with host := { s.host with lines := serase line s.host.lines } }
  else s

/-- A host read or write of device memory at its home (R384, R817, R819, R821). -/
def hostData (r : HostReq) (pa : Nat) (s : State) : State :=
  let il := hostIl s pa
  let n := match r.write with | some bs => bs.length | none => r.len
  let s0 := addProg pHostif 1 n (addProg pHostif 0 1 s)
  match r.write with
  | some bs => cohWrite il none pa bs ((linesOf pa n).foldl (fun t l => hostReturns l t) s0)
  | none =>
    let bad := cohPoisonN s0 il pa n
    let s1 := touch il none pa n (answerHost r (cohBytes s0 il pa n) bad s0)
    if r.fn.isNone ∧ r.keep ≠ 0 then hostKeeps (pa / 1024) r.keep il s1 else s1

/-- Whether a host access meets an open transaction at its home, where it waits. -/
def hostWaits (s : State) (r : HostReq) (pa : Nat) : Bool :=
  let il := hostIl s pa
  let n := match r.write with | some bs => bs.length | none => r.len
  (linesOf pa n).any fun l => (home s (homeSeg (l * 1024) il) l).trans.isSome || (segSt s (homeSeg (l * 1024) il)).resetting

/-- An access by DPA, through the PF's BAR4 or CXL.mem (R817, R818). -/
def dpaAccess (r : HostReq) (s : State) : State :=
  match dpaMap s r.off with
  | none => refuseDpa r false s
  | some pa =>
    if !backed s pa then refuseDpa r false s
    else if inReserved pa ∧ r.write.isSome then refuseDpa r false s
    else if inReserved pa ∧ r.fn.isNone then refuseDpa r true s
    else if hostWaits s r pa then s
    else hostData r pa s

/-- An access of a VF's BAR4: virtual address in FN_BAR4_PASID (R641); a page being moved makes it wait (R462). -/
def vfAccess (fn : Nat) (r : HostReq) (s : State) : State :=
  let w := stg s pHostif fn pProt 0x120
  let pasid := fld w 19 0
  let n := match r.write with | some bs => bs.length | none => r.len
  if !bitOf w 20 ∨ !pasidOfFn s pHostif fn pasid then
    refuseHost r (freeVal s).toNat r.off false (allOnes r.len) false (tickFree 1 s)
  else
    let slice := (((bindingsAt s pHostif).find? fun b => b.pasid == pasid).map fun b => b.slice).getD 0
    let c : ErrRec := { ctxValid := true, pasid := pasid, slice := slice, srcDie := 8, srcUnit := 2, srcLogical := 0x3F }
    match xlateRange c pDispatch pasid r.off n (if r.write.isSome then .write else .read) s with
    | .migrating _ _ => s
    | .fault _ dt va s1 => refuseHost r dt va false (allOnes r.len) false s1
    | .ok l s1 =>
      let s2 := addProg pHostif 1 n (addProg pHostif 0 1 s1)
      match r.write with
      | some bs => writePieces slice l bs s2
      | none => readTouch (some slice) l (answerHost r (readPieces s2 l) (piecesPoison s2 l) s2)

/-- Whether the boot window is open (R786, R790). -/
def windowOpen (s : State) : Bool :=
  phase s == 2 || (phase s == 6 && (let c := fld (rd s pBoot 0x100) 15 8; (decide (0x10 ≤ c) && decide (c ≤ 0x15)) || c == 0x21))

/-- What a byte of the image SRAM that nothing has written reads as (assumption log 4). -/
def imageDefault : Nat → Byte := fun _ => 0

/-- A byte of the image SRAM. -/
def imageByte (s : State) (a : Nat) : Byte := sget imageDefault s.boot.image a

/-- Write bytes into the image SRAM. -/
def imageWrite (a : Nat) : List Byte → State → State
  | [], s => s
  | b :: t, s => imageWrite (a + 1) t { s with boot := { s.boot with image := sput imageDefault s.boot.image a b } }

/-- BAR4 before RUN (R786): the boot window while it is open; other writes are dropped and counted, other reads all ones. -/
def bar4Boot (r : HostReq) (s : State) : State :=
  let n := match r.write with | some bs => bs.length | none => r.len
  let inWin := decide (r.fn = some 0) && windowOpen s && decide (r.off + n ≤ 0x400000)
  match r.write with
  | some bs => if inWin then imageWrite r.off bs s else satInc pBoot 0x114 1 s
  | none => answerHost r (if inWin then (List.range n).map fun i => imageByte s (r.off + i) else allOnes n) false s

/-- A host access of device memory, outside HOLD. -/
def hostServe (s : State) (r : HostReq) : State :=
  match r.fn with
  | some 0 => if phase s = 5 then dpaAccess r s else bar4Boot r s
  | some fn => if phase s = 5 then vfAccess fn r s else bar4Boot r s
  | none => if phase s = 5 then dpaAccess r s else s

/-- A host access; in HOLD it is held, up to 256 of them (R759). -/
def hostAccess (r : HostReq) (s : State) : State :=
  if s.inHold ∧ phase s = 5 then
    (if s.power.hold.host.length < 256 then
      { s with power := { s.power with hold := { s.power.hold with host := s.power.hold.host ++ [r] } } } else s)
  else hostServe s r

/-- BAR4_ACCESS: a function reads `len` bytes, or writes bytes, at an offset of its BAR4. -/
def execBar4Access (fn off len : Nat) (write : Option (List Byte)) (s : State) : Res :=
  if 64 ≤ fn then .next s else .next (hostAccess { fn := some fn, off := off, write := write, len := len } s)

/-- CXL_MEM_ACCESS: `keep` says whether a read lets the host keep the line: 0 no, 1 shared, 2 exclusive. -/
def execCxlMemAccess (dpa len keep : Nat) (write : Option (List Byte)) (s : State) : Res :=
  .next (hostAccess { off := dpa, write := write, len := len, keep := keep } s)

/-! ### FLR (R673, R779) -/

/-- FLR of a VF: every slice of the function is reset, and its copies of the INV registers and RING_SEL (R673). -/
def flrVf (fn : Nat) (s : State) : State :=
  let mine := (List.range 64).filter fun sl => sliceEnabled s pHostif sl && sliceFunc s pHostif sl == fn
  let s1 := mine.foldl (fun t sl => sliceDomainReset (0x30, 0x04) sl t) s
  { s1 with regs := s1.regs.filter fun e =>
      !(e.1 / 0x4000000 == fn && (decide (e.1 % 0x4000000 = regKey 0 pDspRings 0x108)
        || pageKind (e.1 % 0x4000000 / 0x1000) == some .walkers)) }

/-- FLR: of the PF a device reset, of a VF its slices; in HOLD it waits for resumption (R762). -/
def flr (fn : Nat) (unreadable : List (Nat × Nat)) (s : State) : State :=
  if fn = 0 then deviceResetReq 3 unreadable s
  else if 64 ≤ fn then s
  else if s.inHold then { s with power := { s.power with hold := { s.power.hold with flr := s.power.hold.flr ++ [fn] } } }
  else flrVf fn s

def execFlr (fn : Nat) (unreadable : List (Nat × Nat)) (s : State) : Res := .next (flr fn unreadable s)

end Sys2Proof.Machine
end

