-- ==== Sys2Proof/Machine/Blocker.lean ====
section
/-! DEFINITION. Blocker: clocks, caps, temperatures, phase models, energy, and faults of rails (16_power.md R727 to R754; rows
CLAMP105, GRADIENT_CHECK, BLOCKER_PERIOD, DROOP, THROTTLE_N, THROTTLE_STUCK, PHASE_MODEL_UPDATE, ENERGY_INTERVAL, BLK_CAP_WRITE,
SENSE_OPEN, RAIL_SHORT, VDIFF). -/

namespace Sys2Proof.Machine

/-! ### Temperatures (R732, R734) -/

/-- A sensor reading, two's complement in 8 bits, as a number offset by 128 °C: readings compare as their temperatures. -/
def degOf (b : Nat) : Nat := (b % 256 + 128) % 256

/-- A temperature in °C as `degOf` gives it. -/
def deg (c : Nat) : Nat := c + 128

/-- The hottest reading of a die; `none` where it has no reading (an empty site). -/
def hottest : List Nat → Option Nat
  | [] => none
  | b :: t => some (t.foldl (fun m x => max m (degOf x)) (degOf b))

/-- The hottest reading of die field `d`: compute dies 0 to 7, the hub 8, sites 9 and 10. -/
def dieDeg (s : State) (d : Nat) : Option Nat := hottest (s.power.temps.getD d [])

/-- Set the readings of one die. -/
def setSensors (d : Nat) (l : List Nat) (s : State) : State :=
  let t := (List.range 11).map fun i => if i = d then l else s.power.temps.getD i []
  { s with power := { s.power with temps := t } }

/-- The bounds of Blocker on a die. -/
def dieB (s : State) (d : Nat) : DieBounds := sget (fun _ => ({} : DieBounds)) s.power.bounds d

def setDieB (d : Nat) (b : DieBounds) (s : State) : State :=
  { s with power := { s.power with bounds := sput (fun _ => ({} : DieBounds)) s.power.bounds d b } }

/-- BLK_CFG.TJ_TARGET, 70 to 100 °C, and GRAD_WARN, 10 to 30 °C (R775). -/
def tjTarget (s : State) : Nat :=
  let v := fld (rd s pBlocker 0x108) 8 2
  if 70 ≤ v ∧ v ≤ 100 then v else 100
def gradWarn (s : State) : Nat :=
  let v := fld (rd s pBlocker 0x108) 13 9
  if 10 ≤ v ∧ v ≤ 30 then v else 25

/-- The readings of the dies that have any, with their die fields. -/
def allDeg (s : State) : List (Nat × Nat) := (List.range 11).filterMap fun d => (dieDeg s d).map fun t => (d, t)

/-- The spread between the hottest and the coolest die (R730, R732). -/
def spread (s : State) : Nat :=
  match allDeg s with
  | [] => 0
  | e :: t => t.foldl (fun m x => max m x.2) e.2 - t.foldl (fun m x => min m x.2) e.2

/-- The die with the highest reading in a list, the first on a tie. -/
def hottestOf (l : List (Nat × Nat)) : Option Nat :=
  match l with
  | [] => none
  | e :: t => some (t.foldl (fun b x => if b.2 < x.2 then x else b) e).1

/-- The compute die that the gradient bound falls on (R732): the hottest, or CD3 or CD7 for the hub or a site. -/
def gradDie (s : State) : Option Nat :=
  match hottestOf (allDeg s) with
  | none => none
  | some d => if d < 8 then some d else hottestOf ((allDeg s).filter fun e => e.1 == 3 || e.1 == 7)

/-! ### Clocks (R736 to R750) -/

/-- TCLK_N and LIMIT of a compute die (R772). -/
def tclkN (s : State) (d : Nat) : Nat := fld (rd s (pPwrtherm d) 0x100) 10 0
def limitOf (s : State) (d : Nat) : Nat := fld (rd s (pPwrtherm d) 0x100) 23 20

/-- Whether boost is allowed (R743): BOOST_EN, every die at or below 90 °C, input power below the effective cap. -/
def boostOk (s : State) : Bool :=
  bitOf (rd s pBlocker 0x108) 0 && ((allDeg s).all fun e => decide (e.2 ≤ deg 90))
    && decide (fld (rd s pBlocker 0x110) 15 0 < fld (rd s pBlocker 0x10C) 12 0)

/-- N of a preference code (R750). -/
def prefPoint (code : Nat) : Nat :=
  [1024, 332, 387, 442, 498, 553, 608, 664, 719, 774, 830, 885, 940, 1024, 1079, 1162].getD (code % 16) 1024

/-- The model of a phase. -/
def phaseModel (s : State) (slice tag : Nat) : PhaseModel := sget (fun _ => ({} : PhaseModel)) s.power.models (slice * 256 + tag)

/-- The learned target of a phase (R748): under ECO, the lowest N whose predicted loss of throughput is at most 2 %, with
the share SENS/256 of the run time scaling as 1/TCLK. -/
def learnedTarget (s : State) (slice tag : Nat) : Nat :=
  let m := phaseModel s slice tag
  let sens := if m.samples < 16 then 256 else m.sens
  if bitOf (rd s pBlocker 0x108) 1 ∧ sens < 64 then max 332 ((49 * sens * 1024 + (256 + 49 * sens) - 1) / (256 + 49 * sens)) else 1024

/-- The target of a phase and the preference code in force, 0 for none (R746, R750). -/
def phaseTarget (s : State) (slice tag : Nat) : Nat × Nat :=
  let code := fld (rdB s (tag + 256 * slice) pBlocker 0x144) 3 0
  if code = 0 then (learnedTarget s slice tag, 0)
  else (if boostOk s then prefPoint code else min 1024 (prefPoint code), code)

/-- The target of a die: 332 while it runs no task, else the highest among its tasks' phases (R746). -/
def dieTarget (s : State) (d : Nat) : Nat × Nat :=
  (List.range 15).foldl (fun b u =>
    match (tileSt s d u).task with
    | some k =>
      (match findCmd s k.ring k.no with
       | some c => let t := phaseTarget s c.slice c.phase; if b.1 < t.1 then t else b
       | none => b)
    | none => b) (332, 0)

/-- The bounds of R742 but for CLAMP105 and HOLD, in code order. -/
def boundList (s : State) (d target : Nat) : List (Nat × Nat) :=
  let b := dieB s d
  let m := rd s pPace 0x108
  [(0, target), (if fld (rd s pBlocker 0x10C) 14 13 = 2 then 2 else 1, b.cap)]
    ++ (if bitOf m 9 then [(3, 4 * fld m 8 0)] else [])
    ++ [(4, b.grad), (5, b.therm)]
    ++ (if boostOk s then [] else [(7, 1024)]) ++ [(9, b.memHot)]

/-- The least of a list of bounds, the lowest code on a tie. -/
def leastBound (l : List (Nat × Nat)) : Nat × Nat :=
  match l with
  | [] => (0, 332)
  | e :: t => t.foldl (fun b x => if x.2 < b.2 then x else b) e

/-- Code and N that a die's clock is set to (R742). The hardware halving of R734 is a bound of half the others' least,
not below the lowest N (assumption log 60). -/
def dieClock (s : State) (d : Nat) : Nat × Nat :=
  let m := leastBound (boundList s d (dieTarget s d).1)
  if (dieB s d).clamp ∧ max 332 (m.2 / 2) < m.2 then (6, max 332 (m.2 / 2)) else (m.1, max 332 m.2)

/-- PT_VOLT for a new clock: within the ranges of R729 and the 150 mV of R730, else free. -/
def setVolt (d : Nat) (s : State) : State :=
  let t := 650 + (Config.freeValue s.freeCtr).toNat % 301
  let lo := max 700 (t - 150)
  let hi := min 900 (t + 150)
  let f := lo + (Config.freeValue (s.freeCtr + 1)).toNat % (hi - lo + 1)
  wr (pPwrtherm d) 0x104 (BitVec.ofNat 32 (t + 1024 * f)) (tickFree 2 s)

/-- Blocker sets one die's clock. FCLK stands at the MEM_HOT bound, or anywhere below it while the cap binds. -/
def setDieClock (s : State) (d : Nat) : State :=
  let c := dieClock s d
  let b := dieB s d
  let capped := decide (c.1 = 1) || decide (c.1 = 2)
  let step := if capped then (freeVal s).toNat % (b.fclk + 1) else b.fclk
  let pref := (dieTarget s d).2
  let old := rd s (pPwrtherm d) 0x100
  let w := BitVec.ofNat 32 (c.2 + 0x800 * step + 0x10000 * pref + 0x100000 * c.1 + 0x1000000 * b2n (bitOf old 24) + 0x2000000 * b2n b.clamp)
  let s1 := wr (pPwrtherm d) 0x100 w (if capped then tickFree 1 s else s)
  if fld old 10 0 = c.2 then s1 else addProg (pPwrtherm d) 4 1 (setVolt d s1)

/-- POWER_LIMITED follows the dies' LIMITs, with its event (R775, R776). -/
def powerLimited (s : State) : State :=
  let on := (List.range 8).any fun d => limitOf s d == 1 || limitOf s d == 2
  let w := rd s pBlocker 0x10C
  let s1 := wr pBlocker 0x10C (setFld w 18 18 (b2n on)) s
  if on && !bitOf w 18 then event pBlocker 6 s1 else s1

/-- Blocker sets every compute die's clock (R742); it runs in RUN, outside HOLD. -/
def setClocks (s : State) : State :=
  if s.inHold ∨ !s.power.up ∨ phase s ≠ 5 then s else powerLimited ((List.range 8).foldl setDieClock s)

/-! ### Gating (R733, R747) -/

/-- PT_CLK.GATED of a die; the event when it begins. -/
def setGated (d : Nat) (on : Bool) (s : State) : State :=
  let w := rd s (pPwrtherm d) 0x100
  let s1 := wr (pPwrtherm d) 0x100 (setFld w 24 24 (b2n on)) s
  if on && !bitOf w 24 then event (pPwrtherm d) 4 s1 else s1

/-- Count gated time of a die, in µs. -/
def countGated (d us : Nat) (s : State) : State := addProg (pPwrtherm d) 6 us (satInc (pPwrtherm d) 0x128 us s)

/-! ### GRADIENT_CHECK (R732, R733) -/

/-- Whether 1 ms has passed since a time. -/
def msSince (s : State) (t : Option Nat) : Bool := match t with | some x => decide (x + 1000000 ≤ s.now) | none => true

/-- The gradient bound steps down on the hottest die while the spread exceeds GRAD_WARN, at most once a millisecond. -/
def gradDown (s : State) : State :=
  let s1 := (List.range 8).foldl (fun t d => setDieB d { dieB t d with gradOk := none } t) s
  match gradDie s1 with
  | some d =>
    let b := dieB s1 d
    if msSince s1 b.gradAt then
      event (pPwrtherm d) 1 (setDieB d { b with grad := max 332 (b.grad - 32), gradAt := some s1.now } s1)
    else s1
  | none => s1

/-- It steps up again once the spread has stayed at or below GRAD_WARN for 10 ms. -/
def gradUp (s : State) (d : Nat) : State :=
  let b := dieB s d
  let since := b.gradOk.getD s.now
  let b1 := { b with gradOk := some since }
  if b.grad < 1162 ∧ since + 10000000 ≤ s.now ∧ msSince s b.gradAt then
    setDieB d { b1 with grad := min 1162 (b.grad + 32), gradAt := some s.now } s
  else setDieB d b1 s

/-- At a spread of 40 °C the hottest compute die gates its issue, until the spread is back at 30 °C (R733). -/
def gradGate (s : State) : State :=
  if 40 ≤ spread s then
    (match hottestOf ((allDeg s).filter fun e => decide (e.1 < 8)) with
     | some d => setGated d true (setDieB d { dieB s d with gated := true } s)
     | none => s)
  else if spread s ≤ 30 then
    (List.range 8).foldl (fun t d =>
      if (dieB t d).gated then setGated d false (setDieB d { dieB t d with gated := false } t) else t) s
  else s

/-- GRADIENT_CHECK: the readings of every die, by die field. In HOLD they are kept and nothing follows. -/
def gradientCheck (temps : List (List Nat)) (s : State) : State :=
  if !s.power.up then s
  else
    let s1 : State := { s with power := { s.power with temps := (List.range 11).map fun i => temps.getD i [] } }
    if s1.inHold ∨ phase s1 ≠ 5 then s1
    else
      let hot := (List.range 8).filter fun d => match dieDeg s1 d with | some t => decide (deg (tjTarget s1) < t) | none => false
      let s2 := hot.foldl (fun t d => addProg (pPwrtherm d) 5 100 t) s1
      let s3 := if gradWarn s2 < spread s2 then gradDown s2 else (List.range 8).foldl gradUp s2
      setClocks (gradGate s3)

def execGradientCheck (temps : List (List Nat)) (s : State) : Res := .next (gradientCheck temps s)

/-! ### CLAMP105 (R734) -/

/-- CLAMP105: the readings of a compute die reach 105 °C, or fall to 102 °C. -/
def clamp105 (d : Nat) (sensors : List Nat) (s : State) : State :=
  if 8 ≤ d ∨ !s.power.up then s
  else
    let s1 := setSensors d sensors s
    let b := dieB s1 d
    match dieDeg s1 d with
    | none => s1
    | some t =>
      if deg 105 ≤ t ∧ !b.clamp then
        setClocks (event (pPwrtherm d) 0 (satInc (pPwrtherm d) 0x12C 1 (setDieB d { b with clamp := true } s1)))
      else if t ≤ deg 102 ∧ b.clamp then setClocks (setDieB d { b with clamp := false } s1)
      else s1

def execClamp105 (die : Nat) (sensors : List Nat) (s : State) : Res := .next (clamp105 die sensors s)

/-! ### BLOCKER_PERIOD (R735, R740 to R747) -/

/-- The MEM_HOT bound of a die (R735): 32 steps of N and one of FCLK every 1 ms. -/
def memHotStep (hot : Bool) (s : State) (d : Nat) : State :=
  let b := dieB s d
  if hot then setDieB d { b with memHot := max 332 (b.memHot - 32), fclk := b.fclk - 1, memOk := none } s
  else
    let since := b.memOk.getD s.now
    let b1 := { b with memOk := some since }
    if since + 10000000 ≤ s.now then setDieB d { b1 with memHot := min 1162 (b.memHot + 32), fclk := min 16 (b.fclk + 1) } s
    else setDieB d b1 s

/-- The THERMAL bound of a die, lowered above TJ_TARGET and raised below, and its share of the cap: the spec gives the
direction of the one and neither value, so they are free within the range of N. -/
def freeBounds (s : State) (d : Nat) : State :=
  let b := dieB s d
  let x := (Config.freeValue s.freeCtr).toNat
  let y := (Config.freeValue (s.freeCtr + 1)).toNat
  let above := match dieDeg s d with | some t => decide (deg (tjTarget s) < t) | none => false
  let therm := if above then 332 + x % (b.therm - 332 + 1) else b.therm + x % (1162 - b.therm + 1)
  setDieB d { b with therm := therm, cap := 332 + y % 831 } (tickFree 2 s)

/-- The shares of BLK_SHARE (R742): hub and links as measured, dies and memory free. -/
def setShares (m : BlkMeas) (s : State) : State :=
  let f (i : Nat) : Nat := (Config.freeValue (s.freeCtr + i)).toNat % 4601
  let l := (List.range 8).map f ++ [m.hub, m.links, f 8]
  tickFree 9 { s with power := { s.power with shares := l } }

/-- Gating of tile issue under R747 for a period: each die for a free number of intervals of 10 µs; the die that R733 gates
for the whole period. -/
def periodGate (excess : Bool) (s : State) (d : Nat) : State :=
  if (dieB s d).gated then countGated d 1000 (setGated d true s)
  else if excess then countGated d (10 * (1 + (freeVal s).toNat % 100)) (setGated d true (tickFree 1 s))
  else setGated d false s

/-- BLOCKER_PERIOD: a control period of 1 ms ends with the measurements `m`. -/
def blockerPeriod (m : BlkMeas) (s : State) : State :=
  if s.inHold ∨ !s.power.up ∨ phase s ≠ 5 then s
  else
    let s0 : State := { s with power := { s.power with vin := m.vin } }
    let s1 := wr pBlocker 0x118 (BitVec.ofNat 32 (m.iin % 4096)) (wr pBlocker 0x110 (BitVec.ofNat 32 (m.pin % 65536)) s0)
    let s2 := (List.range 8).foldl (fun t d =>
      freeBounds (memHotStep (m.hot.contains d) (wr (pPwrtherm d) 0x114 (BitVec.ofNat 32 (m.dies.getD d 0 % 65536)) t) d) d) s1
    let s3 := setClocks ((List.range 8).foldl (periodGate m.excess) (setShares m s2))
    let kept := (List.range 8).filter fun d =>
      let c := fld (rd s3 (pPwrtherm d) 0x100) 19 16
      decide (c ≠ 0) && decide (tclkN s3 d = prefPoint c)
    let s4 := addProg pBlocker 7 kept.length (addProg pBlocker 0 1 s3)
    addProg pBlocker 4 (b2n (bitOf (rd s4 pBlocker 0x10C) 18)) s4

def execBlockerPeriod (m : BlkMeas) (s : State) : Res := .next (blockerPeriod m s)

/-! ### DROOP (R739, R774) -/

/-- DROOP: VDD_T of a die fell to `mv`; the stretch lasted `cycles` TCLK cycles. -/
def droop (d mv cycles : Nat) (s : State) : State :=
  let p := pPwrtherm d + 1
  let cfg := rd s p 0x100
  let thr := if fld cfg 7 0 = 0 then 40 else fld cfg 7 0
  if 8 ≤ d ∨ s.inHold ∨ !s.power.up ∨ !bitOf cfg 9 ∨ fld (rd s (pPwrtherm d) 0x104) 9 0 < mv + thr then s
  else
    let s1 := add64 p 0x108 cycles (satInc p 0x104 1 s)
    addProg (pPwrtherm d) 7 1 (wr p 0x110 (BitVec.ofNat 32 (min (fld (rd s1 p 0x110) 9 0) mv)) s1)

def execDroop (die mv cycles : Nat) (s : State) : Res := .next (droop die mv cycles s)

/-! ### The cap (R740, R744, R775) -/

/-- THROTTLE_N, after the pin rules of R840, is asserted or deasserted. -/
def throttleN (on : Bool) (s : State) : State :=
  if !s.power.up ∨ s.power.throttle = on then s
  else
    let s1 : State := { s with power := { s.power with throttle := on } }
    let w := rd s1 pBlocker 0x170
    let n := fld w 31 2
    let w1 := if on then BitVec.ofNat 32 (1 + 4 * min (n + 1) 0x3FFFFFFF) else BitVec.ofNat 32 (4 * n)
    let s2 := event pBlocker 1 (wr pBlocker 0x170 w1 s1)
    setClocks (capSync (if on then addProg pBlocker 6 1 s2 else s2))

def execThrottleN (asserted : Bool) (s : State) : Res := .next (throttleN asserted s)

/-- THROTTLE_STUCK: THROTTLE_N has been asserted for 1 s without a break. -/
def throttleStuck (s : State) : State :=
  if !s.power.throttle ∨ bitOf (rd s pBlocker 0x170) 1 then s
  else capSync (event pBlocker 2 (wr pBlocker 0x170 (rd s pBlocker 0x170 ||| 2) s))

def execThrottleStuck (s : State) : Res := .next (throttleStuck s)

/-- A write of BLK_CAP (R775): outside 1,200 to 4,600 W it is ignored and sets BAD_CFG. -/
def blkCapWrite (data : Word) (s : State) : State :=
  let v := fld data 12 0
  if v < 1200 ∨ 4600 < v then event pBlocker 7 s
  else setClocks (capSync (wr pBlocker 0x100 (BitVec.ofNat 32 v) s))

def execBlkCapWrite (data : Word) (s : State) : Res := .next (blkCapWrite data s)

/-! ### PHASE_MODEL_UPDATE (R748) -/

/-- An exponential average with weight 1/16; which way it rounds is free. -/
def average (up : Bool) (old sample : Nat) : Nat := (15 * old + sample + (if up then 15 else 0)) / 16

/-- PHASE_MODEL_UPDATE: a sample of a phase's power per tile at nominal TCLK, in 0.01 W, and of its SENS. -/
def phaseModelUpdate (slice tag power sens : Nat) (s : State) : State :=
  if 64 ≤ slice ∨ 256 ≤ tag ∨ s.inHold ∨ phase s ≠ 5 then s
  else
    let m := phaseModel s slice tag
    let r := (freeVal s).toNat
    let m1 : PhaseModel := {
      pnom := min 65535 (average (nbit r 0) m.pnom power), sens := min 256 (average (nbit r 1) m.sens sens)
      samples := min 127 (m.samples + 1) }
    tickFree 1 { s with power := { s.power with
      models := sput (fun _ => ({} : PhaseModel)) s.power.models (slice * 256 + tag) m1 } }

def execPhaseModelUpdate (slice tag power sens : Nat) (s : State) : Res := .next (phaseModelUpdate slice tag power sens s)

/-! ### ENERGY_INTERVAL (R752 to R754) -/

/-- Energies of a map in pJ, raised. -/
def addEnergy (k e : Nat) (m : List (Nat × Nat)) : List (Nat × Nat) := sput (fun _ => 0) m k (sget (fun _ => 0) m k + e)

/-- Charge a command with an energy in pJ. -/
def chargeCmd (ring no e : Nat) (s : State) : State :=
  match findCmd s ring no with
  | none => s
  | some c =>
    let f := c.frac + e
    let s1 := updCmd ring no (fun x => { x with energy := x.energy + f / 1000000, frac := f % 1000000 }) s
    { s1 with power := { s1.power with
        ringEnergy := addEnergy ring e s1.power.ringEnergy, sliceEnergy := addEnergy c.slice e s1.power.sliceEnergy } }

/-- Count energy charged to no command. -/
def unchargeE (e : Nat) (s : State) : State :=
  let f := s.power.uncharged + e
  add64 pBlocker 0x128 (f / 1000000) { s with power := { s.power with uncharged := f % 1000000 } }

/-- ENERGY_INTERVAL: `total` pJ entered in an interval of 10 µs, of which `own` for work of Holog and Pounce; `charges` are
the energies the measurements give to commands (ring, start number, pJ); `dies` the rail energy of each die in µJ. The
rest is shared in proportion to the charges. -/
def energyInterval (total own : Nat) (charges : List (Nat × Nat × Nat)) (dies : List Nat) (s : State) : State :=
  let live := charges.filter fun c => match findCmd s c.1 c.2.1 with | some x => x.status.isNone | none => false
  let sum := live.foldl (fun n c => n + c.2.2) 0
  if !s.power.up ∨ total < own + sum then s
  else
    let f := s.power.moduleFrac + total
    let s1 := add64 pBlocker 0x120 (f / 1000000) { s with power := { s.power with moduleFrac := f % 1000000 } }
    let s2 := (List.range 8).foldl (fun t d => add64 (pPwrtherm d) 0x120 (dies.getD d 0) t) s1
    if s.inHold ∨ sum = 0 then unchargeE total s2
    else
      let rest := total - own - sum
      let parts := live.map fun c => c.2.2 + rest * c.2.2 / sum
      let excess := (total - own) - parts.foldl (· + ·) 0
      let s3 := (live.zip parts).foldl (fun t x => chargeCmd x.1.1 x.1.2.1 x.2 t) s2
      let s4 := match live with | c :: _ => chargeCmd c.1 c.2.1 excess s3 | [] => s3
      unchargeE own s4

def execEnergyInterval (total own : Nat) (charges : List (Nat × Nat × Nat)) (dies : List Nat) (s : State) : Res :=
  .next (energyInterval total own charges dies s)

/-! ### Rails (R727, R728, R731, R777) -/

/-- Set a bit of PT_RAIL_STAT. -/
def railStat (d bit : Nat) (s : State) : State := wr (pPwrtherm d) 0x118 (rd s (pPwrtherm d) 0x118 ||| oneBit bit) s

/-- SENSE_OPEN: a regulator of a die falls back to local sense; `rail` is 0 for VDD_T, 1 for VDD_F, 2 for another. Dies other
than compute dies have no PWRTHERM page. -/
def senseOpen (d rail : Nat) (s : State) : State :=
  if !s.power.up then s
  else
    let s1 := if d < 8 then event (pPwrtherm d) 2 (railStat d (min rail 2) s) else s
    event pBlocker 8 { s1 with mmc := { s1.mmc with psStat := setFld s1.mmc.psStat 6 6 1 } }

def execSenseOpen (die rail : Nat) (s : State) : Res := .next (senseOpen die rail s)

/-- A memory rail is isolated: its events. -/
def railEvents (d bit : Nat) (s : State) : State := event pBlocker 9 (event (pPwrtherm d) 3 (railStat d bit s))

/-- A core-rail fault isolates a compute die: every unit of it is FAULTED and the device faults (R695, R728, R731). -/
def isolateDie (d dt : Nat) (s : State) : State :=
  let p := pPwrtherm d
  let e : ErrRec := { cls := 0x30, detail := dt, gen := (unitSt s p).gen.toNat, srcDie := d, srcUnit := 50, srcLogical := 0x3F }
  let s1 := captureErr p e s
  let s2 := ((liveUnder 5 s1 (pDie d)).filter isLeaf).foldl (fun t q => setUState q .faulted false t) s1
  let s3 := (List.range 6).foldl (fun t k => portFollow (6 * d + k) t) s2
  deviceFault (if s3.felt.dead.contains d then s3 else agentDead d s3)

/-- RAIL_SHORT (R728). A short of memory in HOLD is isolated at once; its controller is FAULTED at resumption (R76). -/
def railShort (d : Nat) (rail : Rail) (s : State) : State :=
  if !s.power.up then s
  else
    match rail with
    | .lpddr pkg =>
      if 8 ≤ d ∨ 2 ≤ pkg then s
      else
        let m := memCtl s d
        unitFault (pLpddrc d) 0x20 0x05 (setMemCtl d { m with present := m.present.set pkg false } (railEvents d 3 s))
    | .stack =>
      if 8 ≤ d then s else unitFault (pSdramc d) 0x20 0x05 (setMemCtl d { memCtl s d with nearShort := true } (railEvents d 4 s))
    | .core => if 8 ≤ d then s else isolateDie d 0x01 (railStat d 5 s)
    | .site => if d = 9 ∨ d = 10 then
        (let p := pageOf d 1 0
         let s1 := setUState p .faulted false s
         if s1.felt.dead.contains d then s1 else agentDead d s1) else s

def execRailShort (die : Nat) (rail : Rail) (s : State) : Res := .next (railShort die rail s)

/-- VDIFF: an adjacent pair of a compute die's domains is more than 150 mV apart for 1 µs. -/
def vdiff (d : Nat) (s : State) : State := if 8 ≤ d ∨ !s.power.up then s else isolateDie d 0x02 (railStat d 6 s)

def execVdiff (die : Nat) (s : State) : Res := .next (vdiff die s)

end Sys2Proof.Machine
end

