-- ==== Sys2Proof/Machine/Pace.lean ====
section
/-! DEFINITION. The pace word and pace matching (13_collectives.md R617 to R623; rows PACE_PUBLISH, PACE_MATCH_EVAL). -/

namespace Sys2Proof.Machine

/-- The compute dies not in OFF (R617). -/
def paceDies (s : State) : List Nat := (List.range 8).filter fun d => decide (pageState s (pDie d) ≠ .off)

/-- The PACE field: floor(256 × TCLK / 1.85 GHz) of the slowest die's mean TCLK, which is floor(N / 4) while the die holds
one N (R617, R736); `mean` gives that mean in kHz where the clock changed or was stretched. With every die OFF the spec
names no die, and the field is free. -/
def paceField (mean : Option Nat) (s : State) : Nat :=
  match mean, paceDies s with
  | some k, _ => min 511 (256 * k / 1850000)
  | none, d :: t => (t.foldl (fun m x => min m (tclkN s x)) (tclkN s d)) / 4
  | none, [] => (freeVal s).toNat % 512

/-- Whether Blocker holds some die below nominal for the cap, for temperature or for THROTTLE_N (R745). -/
def paceThrottled (s : State) : Bool := (List.range 8).any fun d => [1, 2, 4, 5, 6, 9].contains (limitOf s d)

/-- Publish a pace word (R617); OWN_PACE when the PACE field crosses EVT_THR (R621). -/
def publish (pace : Nat) (s : State) : State :=
  let old := rd s pPace 0x100
  let thr := fld (rd s pPace 0x104) 8 0
  let w := BitVec.ofNat 32 (pace % 512 + 0x200 * b2n s.inHold + 0x400 * b2n (matchActive s) + 0x800 * b2n (paceThrottled s)
    + 0x1000 * ((fld old 15 12 + 1) % 16) + 0x10000 * nodeId s)
  let s1 := addProg pPace 0 1 (wr pPace 0x100 w s)
  if decide (fld old 8 0 < thr) != decide (pace < thr) then event pPace 0 s1 else s1

/-- PACE_PUBLISH: in HOLD the field is 0. -/
def pacePublish (mean : Option Nat) (s : State) : State :=
  if !s.power.up then s
  else if s.inHold then publish 0 s
  else publish (paceField mean s) (tickFree 1 s)

def execPacePublish (mean : Option Nat) (s : State) : Res := .next (pacePublish mean s)

/-! ### Pace matching (R622, R623) -/

/-- The tracked peers of every collective engine, with their die. -/
def lagEntries (s : State) : List (Nat × LagEntry) := s.xfer.lag.flatMap fun e => e.2.map fun x => (e.1, x)

/-- The peers of the plans of a die that have PACE_MATCH = 1. -/
def matchPeers (s : State) (d : Nat) : List Nat :=
  (s.xfer.plans.filter fun e => e.1 / 16 == d && e.2.paceMatch).flatMap fun e => e.2.peers

/-- Whether an entry is LAGGING in a plan with PACE_MATCH, with a word no older than 100 µs that has HOLD = 0. -/
def lagsIn (s : State) (x : Nat × LagEntry) : Bool :=
  x.2.lagging && (matchPeers s x.1).contains x.2.node && !nbit x.2.pace 9
    && (match x.2.paceAt with | some t => decide (s.now ≤ t + 100000) | none => false)

/-- The causes at an evaluation: those still in force (R623), and entries that become causes (R622). -/
def paceCauses (s : State) : List (Nat × LagEntry) :=
  let target := fld (rd s pPace 0x108) 8 0
  (lagEntries s).filter fun x =>
    lagsIn s x && (!matchActive s || decide (nfld x.2.pace 8 0 < target + 16))
      && (s.xfer.causes.contains x.2.node || !nbit x.2.pace 10)

/-- PACE_MATCH_EVAL: the target is the lowest PACE among the causes, at least 83; with no cause left matching ends. Holog
evaluates every 10 µs, which PROG_K0 counts. -/
def paceMatchEval (s : State) : State :=
  if s.inHold ∨ phase s ≠ 5 then s
  else
    let was := matchActive s
    let s0 := if was then addProg pPace 4 10 s else s
    match (if bitOf (rd s pPace 0x104) 18 then paceCauses s else []) with
    | [] =>
      if was then
        let s1 : State := { s0 with xfer := { s0.xfer with causes := [] } }
        setClocks (event pPace 3 (wr pPace 0x108 0 s1))
      else s
    | e :: t =>
      let low := t.foldl (fun b x => if nfld x.2.pace 8 0 < nfld b.2.pace 8 0 then x else b) e
      let w := BitVec.ofNat 32 (max 83 (nfld low.2.pace 8 0) + 0x200 + 0x400 * (low.2.node % 4096))
      let s1 : State := { s0 with xfer := { s0.xfer with causes := dedupNat ((e :: t).map fun x => x.2.node) } }
      let s2 := wr pPace 0x108 w s1
      setClocks (if was then s2 else addProg pPace 5 1 (event pPace 2 s2))

def execPaceMatchEval (s : State) : Res := .next (paceMatchEval s)

end Sys2Proof.Machine
end

