-- ==== Sys2Proof/Machine/Hold.lean ====
section
/-! DEFINITION. HOLD entry and its causes, the final journal and the eFuse (16_power.md R722 to R726, R755 to R770; rows
PWR_FAIL_N to HOLD_TEST_EXPIRE, HOLD_LONG to REVERSE_POLARITY, THERMAL_TRIP, EFUSE_LATCH_CLEAR). RESUMPTION stands in Resume.lean. -/

namespace Sys2Proof.Machine

/-! ### HOLD entry (R755 to R757) -/

/-- HOLD_STAT.CAUSE: bit 0 PWR_FAIL, 1 UV, 2 OV, 3 THERMAL, 4 TEST. -/
def holdCauses (s : State) : Nat := fld (rd s pBlocker 0x158) 5 1

/-- Set or clear a cause in HOLD_STAT. -/
def setHoldCause (c : Nat) (on : Bool) (s : State) : State :=
  wr pBlocker 0x158 (setFld (rd s pBlocker 0x158) (c + 1) (c + 1) (b2n on)) s

/-- A unit enters HOLD (R76). -/
def holdUnit (s : State) (p : Nat) : State :=
  let u := unitSt s p
  if u.state = .off ∨ u.state = .active ∨ u.state = .draining then setUState p .hold false (setUnit p { u with held := u.state } s)
  else s

/-- A port enters STANDBY, after sending HOLD if it was UP; a wavelength move not yet made is abandoned (R572, R575). -/
def holdPort (s : State) (k : Nat) : State :=
  let l := portLState s k
  let s1 := setLState k 9 (setPort k { portSt s k with before := l, subst := none, lostLight := false } s)
  if l = 6 then emit (.linkMsg k (.hold (nodeId s))) s1 else s1

/-- A die's controllers enter self-refresh; a repair not yet committed is abandoned (R412, R756). -/
def holdMem (s : State) (d : Nat) : State := setMemCtl d { memCtl s d with repair := none, selfRefresh := true } s

/-- A cause of HOLD arises (R755): the device enters HOLD from any state, or the cause joins those of the HOLD it is in. -/
def enterHold (cause : Nat) (s : State) : State :=
  if !s.power.up then s
  else if s.inHold then setHoldCause cause true s
  else
    let n := min (fld (rd s pBlocker 0x158) 21 6 + 1) 65535
    let s1 := wr pBlocker 0x158 (BitVec.ofNat 32 (1 + 2 * 2 ^ cause + 64 * n)) (addProg pBlocker 5 1 s)
    let s2 := event pBlocker 3 (wr pBlocker 0x10C (rd s1 pBlocker 0x10C ||| 0x20000) s1)
    let s3 : State := { s2 with inHold := true, power := { s2.power with hold := { enteredAt := s2.now } } }
    let s4 := (List.range 8).foldl holdMem (dispSync s3)
    let s5 := (allHeaderPages.filter isLeaf).foldl holdUnit s4
    let s6 := (List.range 48).foldl holdPort s5
    publish 0 ((List.range 8).foldl (fun t d =>
      wr (pPwrtherm d) 0x100 (setFld (rd t (pPwrtherm d) 0x100) 23 20 8) t) s6)

/-- A cause clears (R760). -/
def clearHold (cause : Nat) (s : State) : State := if s.inHold then setHoldCause cause false s else s

/-- PWR_FAIL_N is asserted, after the pin rules of R840. -/
def execPwrFailN (s : State) : Res := .next (enterHold 0 s)

/-- PWR_FAIL_N has been deasserted for 1 ms. -/
def execPwrFailNDeassert (s : State) : Res := .next (clearHold 0 s)

/-- Record the input voltage, in mV. -/
def setVin (vin : Nat) (s : State) : State := { s with power := { s.power with vin := vin } }

/-- INPUT_UNDERVOLTAGE: the input stood at `vin` mV, below the threshold (39.4 V at most), for 10 µs. -/
def execInputUndervoltage (vin : Nat) (s : State) : Res :=
  .next (if vin < 39400 then enterHold 1 (setVin vin s) else setVin vin s)

/-- INPUT_OVERVOLTAGE: above the threshold (61.6 V at least) for 10 µs. -/
def execInputOvervoltage (vin : Nat) (s : State) : Res :=
  .next (if 61600 < vin then enterHold 2 (setVin vin s) else setVin vin s)

/-- INPUT_CLEAR: the input has stood at `vin` for 1 ms: UV clears at or above the release threshold (39.6 V at least), OV at
or below 61 V. -/
def execInputClear (vin : Nat) (s : State) : Res :=
  let s1 := setVin vin s
  let s2 := if 39600 ≤ vin then clearHold 1 s1 else s1
  .next (if vin ≤ 61000 then clearHold 2 s2 else s2)

/-- THERMAL_HOLD: the readings of a die reach 110 °C. -/
def thermalHold (die : Nat) (sensors : List Nat) (s : State) : State :=
  if 11 ≤ die ∨ !s.power.up then s
  else
    let s1 := setSensors die sensors s
    match dieDeg s1 die with
    | some t => if deg 110 ≤ t then enterHold 3 (if die < 8 then event (pPwrtherm die) 5 s1 else s1) else s1
    | none => s1

def execThermalHold (die : Nat) (sensors : List Nat) (s : State) : Res := .next (thermalHold die sensors s)

/-- THERMAL_CLEAR: the readings of every die, which have been at or below 95 °C for 1 s. -/
def execThermalClear (temps : List (List Nat)) (s : State) : Res :=
  let s1 : State := { s with power := { s.power with temps := (List.range 11).map fun i => temps.getD i [] } }
  .next (if (allDeg s1).all fun e => decide (e.2 ≤ deg 95) then clearHold 3 s1 else s1)

/-- A write of HOLD_TEST (R755, R762, R775): ignored in HOLD; MS = 0 names no time and is ignored too. -/
def holdTest (data : Word) (s : State) : State :=
  let ms := fld data 15 0
  if s.inHold ∨ !s.power.up ∨ ms = 0 then s
  else
    let s1 := enterHold 4 s
    { s1 with power := { s1.power with hold := { s1.power.hold with testUntil := some (s1.now + ms * 1000000) } } }

def execHoldTest (data : Word) (s : State) : Res := .next (holdTest data s)

/-- HOLD_TEST_EXPIRE: the TEST cause clears once its time has run. -/
def execHoldTestExpire (s : State) : Res :=
  match s.power.hold.testUntil with
  | some t => if s.now < t then .next s
    else .next (clearHold 4 { s with power := { s.power with hold := { s.power.hold with testUntil := none } } })
  | none => .next s

/-- HOLD_LONG (R763): HOLD_LONG_S seconds in HOLD; 0 acts as 10. -/
def execHoldLong (s : State) : Res :=
  let n := fld (rd s pBlocker 0x174) 7 0
  let sec := if n = 0 then 10 else n
  if s.inHold ∧ s.power.hold.enteredAt + sec * 1000000000 ≤ s.now then .next (event pBlocker 5 s) else .next s

/-! ### The MMC's log and PS_STAT (R775, R836, R841) -/

/-- The MMC's own clock: it runs on when the device is reset or loses its supply. -/
def mmcTime (s : State) : Nat := s.mmc.base + s.now

/-- An entry of the MMC's log, which holds 4,096; the MMC logs once it is up. -/
def mmcLogAdd (e : MmcEvent) (s : State) : State :=
  if !s.mmc.ready then s
  else
    let l := s.mmc.log ++ [(mmcTime s, e)]
    { s with mmc := { s.mmc with log := l.drop (l.length - 4096) } }

/-- Set bits of PS_STAT. -/
def psStatOr (w : Word) (s : State) : State := { s with mmc := { s.mmc with psStat := s.mmc.psStat ||| w } }

/-! ### The journal (R764 to R768, R800) -/

/-- The free slot: the one that does not hold the newest valid record; slot 0 where no record is valid. -/
def freeSlot (s : State) : Nat := match newestSlot s with | some 0 => 1 | _ => 0

/-- The sequence number of a new record. -/
def nextJournalSeq (s : State) : Nat :=
  match newestSlot s with
  | some i => ((s.nor.slots.getD i {}).seq + 1) % 2 ^ 32
  | none => 1

/-- JR_STAT.ARMED (R800, R810). -/
def armed (s : State) : Bool := bitOf (rd s pJournal 0x100) 3

/-- The power-event record (R768); `cause` are the bits of CAUSE from 5 up. -/
def powerRecord (cause : Nat) (m : PMeas) (s : State) : List Byte :=
  let w := rd s pBlocker 0x158
  let holds := fld w 21 6
  let st := (pageState s pDev).code + 8 * b2n s.recov.running + 16 * b2n (hatValid s)
  leBytes 4 (fld w 5 1 + cause) ++ leBytes 4 holds
    ++ leBytes 8 (if holds = 0 then 0 else s.power.hold.enteredAt) ++ leBytes 8 s.now
    ++ leBytes 4 m.vinMin ++ leBytes 4 m.vin ++ leBytes 4 m.iinPeak ++ leBytes 4 m.pinAvg
    ++ leBytes 8 (rd64 s pBlocker 0x120) ++ leBytes 4 (m.tempMax % 256 + 256 * (m.tempDie % 16)) ++ leBytes 4 st
    ++ leBytes 4 (dspCmds s) ++ leBytes 4 (dspTasks s) ++ List.replicate 64 0

/-- The first `n` bytes of a list, filled up with zeros. -/
def padTo (n : Nat) (l : List Byte) : List Byte := l.take n ++ List.replicate (n - l.length) 0

/-- The record of 3,072 bytes (R766). What the rule names without a place or a value (the format version, the rest of the
header, the Hatbox summary, the commit word) is free. -/
def journalRecord (cause : Nat) (m : PMeas) (s : State) : List Byte :=
  let f (n k : Nat) : List Byte := freeBytes (tickFree n s) k
  let head := f 0 4 ++ leBytes 4 (nextJournalSeq s) ++ leBytes 4 s.nor.boots ++ f 4 52
  let errs := padTo 1920 (s.power.errRing.take 40).flatten
  let tail := padTo 768 (s.boot.log.drop (s.boot.log.length - 24)).flatten
  let body := head ++ powerRecord cause m s ++ errs ++ tail ++ f 56 176
  body ++ leBytes 4 (crc32 body) ++ f 232 4 ++ List.replicate 8 0

/-- The journal engine writes the record into the free slot, if that slot is armed (R767, R800). -/
def writeJournal (cause : Nat) (m : PMeas) (s : State) : State :=
  if !armed s then s
  else
    let i := freeSlot s
    let v : JSlot := { valid := true, seq := nextJournalSeq s, boot := s.nor.boots, erased := false }
    let s1 := wrNorN (0x20000 + 0x1000 * i) (journalRecord cause m s) (tickFree 236 s)
    { s1 with nor := { s1.nor with slots := s1.nor.slots.set i v } }

/-- What is left when the supply is gone (R765, R769, R770): the NOR, the MMC and what it runs from 3V3_AUX, the part itself. -/
def powerOff (ef : EFuse) (s : State) : State :=
  { pending := s.pending, out := s.out, freeCtr := s.freeCtr, alertN := s.alertN
    nor := { s.nor with erasing := none }
    power := { efuse := ef, retries := s.power.retries, vin := s.power.vin }
    boot := { part := s.boot.part, perst := s.boot.perst }
    memctl := sparseOf (fun _ => ({} : MemCtl)) 8 fun d =>
      let m := memCtl s d
      { rowsUsed := m.rowsUsed, bankUsed := m.bankUsed, remaps := m.remaps, hppr := m.hppr }
    host := { nextTag := [] }
    mmc := { s.mmc with base := s.mmc.base + s.now } }

/-- The supply is lost for a trigger of the final journal (R764): the record is written and the hub halts. -/
def losePower (cause : Nat) (ef : EFuse) (m : PMeas) (s : State) : State :=
  if !s.power.up then { s with power := { s.power with efuse := ef } }
  else powerOff ef (mmcLogAdd .power (writeJournal cause m s))

/-- FINAL_JOURNAL: the input falls below the journal threshold (36.4 V at most). -/
def execFinalJournal (m : PMeas) (s : State) : Res :=
  .next (if s.power.up ∧ m.vin < 36400 then losePower 0x20 .off m (setVin m.vin s) else s)

/-- THERMAL_TRIP (R734): the readings of a die reach 120 °C. -/
def execThermalTrip (die : Nat) (sensors : List Nat) (m : PMeas) (s : State) : Res :=
  let s1 := setSensors die sensors s
  if 11 ≤ die ∨ !s.power.up then .next s
  else
    match dieDeg s1 die with
    | some t => if deg 120 ≤ t then .next (losePower 0x100 .off m (mmcLogAdd .efuse s1)) else .next s1
    | none => .next s1

/-! ### The eFuse (R723 to R726) -/

/-- The eFuse opens on overvoltage (65.5 V at least). -/
def execEfuseOvOpen (m : PMeas) (s : State) : Res :=
  .next (if 65500 < m.vin ∧ s.power.efuse = .on then losePower 0x80 .off m (mmcLogAdd .efuse (psStatOr 0x10 (setVin m.vin s))) else s)

/-- An overload turns the eFuse off and latches it, in service or in the ramp of a start; ALERT_N is asserted (R841). -/
def efuseLatch (m : PMeas) (s : State) : State :=
  if s.power.efuse = .latched then s
  else losePower 0x40 .latched m (mmcLogAdd .efuse (psStatOr 0x21 { s with alertN := true }))

def execEfuseLatch (m : PMeas) (s : State) : Res := .next (efuseLatch m s)

/-- FAST_TRIP: `m.iinPeak` in 0.1 A is at or above 200 A; the eFuse latches as after the timer (assumption log 61). -/
def execFastTrip (m : PMeas) (s : State) : Res := .next (if 2000 ≤ m.iinPeak then efuseLatch m s else s)

/-- EFUSE_RETRY (R724): a latched eFuse is free to start again, at most 3 times. -/
def execEfuseRetry (s : State) : Res :=
  if s.power.efuse = .latched ∧ s.power.retries < 3 then
    .next { s with power := { s.power with efuse := .off, retries := s.power.retries + 1 } }
  else .next s

/-- A latched eFuse is cleared with its retry count (R724, R834). -/
def efuseClear (s : State) : State :=
  if s.power.efuse = .latched then { s with power := { s.power with efuse := .off, retries := 0 } } else s

/-- EFUSE_LATCH_CLEAR: the input has stayed below 10 V for 100 ms. -/
def execEfuseLatchClear (s : State) : Res := .next (efuseClear s)

/-- REVERSE_POLARITY (R725): no current flows; the MMC records it. -/
def execReversePolarity (s : State) : Res := .next (mmcLogAdd .polarity (psStatOr 8 s))

end Sys2Proof.Machine
end

