-- ==== Sys2Proof/Machine/Boot.lean ====
section
/-! DEFINITION. Boot, the image, Holog's log and the NOR as software reads it (17_firmware.md R778 to R804; 18_interfaces.md R827;
rows CHIPLET_DISCOVERY to LOG_BASE_WRITE, BOOT_CMD_LOAD, HOST_LINK_UP, HOST_LINK_DOWN). -/

namespace Sys2Proof.Machine

/-! ### CHIPLET_DISCOVERY (R28, R784, R827) -/

/-- The adapter page of a site. -/
def pUcie (k : Nat) : Nat := pageOf (9 + k) 0 0

/-- The chiplet's unit page of a site. -/
def pChiplet (k : Nat) : Nat := pageOf (9 + k) 1 0

/-- The rates of R826 in GT/s. -/
def ucieRates : List Nat := [4, 8, 12, 16, 24, 32]

/-- The highest rate both ends support, up to CS_CFG.RATE_MAX. -/
def ucieRate (s : State) (k : Nat) (rates : List Nat) : Nat :=
  (ucieRates.filter fun r => rates.contains r && decide (r ≤ fld (rd s (pUcie k) 0x100) 6 1)).foldl max 0

/-- CHIPLET_DISCOVERY: discovery of a present site ends; the chiplet answers with what it offers, the rates it supports and
its identity block, or does not (`ok` false). -/
def chipletDiscovery (k : Nat) (ok cxl raw : Bool) (rates : List Nat) (id : List Word) (s : State) : State :=
  if !s.boot.toFind.contains k ∨ phase s ≠ 1 ∨ s.inHold then s
  else
    let s1 : State := { s with
      boot := { s.boot with toFind := setDel k s.boot.toFind }
      host := { s.host with siteSlice := sput (fun _ => 0) s.host.siteSlice k (fld (rd s (pUcie k) 0x100) 12 7) } }
    let rate := ucieRate s1 k rates
    let useCxl := cxl && !bitOf (rd s1 (pUcie k) 0x100) 0
    if !ok ∨ !(useCxl || raw) ∨ rate = 0 then
      maybeWait (setUState (pChiplet k) .faulted false (wr (pUcie k) 0x104 1 s1))
    else
      let w := BitVec.ofNat 32 (3 + 4 * b2n (!useCxl) + 8 * rate + 0x200 * 64)
      maybeWait (wrWords (pUcie k + 1) 0x100 ((List.range 4).map fun i => id.getD i 0) (wr (pUcie k) 0x104 w s1))

def execChipletDiscovery (site : Nat) (ok cxl raw : Bool) (rates : List Nat) (id : List Word) (s : State) : Res :=
  .next (chipletDiscovery site ok cxl raw rates id s)

/-! ### The host link (R781, R811 to R813, R850) -/

/-- HOST_LINK_UP: training of the host link completes; `below` says that the link is below what the carrier wiring allows. CXL
needs flit mode (R811). -/
def hostLinkUp (rate width : Nat) (flit cxlIo cxlCache cxlMem below : Bool) (s : State) : State :=
  if !s.power.up ∨ s.boot.perst then s
  else
    let old := rd s pHostif 0x100
    let w := BitVec.ofNat 32 (rate % 8 + 8 * (width % 32) + 0x100 * b2n flit + 0x200 * b2n (bitOf old 9)
      + 0x400 * b2n (flit && cxlIo) + 0x800 * b2n (flit && cxlCache) + 0x1000 * b2n (flit && cxlMem) + 0x2000)
    let s1 := if bitOf old 13 then addProg pHostif 4 1 s else s
    let s2 := wr pHostif 0x100 w s1
    maybeWait (if below then event pHostif 2 s2 else s2)

def execHostLinkUp (rate width : Nat) (flit cxlIo cxlCache cxlMem below : Bool) (s : State) : Res :=
  .next (hostLinkUp rate width flit cxlIo cxlCache cxlMem below s)

/-- HOST_LINK_DOWN: LINK_DOWN; the host may train the link again. -/
def hostLinkDown (s : State) : State :=
  if !bitOf (rd s pHostif 0x100) 13 then s
  else event pHostif 1 (wr pHostif 0x100 (rd s pHostif 0x100 &&& 0xFFFFDFFF) s)

def execHostLinkDown (s : State) : Res := .next (hostLinkDown s)

/-! ### The image (R786 to R791) -/

/-- BOOT_WINDOW_WRITE: the PF writes through BAR4. -/
def execBootWindowWrite (off : Nat) (data : List Byte) (s : State) : Res :=
  .next (hostAccess { fn := some 0, off := off, write := some data } s)

/-- Bytes of the image SRAM from `a`. -/
def imageBytes (s : State) (a n : Nat) : List Byte := (List.range n).map fun i => imageByte s (a + i)

/-- A little-endian word of the image. -/
def imageWord (s : State) (a : Nat) : Nat := leNat (imageBytes s a 4)

/-- A digest as bytes. -/
def digestBytes (d : BitVec 384) : List Byte := leBytes 48 d.toNat

/-- Whether image bytes are all zero. -/
def imageZero (s : State) (a n : Nat) : Bool := (imageBytes s a n).all fun b => b == 0

/-- R788 step 2. -/
def headerOk (s : State) : Bool :=
  imageWord s 0 == 0x474F4C48 && imageWord s 4 == 1 && decide (imageWord s 8 < 0x10000) && decide (imageWord s 0xC < 0x1000000)
    && decide (imageWord s 0x14 < 64) && decide (imageWord s 0x18 < 4) && decide (imageWord s 0x20 < imageWord s 0x1C)
    && imageZero s 0x24 0x9C && imageZero s 0x150 0x30 && imageZero s 0x1E0 0x220

/-- R788 step 3. -/
def keyOk (s : State) : Bool :=
  let slot := imageWord s 0x18
  let w := rd s pBoot 0x128
  bitOf w slot && !bitOf w (4 + slot)
    && (match s.boot.part.keys[slot]? with
        | some h => decide (Config.sha384 (imageBytes s 0xC0 96) = h)
        | none => false)

/-- R788 steps 4 and 5. -/
def signatureOk (s : State) : Bool :=
  Config.ecdsaVerify (Config.sha384 (imageBytes s 0 0x180)) (imageBytes s 0xC0 96) (imageBytes s 0x180 96)
    && decide (digestBytes (Config.sha384 (imageBytes s 1024 (imageWord s 0x1C))) = imageBytes s 0x120 48)

/-- The first failure of R788, as a code of R790; 0 where every check passes. No image matches version 0.0 (R789). -/
def imageCode (s : State) : Nat :=
  let len := fld (rd s pBoot 0x10C) 22 0
  let ifv := imageWord s 8
  let drv := (rd s pBoot 0x108).toNat
  if 0x400000 < len ∨ len ≠ 1024 + imageWord s 0x1C then 0x10
  else if !headerOk s then 0x11
  else if !keyOk s then 0x12
  else if !signatureOk s then 0x13
  else if imageWord s 0x14 < fld (rd s pBoot 0x124) 5 0 then 0x14
  else if nfld drv 15 0 = 0 ∨ nfld ifv 15 8 ≠ nfld drv 15 8 ∨ nfld ifv 7 0 < nfld drv 7 0 then 0x15
  else 0

/-- HOLOG_DIGEST of the image as loaded (R788, R797, R808). -/
def digestShown (s : State) : State :=
  let d := digestBytes (Config.sha384 (imageBytes s 0 (fld (rd s pBoot 0x10C) 22 0)))
  wrWords pBoot 0x130 ((List.range 12).map fun i => BitVec.ofNat 32 (leNat ((d.drop (4 * i)).take 4))) s

/-- The ROM checks the image and starts Holog, or stops (R788 to R791). -/
def imageCheck (s : State) : State :=
  let s1 := addProg pBoot 0 1 s
  match imageCode s1 with
  | 0 => setBootStat 4 0 0 { digestShown s1 with boot := { s1.boot with test := bitOf (rd s1 pBoot 0x104) 0, startAt := s1.now } }
  | c => bootStop c 0 s1

/-- BOOT_CMD.LOAD; in HOLD the check waits in VERIFY for resumption (R791). -/
def bootLoad (s : State) : State :=
  if !windowOpen s then event pBoot 2 s
  else if s.inHold then setBootStat 3 0 0 s
  else imageCheck s

def execBootCmdLoad (s : State) : Res := .next (bootLoad s)

/-- BOOT_CMD.RAISE_SVN (R798); `ok` says whether the fuses could be programmed. -/
def raiseSvn (ok : Bool) (s : State) : State :=
  let w := rd s pBoot 0x124
  if phase s ≠ 5 ∨ fld w 13 8 ≤ fld w 5 0 then event pBoot 2 s
  else if !ok then event pBoot 5 s
  else wr pBoot 0x124 (setFld w 5 0 (fld w 13 8)) { s with boot := { s.boot with part := { s.boot.part with svn := fld w 13 8 } } }

def execRaiseSvn (ok : Bool) (s : State) : Res := .next (raiseSvn ok s)

/-- A write of BOOT_CMD (R808). -/
def bootCmdWrite (data : Word) (s : State) : State :=
  let s1 := if bitOf data 0 then bootLoad s else s
  if bitOf data 1 then raiseSvn true s1 else s1

/-! ### BRING_UP (R792 to R794, R854) -/

/-- The logical tiles of a cluster's part of a die (R36). -/
def clusterTiles (s : State) (c : Nat) : Nat := if c = 2 then s.org.tilesPerDie - 8 else 4

/-- The first binding of a cluster: its logical tiles to the physical tiles that fuses do not name spare, in order. -/
def bindCluster (s : State) (k : Nat) : State :=
  let d := k / 3
  let c := k % 3
  let spare := (slook s.org.spareTile k).getD []
  let units := ((List.range 5).map fun t => 5 * c + t).filter fun u => !spare.contains u
  (List.range (clusterTiles s c)).foldl (fun t i =>
    match units[i]? with
    | some u => { t with org := { t.org with bindTile := sput (fun _ => 0) t.org.bindTile (12 * d + 4 * c + i) (u + 1) } }
    | none => t) s

/-- The first binding of a die's segments. -/
def bindSegs (s : State) (d : Nat) : State :=
  let spare := (slook s.org.spareSeg d).getD 12
  let units := (List.range 13).filter fun n => n != spare
  (List.range 12).foldl (fun t i =>
    { t with org := { t.org with bindSeg := sput (fun k => k % 12) t.org.bindSeg (12 * d + i) (units.getD i 0) } }) s

/-- Units not bound are SPARE. -/
def markSpares (s : State) (d : Nat) : State :=
  let s1 := ((List.range 15).filter fun u => logicalTile s d u == 0x3F).foldl (fun t u => setUState (pTile d u) .spare false t) s
  ((List.range 13).filter fun n => (logicalSeg s d n).isNone).foldl (fun t n => setUState (pSegment d n) .spare false t) s1

/-- One entry of the wear record is applied again (R710, R792): bindings, retirements, wavelengths and lasers. Remaps and
hPPR repairs stand in the controllers' own records; link wavelengths are found again in training. -/
def wearApply (s : State) (i : Nat) : State :=
  let b := rdNorN s (0x100000 + 32 * i) 32
  let w := leNat (b.take 4)
  let wh := leNat ((b.drop 4).take 8)
  let d := nfld w 11 8
  let u := nfld w 17 12
  let v := nfld w 23 18
  let l := nfld w 29 24
  if leNat (b.drop 28) ≠ crc32 (b.take 28) then s
  else
    match nfld w 7 0 with
    | 1 => setUState (pTile d v) .off false (setUState (pTile d u) .retired false { s with
        org := { s.org with bindTile := sput (fun _ => 0) s.org.bindTile (12 * d + l) (v + 1) } })
    | 2 => setUState (pSegment d (v - 20)) .off false (setUState (pageOf d u 0) .retired false { s with
        org := { s.org with bindSeg := sput (fun k => k % 12) s.org.bindSeg (12 * d + l) (v - 20) } })
    | 3 =>
      let p := pathSt s d (wh / 32)
      setPath d (wh / 32) { p with failed := setAdd (wh % 32) p.failed } s
    | 5 => { s with org := { s.org with lasersFailed := setAdd (32 * d + 9 * (wh / 16) + wh % 16) s.org.lasersFailed } }
    | 11 =>
      let s1 := setUState (pageOf d u 0) .retired false s
      if d < 8 ∧ u < 15 ∧ logicalTile s1 d u < 12 then
        { s1 with org := { s1.org with bindTile := sput (fun _ => 0) s1.org.bindTile (12 * d + logicalTile s1 d u) 0 } }
      else s1
    | _ => s

/-- Memory comes up (R406, R407, R792 steps 2 and 3). `pkgs` says per die which packages trained. -/
def memUp (pkgs : List (List Bool)) (s : State) (d : Nat) : State :=
  let m := memCtl s d
  let tr := (List.range 2).map fun k => m.present.getD k false && (pkgs.getD d []).getD k false
  let bad := (List.range 2).any fun k => m.present.getD k false && !tr.getD k false
  let m1 : MemCtl := { m with
    trained := tr, selfRefresh := false, hppr := []
    farPoison := if s.boot.fresh then [] else m.farPoison }
  let s1 := (List.range 2).foldl (fun t k =>
    let p := pLpddrc d + 1 + k
    let w := setFld (setFld (rd t p 0x100) 1 0 (b2n (m.present.getD k false) + 2 * b2n (tr.getD k false))) 5 2
      (if tr.getD k false then 15 else 0)
    wr p 0x100 w t) (setMemCtl d m1 s)
  if bad then event (pLpddrc d) 3 s1 else s1

/-- The park ring of a die (R158): Holog's base, 2^10 entries. -/
def parkUp (bases : List Nat) (s : State) (d : Nat) : State :=
  wr (pCluster d 0) 0x208 10 (wr64 (pCluster d 0) 0x200 (bases.getD d 0 / 4096 * 4096) s)

/-- Whether Holog enables a leaf unit at boot: bound, and present. -/
def bootsActive (s : State) (p : Nat) : Bool :=
  let d := pageDie p
  decide ((unitSt s p).state = .off) && !isDsp p
    && (match pageKind p with
        | some .ucie | some .chiplet => siteUp s (d - 9)
        | some .lpddrc => (memCtl s d).trained.contains true
        | some .vc | some .matrix | some .gather | some .smu | some .codec | some .tstore | some .tlb =>
          decide (logicalTile s d (pageUnit p) < 12)
        | _ => true)

/-- The dispatchers at boot: the primary serves, the other is the standby; a retired one does neither (R710). -/
def dspUp (s : State) : State :=
  let dead := decide ((unitSt s pDispatch).state = .retired)
  let s1 : State := { s with disp := { s.disp with primary := if dead then 1 else 0 } }
  let s2 := activate (pDsp s1) s1
  if (unitSt s2 (pOther s2)).state = .retired then wr pWatchdog 0x108 (rd s2 pWatchdog 0x108 ||| 2) s2
  else setUState (pOther s2) .spare false s2

/-- Step 6 of R792: the free journal slot is armed, or its erase begins. -/
def journalUp (s : State) : State :=
  let i := freeSlot s
  if (s.nor.slots.getD i {}).erased then event pJournal 0 (wr pJournal 0x100 (rd s pJournal 0x100 ||| 8) s)
  else { s with nor := { s.nor with erasing := some i } }

/-- The image's identity in the BOOT page (R797, R808). -/
def imageShown (s : State) : State :=
  let s2 := wr pBoot 0x118 (BitVec.ofNat 32 (imageWord s 8)) s
  let s3 := wr pBoot 0x11C (BitVec.ofNat 32 (imageWord s 0xC)) s2
  let s4 := wr pBoot 0x120 (BitVec.ofNat 32 (imageWord s 0x10)) s3
  let s5 := wr pBoot 0x124 (setFld (rd s4 pBoot 0x124) 13 8 (imageWord s 0x14)) s4
  wr pBoot 0x128 (setFld (rd s5 pBoot 0x128) 9 8 (imageWord s 0x18)) s5

/-- BRING_UP: Holog's START. `nearFail` is a die whose stack fails; `pkgs` the packages that trained; `park` the bases Holog
gives the park rings; `dist` the calibrated DIST entries. -/
def bringUp (nearFail : Option Nat) (pkgs : List (List Bool)) (park : List Nat) (dist : List (Nat × Word)) (s : State) : State :=
  if phase s ≠ 4 ∨ s.inHold then s
  else
    match nearFail with
    | some d => bootStop 0x20 d s
    | none =>
      let s1 := (List.range 8).foldl markSpares ((List.range 8).foldl bindSegs ((List.range 24).foldl bindCluster s))
      let s2 := (List.range s1.nor.wear).foldl wearApply s1
      let s3 := (List.range 8).foldl (memUp pkgs) s2
      let s4 : State := { s3 with nearMarks := if s3.boot.fresh then [] else s3.nearMarks }
      let s5 := distUpdate dist ((List.range 8).foldl (parkUp park) s4)
      let s6 := (allHeaderPages.filter fun p => isLeaf p && bootsActive s5 p).foldl (fun t p => activate p t) (dspUp s5)
      let s7 := (List.range 48).foldl (fun t k => portFollow k t) s6
      let s8 := imageShown (journalUp { s7 with
        boot := { s7.boot with fresh := false }, recov := { s7.recov with hbLast := none } })
      let us := min ((s8.now - s8.boot.romAt) / 1000) 0xFFFFFFFF
      let s9 := wr pBoot 0x168 (BitVec.ofNat 32 us) (wr pWatchdog 0x100 0 s8)
      setClocks (event pBoot 0 (setBootStat 5 0 0 s9))

def execBringUp (nearFail : Option Nat) (pkgs : List (List Bool)) (park : List Nat) (dist : List (Nat × Word)) (s : State) : Res :=
  .next (bringUp nearFail pkgs park dist s)

/-- START_TIMEOUT (R793): 2 s after START without RUN. -/
def execStartTimeout (s : State) : Res :=
  if phase s ≠ 4 ∨ s.inHold ∨ s.now < s.boot.startAt + 2000000000 then .next s else .next (bootStop 0x21 0 s)

/-- JOURNAL_ERASE_DONE (R800, R810): the erase of the free slot ends, or fails. -/
def journalEraseDone (ok : Bool) (s : State) : State :=
  match s.nor.erasing with
  | none => s
  | some i =>
    let s1 : State := { s with nor := { s.nor with erasing := none } }
    if !ok then
      let e : ErrRec := { cls := 0x20, detail := (freeVal s1).toNat % 256, gen := (unitSt s1 pJournal).gen.toNat, srcDie := 8, srcUnit := 8
                          srcLogical := 0x3F }
      captureErr pJournal e (event pJournal 2 (tickFree 1 s1))
    else
      let s2 := norErase (0x20000 + 0x1000 * i) 0x1000 s1
      let s3 : State := { s2 with nor := { s2.nor with slots := s2.nor.slots.set i {} } }
      event pJournal 0 (wr pJournal 0x100 (rd s3 pJournal 0x100 ||| 8) s3)

def execJournalEraseDone (ok : Bool) (s : State) : Res := .next (journalEraseDone ok s)

/-- NOR_DATA as it reads now (R810). -/
def norData (s : State) : Word :=
  if s.nor.erasing.isSome then 0xFFFFFFFF else BitVec.ofNat 32 (leNat (rdNorN s (4 * fld (rd s pJournal 0x110) 25 2) 4))

/-- What a read of NOR_DATA does beside returning it: the address advances, or READ_BUSY is set. -/
def norRead (s : State) : State :=
  if s.nor.erasing.isSome then event pJournal 1 s
  else
    let w := rd s pJournal 0x110
    let s1 := addProg pJournal 2 1 s
    if bitOf w 31 then wr pJournal 0x110 (setFld w 25 2 (fld w 25 2 + 1)) s1 else s1

/-! ### The log (R803, R804, R808) -/

/-- LOG_SIZE.LOG2_ENTRIES. -/
def logSize (s : State) : Nat := let v := fld (rd s pBoot 0x178) 4 0; if 7 ≤ v ∧ v ≤ 20 then v else 7

/-- The host ring's indices. -/
def logProd (s : State) : Nat := fld (rd s pBoot 0x17C) 20 0
def logCons (s : State) : Nat := fld (rd s pBoot 0x180) 20 0

/-- Export one entry to the host ring at LOG_BASE. -/
def logExport (e : List Byte) (s : State) : State :=
  if (e.getD 10 0).toNat < fld (rd s pBoot 0x188) 1 0 then s
  else if (logProd s + 0x200000 - logCons s) % 0x200000 = 2 ^ logSize s then event pBoot 4 (satInc pBoot 0x184 1 s)
  else
    let a := 0x800000000000 + rd64 s pBoot 0x170 / 4096 * 4096 + 32 * (logProd s % 2 ^ logSize s)
    let s1 := cohWrite true none a e s
    event pBoot 3 (addProg pBoot 1 32 (wr pBoot 0x17C (BitVec.ofNat 32 ((logProd s1 + 1) % 0x200000)) s1))

/-- Whether entries are exported now (R803). -/
def logExports (s : State) : Bool := decide (phase s ≠ 5) || s.recov.running || s.disp.failover || s.boot.test

/-- LOG_ENTRY: Holog writes an entry: trace point, severity, die of the subject, arguments. -/
def logEntry (tp sev src : Nat) (args : List Word) (s : State) : State :=
  if !s.power.up ∨ s.inHold then s
  else
    let e := leBytes 8 s.now ++ leBytes 2 tp ++ leBytes 1 (sev % 4) ++ leBytes 1 (src % 16) ++ leBytes 4 s.boot.logSeq
      ++ (List.range 4).flatMap fun i => leBytes 4 (args.getD i 0).toNat
    let l := s.boot.log ++ [e]
    let s1 := addProg pBoot 2 1 { s with boot := { s.boot with log := l.drop (l.length - 2048), logSeq := s.boot.logSeq + 1 } }
    if !logExports s1 then s1
    else if rd64 s1 pBoot 0x170 / 4096 = 0 then
      { s1 with boot := { s1.boot with unsent := (s1.boot.unsent ++ [e]).take 0x100000 } }
    else logExport e s1

def execLogEntry (tp sev src : Nat) (args : List Word) (s : State) : Res := .next (logEntry tp sev src args s)

/-- A write of LOG_BASE or LOG_SIZE: only while the ring is empty; entries that waited are exported, oldest first, up to the
ring's capacity. -/
def logBaseWrite (off : Nat) (data : DWord) (wide : Bool) (s : State) : State :=
  if logProd s ≠ logCons s then s
  else
    let s1 := stReg 0 pBoot off data wide s
    if rd64 s1 pBoot 0x170 / 4096 = 0 then s1
    else
      let s2 : State := { s1 with boot := { s1.boot with unsent := [] } }
      ((s1.boot.unsent.filter fun e => decide (fld (rd s1 pBoot 0x188) 1 0 ≤ (e.getD 10 0).toNat)).take (2 ^ logSize s1)).foldl
        (fun t e => logExport e t) s2

def execLogBaseWrite (off : Nat) (data : DWord) (wide : Bool) (s : State) : Res :=
  if off = 0x170 ∨ off = 0x174 ∨ off = 0x178 then .next (logBaseWrite off data wide s) else .next s

end Sys2Proof.Machine
end

