-- ==== Sys2Proof/Machine/Periph.lean ====
section
/-! DEFINITION. SPDM and IDE over the host link's DOE mailbox, and the management controller (17_firmware.md R805, R806;
18_interfaces.md R823 to R825, R832 to R836, R841, R842, R845; rows GET_VERSION to IDE_FAIL, GET_STATUS to FLOW_LOW). -/

namespace Sys2Proof.Machine

/-! ### SPDM (R805, R806) -/

/-- The DOE page (R851). -/
def pDoe : Nat := pHostif + 4

/-- Whether the hub answers SPDM: from the ROM phase onward, in HOLD and after a device fault too (R805). -/
def spdmUp (s : State) : Bool := s.power.up && decide (phase s ≠ 0)

/-- Answer one DOE object (R825, R851): the object is counted and the response goes out. -/
def doeAnswer (code : Nat) (ok : Bool) (data : List Byte) (s : State) : State :=
  emit (.spdm code ok data) (inc32 pDoe 0x104 1 s)

/-- An SPDM request: not served outside the phases of R805; refused where `ok` does not hold. -/
def spdmRequest (code : Nat) (ok : Bool) (data : List Byte) (s : State) : State :=
  if !spdmUp s then s else doeAnswer code ok (if ok then data else []) s

/-- Set the sessions, and DOE_STAT with their number (R851). -/
def setSessions (l : List SpdmSession) (s : State) : State :=
  wr pDoe 0x100 (setFld (rd s pDoe 0x100) 2 0 l.length) { s with spdm := { s.spdm with sessions := l } }

/-- Set the stage of the negotiation. -/
def setStage (n : Nat) (s : State) : State := { s with spdm := { s.spdm with stage := n } }

/-- GET_VERSION: versions 1.1 and 1.2; the negotiation begins anew and open sessions end. -/
def execGetVersion (s : State) : Res :=
  if !spdmUp s then .next s
  else .next (doeAnswer 0x84 true [0x11, 0x12] (setStage 1 (setSessions [] s)))

/-- GET_CAPABILITIES for a version, 0x11 or 0x12. -/
def execGetCapabilities (version : Nat) (s : State) : Res :=
  let ok := decide (s.spdm.stage = 1) && (version == 0x11 || version == 0x12)
  let s1 := spdmRequest 0xE1 ok [] s
  .next (if ok ∧ spdmUp s then setStage 2 s1 else s1)

/-- NEGOTIATE_ALGORITHMS: `offered` says that the requester offers the algorithms of R805. -/
def execNegotiateAlgorithms (offered : Bool) (s : State) : Res :=
  let ok := decide (s.spdm.stage = 2) && offered
  let s1 := spdmRequest 0xE3 ok [] s
  .next (if ok ∧ spdmUp s then setStage 3 s1 else s1)

/-- The digest of slot 0's chain, the one slot there is. -/
def execGetDigests (s : State) : Res :=
  .next (spdmRequest 0x81 (decide (s.spdm.stage = 3)) (digestBytes (Config.sha384 Config.certChain)) s)

/-- A part of a slot's certificate chain; slots 1 to 7 are not supported. -/
def execGetCertificate (slot off len : Nat) (s : State) : Res :=
  .next (spdmRequest 0x82 (decide (s.spdm.stage = 3) && decide (slot = 0) && decide (off ≤ Config.certChain.length))
    ((Config.certChain.drop off).take len) s)

/-- CHALLENGE: answered with a signature of the identity key, 96 bytes. -/
def execChallenge (slot : Nat) (s : State) : Res :=
  let ok := decide (s.spdm.stage = 3) && decide (slot = 0)
  .next (if ok ∧ spdmUp s then tickFree 96 (spdmRequest 0x83 true (freeBytes s 96) s) else spdmRequest 0x83 ok [] s)

/-- A site's part of measurement 5: presence, discovery result, identity block. -/
def siteMeasure (s : State) (k : Nat) : List Byte :=
  leBytes 4 (b2n (s.org.csPresent.getD k false)) ++ leBytes 4 (b2n (siteUp s k))
    ++ (List.range 4).flatMap fun i => leBytes 4 (rd s (pUcie k + 1) (0x100 + 4 * i)).toNat

/-- The measurement blocks of R806. -/
def measurement (s : State) : Nat → List Byte
  | 1 => digestBytes Config.romDigest
  | 2 => (List.range 12).flatMap fun i => leBytes 4 (rd s pBoot (0x130 + 4 * i)).toNat
  | 3 =>
    let svn := rd s pBoot 0x124
    leBytes 4 (rd s pBoot 0x118).toNat ++ leBytes 4 (rd s pBoot 0x11C).toNat ++ leBytes 4 (rd s pBoot 0x120).toNat
      ++ leBytes 4 (fld svn 13 8) ++ leBytes 4 (fld (rd s pBoot 0x128) 9 8) ++ leBytes 4 (fld svn 5 0)
  | 4 => leBytes 4 s.org.order ++ leBytes 4 s.org.tilesPerDie ++ leBytes 4 s.org.variant
  | 5 => siteMeasure s 0 ++ siteMeasure s 1
  | 6 => leBytes 4 (rd s pBoot 0x100).toNat ++ leBytes 4 (b2n s.boot.test)
  | 7 => digestBytes (Config.sha384 s.mmc.bank)
  | _ => []

/-- GET_MEASUREMENTS: block `index`, all of them for 0xFF, their number for 0; signed on request. -/
def execGetMeasurements (index : Nat) (sign : Bool) (s : State) : Res :=
  let ok := decide (s.spdm.stage = 3) && (decide (index ≤ 7) || index == 0xFF)
  let data := if index = 0 then [7] else if index = 0xFF then (List.range 7).flatMap fun i => measurement s (i + 1)
    else measurement s index
  .next (if ok ∧ sign ∧ spdmUp s then tickFree 96 (spdmRequest 0xE0 true (data ++ freeBytes s 96) s)
    else spdmRequest 0xE0 ok data s)

/-- A session by its number. -/
def sessionOf (s : State) (id : Nat) : Option SpdmSession := s.spdm.sessions.find? fun x => x.id == id

/-- Whether a session is established. -/
def sessionUp (s : State) (id : Nat) : Bool := match sessionOf s id with | some x => x.established | none => false

/-- KEY_EXCHANGE: begins session `id`; at most 4 are open. -/
def execKeyExchange (id slot : Nat) (s : State) : Res :=
  let ok := decide (s.spdm.stage = 3) && decide (slot = 0) && decide (s.spdm.sessions.length < 4) && (sessionOf s id).isNone
  .next (if ok ∧ spdmUp s then spdmRequest 0xE4 true (leBytes 4 id) (setSessions (s.spdm.sessions ++ [{ id := id }]) s)
    else spdmRequest 0xE4 ok [] s)

/-- Change a session's record. -/
def onSession (id : Nat) (f : SpdmSession → SpdmSession) (s : State) : State :=
  { s with spdm := { s.spdm with sessions := s.spdm.sessions.map fun x => if x.id = id then f x else x } }

/-- FINISH completes a session that KEY_EXCHANGE began. -/
def execFinish (id : Nat) (s : State) : Res :=
  let ok := (sessionOf s id).isSome && !sessionUp s id
  .next (if ok ∧ spdmUp s then spdmRequest 0xE5 true [] (onSession id (fun x => { x with established := true }) s)
    else spdmRequest 0xE5 ok [] s)

/-- HEARTBEAT keeps an established session. -/
def execHeartbeatSpdm (id : Nat) (s : State) : Res := .next (spdmRequest 0xE8 (sessionUp s id) [] s)

/-- KEY_UPDATE rekeys an established session. -/
def execKeyUpdate (id : Nat) (s : State) : Res :=
  .next (if sessionUp s id ∧ spdmUp s then
      spdmRequest 0xE9 true [] (onSession id (fun x => { x with updates := x.updates + 1 }) s)
    else spdmRequest 0xE9 (sessionUp s id) [] s)

/-- END_SESSION closes an established session. -/
def execEndSession (id : Nat) (s : State) : Res :=
  .next (if sessionUp s id ∧ spdmUp s then
      spdmRequest 0xEC true [] (setSessions (s.spdm.sessions.filter fun x => x.id != id) s)
    else spdmRequest 0xEC (sessionUp s id) [] s)

/-! ### IDE (R823, R824) -/

/-- The IDE page (R851). -/
def pIde : Nat := pHostif + 3

/-- IDE_KM over an established session: the keys of a stream, 0 the link stream, are set, or it is stopped. -/
def execIdeKm (id stream : Nat) (on : Bool) (s : State) : Res :=
  let ok := sessionUp s id && decide (stream < 4)
  .next (if ok ∧ spdmUp s then
      doeAnswer 0 true [] (wr pIde 0x100 (setFld (rd s pIde 0x100) stream stream (b2n on)) s)
    else spdmRequest 0 ok [] s)

/-- IDE_FAIL: an integrity failure on a secure stream; the TLP or flit is dropped. -/
def execIdeFail (stream : Nat) (s : State) : Res :=
  if 4 ≤ stream ∨ !bitOf (rd s pIde 0x100) stream then .next s
  else .next (event pHostif 6 (satInc pIde 0x104 1 (wr pIde 0x100 (setFld (rd s pIde 0x100) stream stream 0) s)))

/-! ### The management controller (R832 to R836, R841, R842, R845) -/

/-- The status the MMC returns (R834); what needs the device is unavailable while it is unpowered (R836). -/
def mmcStatusOut (s : State) : Out :=
  .mmcStatus s.mmc.psStat
    (if s.power.up then (let w := rd s pBlocker 0x10C; some (fld w 12 0, fld w 14 13)) else none)
    (if s.power.up then some (rd s pBlocker 0x158) else none)
    (s.mmc.log.drop (s.mmc.log.length - 16))

/-- A management message, served once the MMC is ready (R836). -/
def mmcServe (f : State → State) (s : State) : Res := .next (if s.mmc.ready then f s else s)

/-- GET_STATUS. -/
def execGetStatus (s : State) : Res := mmcServe (fun s => emit (mmcStatusOut s) s) s

/-- READ_LOG from an index. -/
def mmcReadLog (start : Nat) (s : State) : State := emit (.mmcLog start (s.mmc.log.drop start)) s

def execReadLog (start : Nat) (s : State) : Res := mmcServe (mmcReadLog start) s

/-- CLEAR_ALERT. -/
def mmcClearAlert (s : State) : State := mmcLogAdd (.command 4) { s with alertN := false }

def execClearAlert (s : State) : Res := mmcServe mmcClearAlert s

/-- SET_CAP: 1,200 to 4,600 W; other values are refused (R834, R740). -/
def mmcSetCap (w : Nat) (s : State) : State :=
  if w < 1200 ∨ 4600 < w then emit (.mmcRefused 2) s
  else
    let s1 := mmcLogAdd (.command 2) { s with mmc := { s.mmc with cap := w } }
    if s.power.up then setClocks (capSync (wr pBlocker 0x104 (BitVec.ofNat 32 w) s1)) else s1

def execSetCap (w : Nat) (s : State) : Res := mmcServe (mmcSetCap w) s

/-- CLEAR_EFUSE: a latched eFuse is free to start again, under R722. -/
def execClearEfuse (s : State) : Res := mmcServe (fun s => efuseClear (mmcLogAdd (.command 3) s)) s

/-- MODULE_RESET: the eFuse turns off, which triggers the final journal (R764, R834); it starts again under R722. -/
def execModuleReset (m : PMeas) (s : State) : Res :=
  mmcServe (fun s =>
    let s1 := mmcLogAdd (.command 5) s
    if s1.power.up then losePower 0 .off m s1 else s1) s

/-- PLDM_MONITORING: a sensor's reading; what needs the device is unavailable while it is unpowered. `reading` is what the
MMC's own sensors measure. -/
def pldmValue (s : State) (sensor : PldmSensor) (reading : Nat) : Option Nat :=
  match sensor with
  | .dieTemp d => if s.power.up then (dieDeg s d).map degOf else none
  | .cap => if s.power.up then some (fld (rd s pBlocker 0x10C) 12 0) else none
  | .leak => some (b2n s.mmc.leak)
  | .efuse => some (match s.power.efuse with | .off => 0 | .on => 1 | .latched => 2)
  | .inputVoltage => some s.power.vin
  | _ => some reading

def execPldmMonitoring (sensor : PldmSensor) (reading : Nat) (s : State) : Res :=
  mmcServe (fun s => emit (.pldm sensor (pldmValue s sensor reading)) s) s

/-- PLDM_FIRMWARE_UPDATE: the MMC takes its own firmware into its spare bank, for its next restart. -/
def execPldmFirmwareUpdate (image : List Byte) (s : State) : Res :=
  mmcServe (fun s => emit .pldmFirmware { s with mmc := { s.mmc with spareBank := image, newBank := true } }) s

/-- AUX_POWER_UP: 3V3_AUX comes up: MOD_ID is sampled (R842), the bus is chosen (R832), PS_STAT begins anew (R775), and the MMC
runs the firmware of its newest bank (R833). Its log survives (R836). -/
def execAuxPowerUp (modId : Nat) (i3c : Bool) (s : State) : Res :=
  let m := s.mmc
  .next { s with mmc := { m with
    ready := true, modId := modId % 16, i3c := i3c, psStat := 0, cap := 4600, newBank := false, leak := false
    bank := if m.newBank then m.spareBank else m.bank
    spareBank := if m.newBank then m.bank else m.spareBank } }

/-- LEAK (R841, R853): ALERT_N is asserted, the MMC logs the leak, and its report reaches MMCBOX while the device is up. -/
def execLeak (s : State) : Res :=
  mmcServe (fun s =>
    let s1 := mmcLogAdd .leak { s with alertN := true, mmc := { s.mmc with leak := true } }
    if s1.power.up then event pMmcBox 1 s1 else s1) s

/-- FLOW_LOW (R845, R853): the coolant flow, in 0.1 L/min, lies below 6 L/min. The module keeps running. -/
def execFlowLow (flow : Nat) (s : State) : Res :=
  mmcServe (fun s =>
    if 60 ≤ flow then s
    else
      let s1 := emit (.pldmFlow flow) { s with alertN := true }
      if s1.power.up then event pMmcBox 2 s1 else s1) s

/-- A write of MB_CMD by the PF driver (R835, R853): GET_STATUS, CLEAR_ALERT and READ_LOG run; any other code completes as
refused. The response bytes are not laid out by the spec: MB_LEN and MB_DATA are free. -/
def mbCmd (data : Word) (s : State) : State :=
  if !s.mmc.ready then s
  else
    let code := fld data 7 0
    let known := code == 1 || code == 4 || code == 6
    let s1 :=
      if code = 1 then emit (mmcStatusOut s) s
      else if code = 4 then mmcClearAlert s
      else if code = 6 then mmcReadLog (rd s pMmcBox 0x104).toNat s
      else s
    let n := if known then 64 else 0
    let words := (List.range n).map fun i => BitVec.ofNat 32 (Config.freeValue (s1.freeCtr + 1 + i)).toNat
    let s2 := if known then wrWords pMmcBox 0x200 words
        (wr pMmcBox 0x10C (BitVec.ofNat 32 ((freeVal s1).toNat % 257)) (tickFree 65 s1)) else wr pMmcBox 0x10C 0 s1
    event pMmcBox 0 (wr pMmcBox 0x108 (BitVec.ofNat 32 (2 + 4 * b2n (!known))) s2)

end Sys2Proof.Machine
end

