-- ==== Sys2Proof/Machine/Regs.lean ====
section
/-! DEFINITION. Accesses to BAR0: the access masks (14_slices.md R638, R639), reads with their side effects
(02_register_pages.md R61 to R64; 01_organisation.md R51), writes to any register (R18, R61, R65, R759), events, error
records and snapshots as rows of their own (rows REGISTER_WRITE to DIST_UPDATE, EVT_STAT_CLEAR to SNAP_TRIG_ASSERT,
NOR_DATA_READ). A requester is a PCIe function, 0 to 63, or Holog, 64. -/

namespace Sys2Proof.Machine

/-! ### The access masks (R632, R638, R639) -/

/-- Registers that only Holog writes (R639). -/
def hologOnly (p off : Nat) : Bool :=
  match pageKind p with
  | some .tile => off == 0x120
  | some .cluster => decide (0x200 ≤ off) && decide (off ≤ 0x210)
  | some .segment => off == 0x10C
  | some .sdRepair => off == 0x100
  | some .lpChannel => off == 0x110
  | some .portOptics => off == 0x138
  | _ => false

/-- FN_GRANT of a function as the hub acts on it: bit 0 TILE, 1 PORT, 2 DIST, 3 PACE (R638, R664). -/
def granted (s : State) (fn n : Nat) : Bool := bitOf (stg s pHostif fn pProt 0x11C) n

/-- Whether a slice is an enabled slice of a function. -/
def ownSlice (s : State) (fn slice : Nat) : Bool := sliceEnabled s pHostif slice && sliceFunc s pHostif slice == fn

/-- Whether a tile's pages belong to a tile reserved to a slice of a function (R638). -/
def ownTile (s : State) (fn d u : Nat) : Bool :=
  let lt := logicalTile s d u
  lt != 0x3F && (match reservedTo s (12 * d + lt) with | some sl => sliceFunc s pHostif sl == fn | none => false)

/-- The slice whose pool PAGEALLOC extension 1 shows (R294). -/
def poolSel (s : State) : Nat := fld (rd s pPools 0x100) 5 0

/-- Whether a VF may read a register (R638). -/
def vfReads (s : State) (fn p off : Nat) : Bool :=
  let d := pageDie p
  let u := pageUnit p
  if d < 8 ∧ u < 15 then granted s fn 0 && ownTile s fn d u
  else
    match pageKind p with
    | some .dev => true
    | some .sliceTable =>
      decide (0x100 ≤ off) && ownSlice s fn (8 * (pageBlock p - 1) + (off - 0x100) / 0x1E0)
    | some .dspRings => decide (0x108 ≤ off) && decide (off < 0x11C)
    | some .walkers => decide (0x110 ≤ off) && decide (off < 0x12C)
    | some .paPools => if off = 0x100 then true else ownSlice s fn (poolSel s)
    | some .port | some .portOptics | some .portRoute | some .portCredit => granted s fn 1
    | some .dist => granted s fn 2
    | some .pace => granted s fn 3
    | _ => false

/-- Whether a VF may write a register with some data (R638). -/
def vfWrites (s : State) (fn p off : Nat) (data : DWord) : Bool :=
  match pageKind p with
  | some .dspRings => off == 0x108 || off == 0x10C
  | some .walkers => decide (0x110 ≤ off) && decide (off < 0x12C)
  | some .paPools =>
    if off = 0x100 then ownSlice s fn (data.toNat % 64)
    else (off == 0x118 || (decide (0x140 ≤ off) && decide (off < 0x160))) && ownSlice s fn (poolSel s)
  | _ => false

/-- Whether a requester may read a register: Holog and the PF any (R639). -/
def mayRead (s : State) (req p off : Nat) : Bool := req == 0 || decide (64 ≤ req) || vfReads s req p off

/-- An access of a VF is refused (R638): counted and recorded. -/
def denied (req off : Nat) (s : State) : State :=
  event pHubProt 0 (wr pHubProt 0x10C (BitVec.ofNat 32 (req % 64 + 64 * (off % 0x4000000))) (satInc pHubProt 0x108 1 s))

/-! ### What a register reads as -/

/-- The copy of a register that a requester meets: per function (R475, R530), or as a selector chooses. -/
def bankOf (s : State) (req p off : Nat) : Nat :=
  match pageKind p with
  | some .dspRings => if off = 0x108 then req else 0
  | some .walkers => if 0x110 ≤ off ∧ off < 0x128 then req else 0
  | some .dirtyLog => if 0x108 ≤ off then fld (rd s p 0x100) 5 0 else 0
  | some .paPools => if 0x104 ≤ off then poolSel s else 0
  | some .sdCounters => if 0x130 ≤ off then fld (rd s p 0x128) 3 0 else 0
  | some .prot => if off = 0x11C ∨ off = 0x120 then fld (rd s p 0x118) 5 0 else 0
  | some .blocker => if off = 0x144 then (let w := rd s p 0x140; fld w 7 0 + 256 * fld w 13 8) else 0
  | _ => 0

/-- RING_STAT of a ring (R530). -/
def ringStatWord (s : State) (ring : Nat) : Nat :=
  let r := ringSt s ring
  let st := match r.state with | .off => 0 | .active => 1 | .draining => 2 | .guilty => 3
  let waits := (ringCmds s ring).any fun c => c.status.isNone && (c.opc == 7 || c.opc == 9 || c.opc == 0x0A || orderHeld s c)
  st + 4 * min (inFlight s ring) 15 + 0x40 * b2n r.pend + 0x80 * b2n waits + 0x100 * r.gen.toNat

/-- The cases of R689 in which a started command is not runnable: waiting on a WAIT or barrier of its ring, held on
MIGRATING, waiting on a peer in HOLD. -/
def cmdStall (s : State) (c : Cmd) : Bool × Bool × Bool :=
  let parked := (liveTiles s c.ring c.no).any fun k =>
    (tileSt s (k / 15) (k % 15)).resident.any fun e => match e.2.parked with | some i => i.cause == 0x0F | none => false
  let msgs := s.xfer.msgs.filter fun m => m.ring == c.ring && m.no == c.no
  let held := parked || (s.xlate.heldStreams.any fun h => h.holder == pDispatch && h.stream == c.ring)
    || msgs.any (msgHeld s) || s.xfer.plans.any fun e => e.2.ring == c.ring && e.2.no == c.no && planHeld s e.1
  (c.opc == 7 || c.opc == 0x0A || orderHeld s c, held, msgs.any fun m => m.heldAt.isSome)

/-- WD_R_STAT of a ring (R689, R718). -/
def wdRingStat (s : State) (ring : Nat) : Nat :=
  let l := ((ringCmds s ring).filter fun c => c.status.isNone).map (cmdStall s)
  b2n (l.any fun x => !x.1 && !x.2.1 && !x.2.2) + 2 * b2n (l.any fun x => x.1) + 4 * b2n (l.any fun x => x.2.1)
    + 8 * b2n (l.any fun x => x.2.2)

/-- SL_STAT of a slice (R666), over the committed setup. -/
def sliceStatWord (s : State) (slice : Nat) : Nat :=
  let x := sliceSt s slice
  let en := bitOf (setupSl s.committed slice 0) 0
  let st := if !en then 0 else if x.contained then 2 else 1
  st + 4 * b2n x.quiet + 8 * x.gen.toNat + 0x800 * (setupTiles s s.committed slice).length
    + 0x40000 * (s.disp.moving.filter fun e => e.2.1 == slice).length

/-- The word of a register as a requester reads it, without the read's side effects. -/
def readWord (s : State) (req p off : Nat) : Word :=
  let key := regKey (bankOf s req p off) p off
  let stored := if isStg key ∧ bitOf (rd s pProt 0x104) 2 then sget regReset s.committed key else rdKey s key
  let w (n : Nat) : Word := BitVec.ofNat 32 n
  match pageKind p with
  | none => 0
  | some .dspRings =>
    let ring := ringSel s req
    let ok := fnMayRing s req ring
    if off = 0x110 then (if ok then w (ringStatWord s ring) else 0)
    else if off = 0x114 then (if ok then w (ringSt s ring).expSeq else 0)
    else if off = 0x118 then (if ok then w (ringSt s ring).lastSeq else 0)
    else if off = 0x11C then w (scanPend s)
    else stored
  | some .paPools => if 0x120 ≤ off ∧ off < 0x140 then w (laneFree s (poolSel s) ((off - 0x120) / 4)) else stored
  | some .portRoute =>
    let e := routeEntry s (6 * pageDie p + (pageUnit p - 36)) (fld (rd s p 0x100) 11 0)
    if off = 0x108 then w e else if off = 0x10C then w (e / 0x100000000) else stored
  | some .segRep =>
    if off = 0x100 then
      w (match logicalSeg s (pageDie p) (pageUnit p - 20) with | some g => (replicasIn s (pageDie p) g).length | none => 0)
    else stored
  | some .watchdog => if off = 0x130 then w (wdRingStat s (fld (rd s p 0x110) 12 0)) else regWord s p off
  | some .journal => if off = 0x114 then norData s else regWord s p off
  | some .sliceTable =>
    let sl := 8 * (pageBlock p - 1) + (off - 0x100) / 0x1E0
    let o := (off - 0x100) % 0x1E0
    if off < 0x100 then 0
    else if o = 0x08 then w (sliceStatWord s sl)
    else if o = 0x30 ∨ o = 0x34 then w (half 0x30 o (sget (fun _ => 0) s.power.sliceEnergy sl / 1000000))
    else stored
  | some .policy =>
    if off = 0x100 then
      let own := stored.toNat % 2
      w (own + 0x100 * b2n (bitOf (sget regReset s.committed key) 0) + 0x200 * b2n s.recov.running
        + 0x400 * b2n (s.recov.running && s.recov.order))
    else regWord s p off
  | some .lpChannel => if (memCtl s (pageDie p)).present.getD (pageBlock p - 1) false then regWord s p off else 0
  | some .chipletOwn => 0
  | some _ =>
    match specAt p off with
    | some r => if r.acc = .wo then 0 else match live s p off with | some v => w v | none => stored
    | none => regWord s p off

/-- Offsets of the low words of 64-bit counters and timestamps among a kind's own registers. -/
def counterOffs (k : PageKind) : List Nat :=
  match k with
  | .snapUnit => [0x120] | .cluster => [0x108, 0x110] | .segRep => [0x108, 0x110] | .dispatch | .standby => [0x118]
  | .port => [0x120] | .colLag => [0x110] | .intr => [0x100] | .watchdog => [0x118, 0x120, 0x128, 0x138]
  | .pwrtherm => [0x120] | .droop => [0x108] | .blocker => [0x120, 0x128, 0x138, 0x160] | .hiPcie => [0x108] | .dev => [0x100]
  | _ => []

/-- Whether a word is the low word of a 64-bit counter or timestamp (R63): progress counters, SNAP_TS, the counters of the
kinds, energy, tasks and bytes of a slice. -/
def isCounter64 (p off : Nat) : Bool :=
  if off < 0x100 then hasHeader p && (off == 0x80 || (decide (0x40 ≤ off) && decide (off < 0x80) && off % 8 == 0))
  else
    match pageKind p with
    | some .sliceTable => [0x30, 0x38, 0x40].contains ((off - 0x100) % 0x1E0)
    | some k => (counterOffs k).contains off
    | none => false

/-- A requester's shadow (R63). -/
def shadowOf (s : State) (req : Nat) : Option Shadow := slook s.shadows req

/-- What an aligned 32-bit read of BAR0 returns, and the state after it (R51, R61 to R64, R638): the shadow, and the
registers that a read changes. -/
def read32 (req off : Nat) (s : State) : Nat × State :=
  let p := off / 0x1000
  let o := off % 0x1000
  if 0x4000000 ≤ off then (0, s)
  else if !mayRead s req p o then (0, denied req off s)
  else if !pagePresent s p then (0, s)
  else
    let v := (readWord s req p o).toNat
    if isCounter64 p o then
      (v, { s with shadows := sadd s.shadows req { off := off, high := readWord s req p (o + 4) } })
    else if 4 ≤ o ∧ isCounter64 p (o - 4) then
      (match shadowOf s req with | some x => if x.off + 4 = off then x.high.toNat else v | none => v, s)
    else
      match pageKind p with
      | some .dist =>
        let i := rd s pDist 0x100
        (v, if o = 0x104 ∧ bitOf i 31 then wr pDist 0x100 (setFld i 13 0 (fld i 13 0 + 1)) s else s)
      | some .journal => (v, if o = 0x114 then norRead s else s)
      | some .portRoute =>
        let i := rd s p 0x100
        (v, if o = 0x10C ∧ bitOf i 31 then wr p 0x100 (setFld i 11 0 (fld i 11 0 + 1)) s else s)
      | _ => (v, s)

/-- A 32-bit read with its answer. -/
def readOut (req off : Nat) (s : State) : State := let r := read32 req off s; emit (.readData req off r.1) r.2

/-- LOW_WORD_READ: a naturally aligned 32-bit read. -/
def execLowWordRead (req off : Nat) (s : State) : Res := if off % 4 ≠ 0 then .next s else .next (readOut req off s)

/-- DIST_DATA_READ (R51). -/
def execDistDataRead (req : Nat) (s : State) : Res := .next (readOut req (pDist * 0x1000 + 0x104) s)

/-- NOR_DATA_READ (R810). -/
def execNorDataRead (req : Nat) (s : State) : Res := .next (readOut req (pJournal * 0x1000 + 0x114) s)

/-- BAD_REG_ACCESS (R62): a narrow read within one word returns its bytes, with the side effects of the 32-bit read; every
other such access does nothing but set BAD_REG_ACCESS, a read returning 0 in every byte. -/
def badRegAccess (req off bytes : Nat) (write : Bool) (s : State) : State :=
  if bytes = 0 ∨ ((bytes = 4 ∨ bytes = 8) ∧ off % bytes = 0) then s
  else if write then event pHostif 0 s
  else if bytes < 4 ∧ off % 4 + bytes ≤ 4 then
    let r := read32 req (off / 4 * 4) s
    emit (.readData req off (r.1 / 2 ^ (8 * (off % 4)) % 2 ^ (8 * bytes))) r.2
  else event pHostif 0 (emit (.readData req off 0) s)

def execBadRegAccess (req off bytes : Nat) (write : Bool) (s : State) : Res := .next (badRegAccess req off bytes write s)

/-! ### Snapshots by register and pin (R93, R94, R97, R840) -/

/-- A write of SNAP_FIRE. -/
def snapFire (s : State) : State := snapTrigger 2 s

/-- A write of SNAP_RELEASE (R97): the unit is armed again. Windows keep their contents until then, so what they hold
afterwards is free. -/
def snapRelease (s : State) : State :=
  if !snapLatched s then wr pSnap 0x10C (rd s pSnap 0x10C ||| 1) s
  else
    let pages := allHeaderPages.filter (pagePresent s)
    let s1 := pages.zipIdx.foldl (fun t e =>
      wrWords e.1 0x80 ((List.range 32).map fun i => BitVec.ofNat 32 (Config.freeValue (s.freeCtr + 32 * e.2 + i)).toNat) t) s
    tickFree (32 * pages.length) (wr pSnap 0x10C (BitVec.ofNat 32 (1 + 0x100 * fld (rd s pSnap 0x10C) 15 8)) s1)

def execSnapFire (s : State) : Res := .next (snapFire s)
def execSnapRelease (s : State) : Res := .next (snapRelease s)

/-- SNAP_TRIG_ASSERT: the pin is asserted, debounced; at most one trigger in 100 µs. -/
def snapPin (s : State) : State :=
  match s.snap.lastPin with
  | some t =>
    if s.now < t + 100000 then satInc pSnap 0x118 1 s
    else
      let s1 : State := { s with snap := { s.snap with lastPin := some s.now } }
      if bitOf (rd s pSnap 0x100) 0 then snapTrigger 1 s1 else s1
  | none =>
    let s1 : State := { s with snap := { s.snap with lastPin := some s.now } }
    if bitOf (rd s pSnap 0x100) 0 then snapTrigger 1 s1 else s1

def execSnapTrigAssert (s : State) : Res := .next (if s.power.up then snapPin s else s)

/-! ### Writes -/

/-- The state a meaning answers; a stop leaves the state as it was. -/
def resState (s : State) (r : Res) : State := match r with | .next t => t | _ => s

/-- A write of 1 to clear: the bits of one word. -/
def w1cWord (bank p off : Nat) (v : Word) (s : State) : State :=
  match specAt p off with
  | some r => wrB bank p off (rdB s bank p off &&& ~~~(v &&& r.wordMask off)) s
  | none => s

/-- A write to a header register (R71, R74, R80 to R87). -/
def writeHeader (p off : Nat) (w : Word) (s : State) : State :=
  match off with
  | 0x08 => ctrlWrite p w s
  | 0x10 => if isGroupPage p then s else dropEvt p w s
  | 0x14 => writeEvtEn p w s
  | 0x18 => if isGroupPage p then s else raiseEvt p (w &&& 0xEFFFFFFF) s
  | 0x1C => wr p 0x1C (w &&& 0xFFFFF) s
  | 0x20 => if bitOf w 31 then clearErr p s else s
  | _ => s

/-- A write to a register without an action of its own, by its access code (R18). -/
def writePlain (bank p off : Nat) (data : DWord) (wide : Bool) (s : State) : State :=
  match specAt p off with
  | none => s
  | some r =>
    match r.acc with
    | .ro | .wo => s
    | .w1c =>
      let s1 := w1cWord bank p off (BitVec.ofNat 32 data.toNat) s
      if wide then w1cWord bank p (off + 4) (BitVec.ofNat 32 (data.toNat / 0x100000000)) s1 else s1
    | _ => stReg bank p off data wide s

/-- RP_CMD (R427): ignored while a repair is busy. -/
def rpCmdWrite (d : Nat) (w : Word) (s : State) : State :=
  match fld w 25 24 with
  | 1 => repairRow d (fld w 5 0) (fld w 10 6) (fld w 23 11) [] s
  | 2 => repairBank d (fld w 5 0) (fld w 10 6) (fld w 23 11) s
  | _ => s

/-- PARK_CTRL (R146, R151). -/
def parkCtrlWrite (d u : Nat) (w : Word) (s : State) : State :=
  match fld w 7 6 with
  | 1 => parkReplay d u (fld w 5 0) (fld w 15 8) s
  | 2 => parkDiscard d u (fld w 5 0) (fld w 15 8) s
  | _ => s

/-- A write of RING_SEL (R530): selecting a ring of another function sets BAD_RING. -/
def ringSelWrite (req : Nat) (data : DWord) (s : State) : State :=
  let s1 := stReg req pDspRings 0x108 data false s
  if fnMayRing s1 req (ringSel s1 req) then s1 else badRing s1

/-- PROT_CTRL (R664): DISCARD over COMMIT, and VIEW. -/
def protCtrlWrite (data : DWord) (s : State) : State :=
  let s1 := stReg 0 pProt 0x104 data false s
  if data.toNat / 2 % 2 = 1 then discard s1 else if data.toNat % 2 = 1 then commit s1 else s1

/-- SEG_MIGRATE (R348, R351). -/
def segMigrateWrite (d u : Nat) (data : DWord) (s : State) : State :=
  let w := BitVec.ofNat 32 data.toNat
  if bitOf w 6 then resState s (execSegMigrate d u (fld w 5 0) s) else stReg 0 (pSegment d u) 0x10C data false s

/-- A write of a block-specific register of a compute die or a chiplet site, of `data`, at the requester's bank. -/
def writeDie (k : PageKind) (bank p off : Nat) (data : DWord) (wide : Bool) (s : State) : State :=
  let d := pageDie p
  let u := pageUnit p
  let port := 6 * d + (u - 36)
  let w : Word := BitVec.ofNat 32 data.toNat
  let plain := writePlain bank p off data wide
  match k, off with
  | .tile, 0x120 => parkCtrlWrite d u w s
  | .cluster, 0x200 | .cluster, 0x204 | .cluster, 0x208 => if u = 16 then parkRingConfigWrite d off data wide s else s
  | .cluster, 0x210 => if u = 16 then plain s else s
  | .segment, 0x100 => resState s (execSegCfgWrite d (u - 20) w s)
  | .segment, 0x10C => segMigrateWrite d (u - 20) data s
  | .segRep, 0x118 => if bitOf w 0 then resState s (execRepFlush d (u - 20) s) else s
  | .port, 0x100 => nodeIdWrite port w s
  | .port, 0x10C => linkCmdWrite port w s
  | .portOptics, 0x138 => lambdaCmd port w s
  | .portRoute, 0x108 | .portRoute, 0x10C => rtEntryWrite port off data wide s
  | .portCredit, 0x100 => crCfgWrite port w s
  | .sdRepair, 0x100 => rpCmdWrite d w s
  | .sdCounters, 0x100 | .sdCounters, 0x130 | .sdCounters, 0x134 | .sdCounters, 0x138 => accessCounterConfigWrite d off data wide s
  | .sdCounters, 0x110 | .sdCounters, 0x114 | .sdCounters, 0x118 => notifyConfigWrite d off data wide s
  | .lpChannel, 0x110 =>
    if bitOf w 24 then hpprRecord d (pageBlock p - 1) w s else sppr d (pageBlock p - 1) w true s
  | .lpChannel, _ => if (memCtl s d).present.getD (pageBlock p - 1) false then plain s else s
  | .walkers, 0x128 => invGo d bank (fld w 15 0) s
  | .dirtyLog, 0x108 | .dirtyLog, 0x10C | .dirtyLog, 0x110 => dlConfigWrite d off data wide s
  | .copygrp, 0x10C => xeFlowReset w s
  | .chipletOwn, _ => s
  | _, _ => plain s

/-- A write of a block-specific register of the hub or of the device level. -/
def writeHub (k : PageKind) (req bank p off : Nat) (data : DWord) (wide : Bool) (s : State) : State :=
  let w : Word := BitVec.ofNat 32 data.toNat
  let plain := writePlain bank p off data wide
  match k, off with
  | .dspRings, 0x100 | .dspRings, 0x104 => rtBaseWrite off data wide s
  | .dspRings, 0x108 => ringSelWrite req data s
  | .dspRings, 0x10C => ringCtrlBy req w s
  | .dispatch, 0x104 | .standby, 0x104 => dispSync (plain s)
  | .snapUnit, 0x104 => if bitOf w 0 then snapFire s else s
  | .snapUnit, 0x108 => if bitOf w 0 then snapRelease s else s
  | .boot, 0x110 => bootCmdWrite w s
  | .boot, 0x170 | .boot, 0x174 | .boot, 0x178 => logBaseWrite off data wide s
  | .watchdog, 0x10C => wdDeclare w s
  | .watchdog, 0x14C => hbStatWrite w s
  | .watchdog, 0x15C => if bitOf w 0 then hatTrigger 6 s else s
  | .mmcbox, 0x100 => mbCmd w s
  | .prot, 0x104 => protCtrlWrite data s
  | .slice, 0x198 => if bitOf w 0 then migLoad s else s
  | .sliceTable, _ =>
    if off < 0x100 then s
    else if (off - 0x100) % 0x1E0 = 4 then slCtrlWrite (8 * (pageBlock p - 1) + (off - 0x100) / 0x1E0) w s
    else plain s
  | .blocker, 0x100 => blkCapWrite w s
  | .blocker, 0x108 | .blocker, 0x144 => setClocks (plain s)
  | .blocker, 0x168 => holdTest w s
  | _, _ => plain s

/-- One write reaches its register: `wide` only for a 64-bit register. -/
def writeOne (req off : Nat) (data : DWord) (wide : Bool) (s : State) : State :=
  let p := off / 0x1000
  let o := off % 0x1000
  match pageKind p with
  | none => s
  | some k =>
    if !pagePresent s p then s
    else if o < 0x100 then (if k.hasHeader then writeHeader p o (BitVec.ofNat 32 data.toNat) s else s)
    else
      let bank := if k = .walkers ∧ o = 0x128 then req else bankOf s req p o
      if pageDie p < 8 ∨ pageDie p = 9 ∨ pageDie p = 10 then writeDie k bank p o data wide s
      else writeHub k req bank p o data wide s

/-- Whether a 64-bit write at an offset is one access: to a 64-bit register, or to both words of a routing entry (R61,
R582). -/
def oneAccess (p off : Nat) : Bool :=
  match specAt p off with
  | some r => decide (0x100 ≤ off) && ((r.wide && off % 8 == r.off % 8) || (pageKind p == some .portRoute && off == 0x108))
  | none => false

/-- A write takes effect: a 64-bit access to two 32-bit registers acts as two, low word first (R61). -/
def writeNow (req off : Nat) (data : DWord) (wide : Bool) (s : State) : State :=
  if !wide then writeOne req off data false s
  else if oneAccess (off / 0x1000) (off % 0x1000) then writeOne req off data true s
  else writeOne req (off + 4) (data >>> 32) false (writeOne req off (BitVec.ofNat 64 (data.toNat % 0x100000000)) false s)

/-- Whether a page's writes take effect at once in HOLD: hub pages and die 15 (R759). -/
def holdOpen (p : Nat) : Bool := pageDie p == 8 || pageDie p == 15

/-- A write waits for resumption (R759). -/
def holdWrite (req off : Nat) (data : DWord) (wide : Bool) (s : State) : State :=
  { s with power := { s.power with hold := { s.power.hold with writes := s.power.hold.writes ++ [(req, off, data, wide)] } } }

/-- Whether a requester may write a register (R638, R639). -/
def mayWrite (s : State) (req p off : Nat) (data : DWord) : Bool :=
  decide (64 ≤ req) || (if req = 0 then !hologOnly p off else vfWrites s req p off data)

/-- A register write (R18, R61, R62, R64, R638, R639, R759). The PF's write of a register that only Holog writes is
ignored; a VF's write of what it may not write is also counted. -/
def regWrite (req off : Nat) (data : DWord) (wide : Bool) (s : State) : State :=
  let p := off / 0x1000
  if off % (if wide then 8 else 4) ≠ 0 then event pHostif 0 s
  else if 0x4000000 ≤ off then s
  else if !mayWrite s req p (off % 0x1000) data then (if req = 0 then s else denied req off s)
  else if s.inHold ∧ !holdOpen p then holdWrite req off data wide s
  else writeNow req off data wide s

def execRegisterWrite (req off : Nat) (data : DWord) (wide : Bool) (s : State) : Res := .next (regWrite req off data wide s)

/-! ### Rows of the header's own (R19, R71, R81, R84, R85) -/

/-- EVT_STAT_CLEAR: bits written 1 clear, but for those that hardware sets in the same cycle. -/
def evtStatClear (page : Nat) (bits hwSet : Word) (s : State) : State :=
  if !hasHeader page ∨ isGroupPage page ∨ !pagePresent s page then s
  else
    let s1 := raiseEvt page hwSet s
    if s1.inHold ∧ !holdOpen page then holdWrite 0 (page * 0x1000 + 0x10) (BitVec.ofNat 64 bits.toNat) false s1
    else dropEvt page (bits &&& ~~~hwSet) s1

def execEvtStatClear (page : Nat) (bits : Word) (hwSet : Word) (s : State) : Res := .next (evtStatClear page bits hwSet s)

/-- EVT_FORCE, written by the PF. -/
def execEvtForce (page : Nat) (bits : Word) (s : State) : Res :=
  .next (regWrite 0 (page * 0x1000 + 0x18) (BitVec.ofNat 64 bits.toNat) false s)

/-- ERR_CODE_CLEAR: ERR_CODE.VALID is written 1 by the PF. -/
def execErrCodeClear (page : Nat) (s : State) : Res := .next (regWrite 0 (page * 0x1000 + 0x20) 0x80000000 false s)

/-- DIST_UPDATE (R52): Holog writes changed entries. -/
def execDistUpdate (changes : List (Nat × Word)) (s : State) : Res := .next (distUpdate changes s)

end Sys2Proof.Machine
end

