-- ==== Sys2Proof/Machine/Resume.lean ====
section
/-! DEFINITION. Resumption from HOLD (16_power.md R757 to R762; 12_birore_links.md R574, R575; row RESUMPTION). -/

namespace Sys2Proof.Machine

/-- A unit leaves HOLD in the state it held at entry (R76). -/
def resumeUnit (s : State) (p : Nat) : State :=
  if (unitSt s p).state = .hold then setUState p (unitSt s p).held false s else s

/-- A port leaves STANDBY (R543, R574, R575): light lost for 100 µs takes it to DOWN; UP sends RESUME and retrains, and a
retrain begins again; any step of training starts again at DETECT; OFF and DOWN stay. -/
def resumePort (s : State) (k : Nat) : State :=
  let p := portSt s k
  if portLState s k ≠ 9 then s
  else
    let s1 := setLState k p.before (setPort k { p with lostLight := false } s)
    if p.before = 0 ∨ p.before = 8 then s1
    else if p.lostLight then portDown k 1 s1
    else if p.before = 6 ∨ p.retraining then enterRetrain k (emit (.linkMsg k (.resume (nodeId s))) s1)
    else enterDetect k s1

/-- A die's memory leaves self-refresh. -/
def resumeMem (s : State) (d : Nat) : State := setMemCtl d { memCtl s d with selfRefresh := false } s

/-- An entry of a lag table restarts from empty windows (R623). -/
def LagEntry.restart (e : LagEntry) : LagEntry := { e with charged := 0, win := 0, windows := 0, lagging := false }

/-- Clocks that stopped in HOLD for `dur` ns go on where they stood (R758, R791). -/
def resumeClocks (dur : Nat) (s : State) : State :=
  { s with
    xfer := { s.xfer with
      msgs := s.xfer.msgs.map fun m => { m with heldAt := m.heldAt.map fun t => t + dur }
      lag := s.xfer.lag.map fun e => (e.1, e.2.map LagEntry.restart)
      plans := s.xfer.plans.map fun e => (e.1, { e.2 with waitFrom := e.2.waitFrom.map fun _ => s.now }) }
    recov := { s.recov with hbLast := none }
    boot := { s.boot with startAt := s.boot.startAt + dur } }

/-- HOLD_STAT, HOLD_LAST_US and HOLD_NS at the end of a HOLD (R775). -/
def holdCounts (dur : Nat) (s : State) : State :=
  add64 pBlocker 0x160 dur (wr pBlocker 0x15C (sat32 (dur / 1000))
    (wr pBlocker 0x158 (setFld (rd s pBlocker 0x158) 0 0 0)
      (wr pBlocker 0x10C (setFld (rd s pBlocker 0x10C) 17 17 0) s)))

/-- A boot that HOLD paused goes on (R791): the image check restarts, the ROM runs after a reset, its checks stand. -/
def resumeBoot (s : State) : State :=
  if phase s = 3 then imageCheck s
  else if phase s = 0 ∧ !s.boot.perst then romRun s
  else maybeWait s

/-- What waited for resumption is applied (R759, R762): writes in the order received, faults, FLRs, host accesses and
snapshot triggers. -/
def applyHeld (h : HoldSt) (s : State) : State :=
  let s1 := h.writes.foldl (fun t w => writeNow w.1 w.2.1 w.2.2.1 w.2.2.2 t) s
  let s2 := h.faults.foldl (fun t f => unitFault f.1 f.2.1 f.2.2 t) s1
  let s3 := h.flr.foldl (fun t fn => flrVf fn t) s2
  let s4 := h.host.foldl hostServe s3
  s4.snap.waiting.foldl (fun t w => fabSnap w.1 w.2.1 w.2.2 t) { s4 with snap := { s4.snap with waiting := [] } }

/-- RESUMPTION: with no cause of HOLD left, every unit resumes (R760, R761). A device reset that waited follows; the host
link that PERST_N took down has retrained in the meantime. -/
def resumption (s : State) : State :=
  if !s.inHold ∨ holdCauses s ≠ 0 ∨ !s.power.up then s
  else
    let h := s.power.hold
    let dur := s.now - h.enteredAt
    let s1 : State := { s with inHold := false, power := { s.power with hold := { enteredAt := h.enteredAt } } }
    let s2 := (List.range 8).foldl resumeMem (resumeClocks dur (holdCounts dur s1))
    let s3 := (List.range 48).foldl resumePort ((allHeaderPages.filter isLeaf).foldl resumeUnit s2)
    let s4 := setClocks (capSync (dispSync (applyHeld h (if h.reset.isSome then s3 else resumeBoot s3))))
    let s5 := pump (commitFollow (pacePublish none (event pBlocker 4 s4)))
    match h.reset with
    | some c =>
      let link := rd s5 pHostif 0x100
      let s6 := wr pHostif 0x100 link (deviceReset c [] s5)
      if c = 1 ∧ !s6.boot.perst then romRun s6 else s6
    | none => s5

def execResumption (s : State) : Res := .next (resumption s)

end Sys2Proof.Machine
end

