-- ==== Sys2Proof/Machine/KernelMem.lean ====
section
/-! DEFINITION. The memory instructions of thread groups (03_tiles.md R116 to R127, R131, R132; 08_memory_model.md R367
to R371; R857): loads, stores, fences and atomics, and the rows BANK_CONFLICT_REPLAY, PARTIAL_OVERLAP_REPLAY and
STORE_BUFFER_DRAIN. -/

namespace Sys2Proof.Machine

/-! ### Addresses of a group's access -/

/-- A thread's access to the scratchpad: thread, target tile unit, offset. -/
structure ScratchAcc where
  thread : Nat
  tile : Nat
  off : Nat
deriving DecidableEq, Repr

/-- A thread's access to memory: thread, and its translated parts. -/
structure MemAcc where
  thread : Nat
  parts : List Piece
deriving DecidableEq, Repr

/-- How the addresses of an instruction's active threads resolve: scratchpad or memory accesses, an illegal scratchpad
address, a translation that misses, a translation that faults. -/
inductive Addrs where
  | scratch (l : List ScratchAcc)
  | mem (l : List MemAcc)
  | illegal
  | miss (va : Nat)
  | fault (va cls detail : Nat)
deriving DecidableEq, Repr

/-- The target tile and offset of a scratchpad address for `n` bytes (R117, R131). -/
def scratchTarget (k : Task) (u a n : Nat) : Option (Nat × Nat) :=
  let x := a % 0x4000000
  let tsel := x / 0x800000
  let off := x % 0x800000
  if scratchSize k.l1 < off + n then none
  else if tsel = 7 ∨ tsel = k.member then some (u, off)
  else if tsel < k.cw ∧ tsel < 4 then some (k.setTiles.getD tsel u, off)
  else none

/-- The scratchpad accesses of threads, or none where an address is illegal. -/
def scratchAccs (k : Task) (u n : Nat) (gr : Group) (f : AddrForm) : List Nat → Option (List ScratchAcc)
  | [] => some []
  | t :: rest =>
    match scratchTarget k u (formAddr f gr t) n with
    | none => none
    | some (tile, off) => (scratchAccs k u n gr f rest).map fun l => { thread := t, tile := tile, off := off } :: l

/-- Translate the parts of one thread's access through the tile's entries. -/
def lookupParts (s : State) (hp pasid : Nat) (kind : AccKind) : List (Nat × Nat) → Addrs
  | [] => .mem [{ thread := 0, parts := [] }]
  | p :: rest =>
    match lookupX s hp pasid p.1 kind with
    | .miss => .miss p.1
    | .fault c dt => .fault p.1 c dt
    | .ok pa leaf =>
      match lookupParts s hp pasid kind rest with
      | .mem (m :: _) => .mem [{ m with parts := { va := p.1, pa := pa, len := p.2, leaf := leaf.toNat } :: m.parts }]
      | r => r

/-- The memory accesses of threads: the first miss or fault in thread order decides (R122). -/
def memAccs (s : State) (hp pasid : Nat) (kind : AccKind) (n : Nat) (gr : Group) (f : AddrForm) : List Nat → Addrs
  | [] => .mem []
  | t :: rest =>
    match lookupParts s hp pasid kind (frames (formAddr f gr t % 2 ^ 64) n) with
    | .mem (m :: _) =>
      match memAccs s hp pasid kind n gr f rest with
      | .mem l => .mem ({ m with thread := t } :: l)
      | r => r
    | r => r

/-- The accesses of an instruction's active threads. -/
def accesses (s : State) (g : GRef) (k : Task) (gr : Group) (sp : Space) (f : AddrForm) (kind : AccKind) (n : Nat) : Addrs :=
  match sp with
  | .scratch => match scratchAccs k g.unit n gr f gr.active with | some l => .scratch l | none => .illegal
  | .mem => memAccs s (pTlb g.die g.unit) k.pasid kind n gr f gr.active

/-- What ends an instruction whose addresses do not resolve: a park, or a walk (R109, R142). -/
def addrsEnd (g : GRef) (k : Task) (gr : Group) (kind : AccKind) (a : Addrs) (s : State) : State :=
  match a with
  | .illegal => parkIllegal g.die g.unit g.slot gr.pc 0x13 s
  | .miss va => groupMiss g.die g.unit g.slot k.pasid va kind s
  | .fault va c dt =>
    parkXlate g.die g.unit g.slot gr.pc va c dt
      (recordXFault (pTlb g.die g.unit) (holderDie (pTlb g.die g.unit)) c dt k.pasid va s)
  | _ => s

/-- The order in which a group's threads reach their targets where the spec gives none: free. -/
def freeOrder : Nat → Nat → List Nat → List Nat
  | 0, _, l => l
  | n + 1, c, l =>
    if l.length ≤ 1 then l
    else
      let i := (Config.freeValue c).toNat % l.length
      l.getD i 0 :: freeOrder n (c + 1) (l.eraseIdx i)

/-- The bytes of a register operand of a thread: little-endian over consecutive registers. -/
def regBytes (gr : Group) (t src n : Nat) : List Byte :=
  ((List.range ((n + 3) / 4)).flatMap fun i => leBytes 4 (gr.reg t (src + i)).toNat).take n

/-- The registers of `n` bytes from `r`. -/
def regSpan (r n : Nat) : List Nat := (List.range ((n + 3) / 4)).map fun i => r + i

/-- Write `bs` to a thread's registers from `dst`, the last word zero-extended. -/
def putRegs (t dst : Nat) (bs : List Byte) (gr : Group) : Group :=
  (List.range ((bs.length + 3) / 4)).foldl
    (fun x i => x.setReg t (dst + i) (BitVec.ofNat 32 (leNat ((bs.drop (4 * i)).take 4)))) gr

/-- The sizes of plain loads and stores. -/
def accSize (n : Nat) : Bool := [1, 2, 4, 8, 16].contains n

/-! ### Store-buffer checks of a load (R124) -/

/-- The key of a byte in a store buffer: its space, tile and offset, or its physical address. -/
structure ByteKey where
  scratch : Bool
  tile : Nat
  addr : Nat
deriving DecidableEq, Repr

/-- The byte an entry holds for a key; DEVICE-type entries are never forwarded (R126). -/
def SbEntry.find (e : SbEntry) (k : ByteKey) : Option Byte :=
  if e.device || e.scratch != k.scratch || (e.scratch && e.tile != k.tile) then none else slook e.bytes k.addr

/-- What a load of some bytes meets in a store buffer: nothing, one entry that holds every byte, a partial overlap. -/
inductive Fwd where
  | none | all (l : List Byte) | overlap
deriving DecidableEq, Repr

/-- Check one thread's bytes against a store buffer, oldest entry first (R124). -/
def sbCheck (sb : List SbEntry) (keys : List ByteKey) : Fwd :=
  match sb.reverse.find? fun e => keys.any fun k => (e.find k).isSome with
  | none => .none
  | some e => if keys.all fun k => (e.find k).isSome then .all (keys.map fun k => (e.find k).getD 0) else .overlap

/-- The keys of a scratchpad access. -/
def scratchKeys (a : ScratchAcc) (n : Nat) : List ByteKey := (List.range n).map fun i => ⟨true, a.tile, a.off + i⟩

/-- The keys of the non-DEVICE parts of a memory access. -/
def memKeys (a : MemAcc) : List ByteKey :=
  (a.parts.filter fun p => p.mtype != 3).flatMap fun p => (List.range p.len).map fun i => ⟨false, 0, p.pa + i⟩

/-- The keys of each access of an instruction. -/
def allKeys (n : Nat) : Addrs → List (List ByteKey)
  | .scratch l => l.map fun a => scratchKeys a n
  | .mem l => l.map memKeys
  | _ => []

/-- A core's replay queue. -/
def replaysOf (t : TileSt) (core : Nat) : List Replay := sget (fun _ => []) t.replays core

def setReplays (d u core : Nat) (l : List Replay) (s : State) : State :=
  let t := tileSt s d u
  setTile d u { t with replays := sput (fun _ => []) t.replays core l } s

/-! ### The end of a load -/

/-- What a load's completion does (R122, R370): its registers are written; an acquire then invalidates L1. -/
def invalidateL1 (g : GRef) (k : Task) (range : Option (Nat × Nat)) (s : State) : State :=
  match range with
  | none => l1Clear g.die g.unit s
  | some (base, len) =>
    let parts := frames base len
    let pas := parts.map fun p => (lookupX s (pTlb g.die g.unit) k.pasid p.1 .read, p.2)
    let known := pas.all fun p => match p.1 with | .ok _ _ => true | _ => false
    if 0x1000000 < len || !known then l1Clear g.die g.unit s
    else
      let t := tileSt s g.die g.unit
      let hit (sector : Nat) : Bool := pas.any fun p => match p.1 with
        | .ok pa _ => decide (sector * 256 < pa + p.2) && decide (pa < sector * 256 + 256)
        | _ => false
      setTile g.die g.unit { t with l1 := t.l1.filter fun e => !hit e.1 } s

/-- Count the lookups of an instruction's memory accesses (R473). -/
def countLookups (g : GRef) (sp : Space) (n : Nat) (s : State) : State :=
  if sp = .mem then addProg (pTlb g.die g.unit) 2 n s else s

/-- A load completes with the bytes of each active thread: by `f`. -/
def loadDone (g : GRef) (k : Task) (gr : Group) (ins : LoadIns) (f : Nat → List Byte) (s : State) : State :=
  let gr1 := gr.active.foldl (fun x t => putRegs t ins.dst (f t) x) { gr with load := none, wait := .ready }
  let s0 := countLookups g ins.space gr.active.length s
  let s1 := addProg (vcPage g.die g.unit g.slot) 1 (gr.active.length * ins.bytes) (finishIns g k gr1 s0)
  if ins.acq then invalidateL1 g k ins.range s1 else s1

/-- A load that met poisoned data parks its group (R120, R142). -/
def loadPoison (g : GRef) (i : ParkInfo) (s : State) : State :=
  match groupOf (tileSt s g.die g.unit) g.slot with
  | some gr => park g.die g.unit g.slot i (setGroup g.die g.unit g.slot { gr with load := none } s)
  | none => s

/-- The park of a load that met poisoned data at an address. -/
def poisonPark (gr : Group) (addr : Nat) (valid : Bool) : ParkInfo :=
  { cause := 0x20, addr := addr, addrValid := valid, pc := gr.pc, cls := 0x20, detail := 0x20 }

/-- A load that waits ends once its last request is served (R116, R829). -/
def loadCheck (d u slot : Nat) (s : State) : State :=
  let t := tileSt s d u
  match t.task, groupOf t slot with
  | some k, some gr =>
    match gr.load with
    | none => s
    | some pl =>
      let g : GRef := ⟨d, u, slot⟩
      if (replaysOf t (slot / 16)).any fun r => r.slot == slot && r.overlap.isNone then s
      else if s.host.raw.any fun r => r.slot == some (d, u, slot) && !r.write then s
      else
        match pl.poison with
        | some i => loadPoison g i s
        | none =>
          loadDone g k gr pl.ins (fun th => (List.range pl.ins.bytes).map fun i => sget (fun _ => 0) pl.got (th * 64 + i)) s
  | _, _ => s

/-- Bytes of a thread put among those that have arrived. -/
def gotPut (thread first : Nat) (bs : List Byte) (l : List Cell) : List Cell :=
  bs.zipIdx.foldl (fun m b => sadd m (thread * 64 + first + b.2) b.1) l

/-! ### Scratchpad loads (R114 to R116) -/

/-- The distinct 64 B rows of scratchpad accesses, in thread order: tile and row. -/
def rowsOf (n : Nat) (l : List ScratchAcc) : List (Nat × Nat) :=
  (l.flatMap fun a => (List.range ((a.off % 64 + n + 63) / 64)).map fun i => (a.tile, a.off / 64 + i)).eraseDups

/-- The rows that win their bank in the issue cycle: the first of each bank of each tile (R116). -/
def winners (rows : List (Nat × Nat)) : List (Nat × Nat) :=
  rows.foldl (fun w r => if w.any fun x => x.1 == r.1 && x.2 % 64 == r.2 % 64 then w else w ++ [r]) []

/-- Serve one row to the threads that read it: its bytes arrive, poison is noted (R116, R120). -/
def serveRow (d tile row : Nat) (gr : Group) (s : State) (pl : PendLoad) : PendLoad :=
  let t := tileSt s d tile
  let n := pl.ins.bytes
  let mine := pl.threads.filter fun a => a.2.1 == tile && decide (row * 64 < a.2.2 + n) && decide (a.2.2 < row * 64 + 64)
  let got := mine.foldl (fun m a => (List.range n).foldl (fun m i =>
    if (a.2.2 + i) / 64 = row then sadd m (a.1 * 64 + i) (t.byte (a.2.2 + i)) else m) m) pl.got
  { pl with got := got
            poison := if t.scratchPoison.contains row ∧ pl.poison.isNone then some (poisonPark gr 0 false) else pl.poison }

/-- The bytes of a row that a load's threads read. -/
def loadRowBytes (pl : PendLoad) (r : Nat × Nat) : Nat :=
  (pl.threads.map fun a => if a.2.1 = r.1 then
    ((List.range pl.ins.bytes).filter fun i => (a.2.2 + i) / 64 == r.2).length else 0).foldl (· + ·) 0

/-- Count the reads of rows at their tiles (R132, R154). -/
def countLoadRows (d u : Nat) (pl : PendLoad) (rows : List (Nat × Nat)) (s : State) : State :=
  rows.foldl (fun t r =>
    let t1 := addProg (pTstore d r.1) 1 (loadRowBytes pl r) t
    if r.1 = u then t1 else addProg (pTstore d r.1) 5 1 (add64 (pCluster d (u / 5)) 0x108 (loadRowBytes pl r) t1)) s

/-- A scratchpad load whose bytes are not all in the store buffer. -/
def loadScratch (g : GRef) (gr : Group) (ins : LoadIns) (reads : List ScratchAcc) (got : List Cell) (s : State) : State :=
  let rows := rowsOf ins.bytes reads
  let win := winners rows
  let lose := rows.filter fun r => !win.contains r
  let core := g.slot / 16
  let q := replaysOf (tileSt s g.die g.unit) core
  if 64 < q.length + lose.length then s
  else
    let pl0 : PendLoad := { ins := ins, threads := reads.map fun a => (a.thread, a.tile, a.off), got := got }
    let pl := win.foldl (fun p r => serveRow g.die r.1 r.2 gr s p) pl0
    let s1 := setGroup g.die g.unit g.slot { gr with load := some pl, wait := .memory } s
    let s2 := setReplays g.die g.unit core (q ++ lose.map fun r => { slot := g.slot, tile := r.1, row := r.2 }) s1
    let s3 := lose.foldl (fun t r => addProg (pTstore g.die r.1) 4 1 t) (countLoadRows g.die g.unit pl0 win s2)
    loadCheck g.die g.unit g.slot s3

/-! ### Memory loads -/

/-- Whether a line can serve a group's access now: its home is serving, and the line is in no transaction
(R319, R324, R346). -/
def lineFree (s : State) (il : Bool) (pa agent : Nat) : Bool :=
  let seg := homeSeg (pa / 1024 * 1024) il
  let h := home s seg (pa / 1024)
  let st := (unitSt s (segPage s seg)).state
  h.trans.isNone && (h.rsvd.isNone || h.rsvd == some agent) && !(segSt s seg).resetting && (st == .active || st == .draining)

/-- Sectors L1 holds under a split (R103, R119). -/
def l1Room (l1 : Nat) : Nat := (0x800000 - scratchSize l1) / 256

/-- Allocate a sector in a tile's L1; which sector it takes the place of, when L1 is full, the spec does not say: free. -/
def l1Fill (d u sector : Nat) (data : List Byte) (s : State) : State :=
  let t := tileSt s d u
  let room := l1Room t.l1Size
  if room = 0 then s
  else
    let x : L1Sector := { data := cellsFrom 0 data }
    if t.l1.length < room then setTile d u { t with l1 := sadd t.l1 sector x } s
    else
      let victim := (freeVal s).toNat % t.l1.length
      setTile d u { t with l1 := sadd (t.l1.eraseIdx victim) sector x } (tickFree 1 s)

/-- One piece of a part within a 256 B sector: physical address and length. -/
def sectorsOf (pa n : Nat) : List (Nat × Nat) :=
  (List.range ((pa % 256 + n + 255) / 256)).map fun i =>
    let a := if i = 0 then pa else (pa / 256 + i) * 256
    (a, min (pa + n) ((pa / 256 + i + 1) * 256) - a)

/-- What a part of a load gets: bytes, and whether they are poisoned. -/
structure Got where
  bytes : List Byte := []
  poison : Bool := false
  state : State

/-- Read one sector's bytes for a load of a non-DEVICE part (R119, R366, R369): L1 where it may hold them, else the Felt. -/
def loadSector (d u : Nat) (byp : Bool) (p : Piece) (pa n : Nat) (s : State) : Got :=
  let t := tileSt s d u
  let useL1 := p.mtype == 0 && !byp
  match (if useL1 then slook t.l1 (pa / 256) else none) with
  | some x => { bytes := (List.range n).map fun i => sget (fun _ => 0) x.data (pa % 256 + i), poison := x.poison, state := s }
  | none =>
    let bs := cohBytes s p.il pa n
    if cohPoison s p.il pa then
      { bytes := bs, poison := true, state := countPoisonReads (homeSeg (pa / 1024 * 1024) p.il) 1 s }
    else { bytes := bs, state := if useL1 then l1Fill d u (pa / 256) (cohBytes s p.il (pa / 256 * 256) 256) s else s }

/-- Read the sectors of a part. -/
def loadSectors (d u : Nat) (byp : Bool) (p : Piece) : List (Nat × Nat) → State → Got
  | [], s => { state := s }
  | x :: rest, s =>
    let a := loadSector d u byp p x.1 x.2 s
    let b := loadSectors d u byp p rest a.state
    { bytes := a.bytes ++ b.bytes, poison := a.poison || b.poison, state := b.state }

/-- The value of a 64-bit read of BAR0: a 64-bit register at once, else its words in turn (R61, R64). -/
def read64 (req off : Nat) (s : State) : Nat × State :=
  let a := read32 req off s
  let b := read32 req (off + 4) a.2
  (a.1 + 0x100000000 * b.1, b.2)

/-- A DEVICE-type read of the image of BAR0 by a kernel, as its slice's function (R62, R64, R393, R638). -/
def deviceBar0 (fn off n : Nat) (s : State) : Got :=
  if n = 4 ∧ off % 4 = 0 then let r := read32 fn off s; { bytes := leBytes 4 r.1, state := r.2 }
  else if n = 8 ∧ off % 8 = 0 then let r := read64 fn off s; { bytes := leBytes 8 r.1, state := r.2 }
  else if n < 4 ∧ off % 4 + n ≤ 4 then
    let r := read32 fn (off / 4 * 4) s
    { bytes := (leBytes 4 r.1).drop (off % 4) |>.take n, state := r.2 }
  else { bytes := List.replicate n 0, state := event pHostif 0 s }

/-- The 64 B pieces of an access to a chiplet window: offset and length (R829). -/
def rawParts (off n : Nat) : List (Nat × Nat) :=
  (List.range ((off % 64 + n + 63) / 64)).map fun i =>
    let a := if i = 0 then off else (off / 64 + i) * 64
    (a, min (off + n) ((off / 64 + i + 1) * 64) - a)

/-- Whether a chiplet site is in raw mode (CS_STAT, R395). -/
def siteRaw (s : State) (site : Nat) : Bool := bitOf (rd s (pUcie site) 0x104) 2

/-- Raw requests a site has outstanding (R829). -/
def rawCount (s : State) (site : Nat) : Nat := (s.host.raw.filter fun r => r.site == site).length

/-- A site's request goes out under the next tag free (R829). -/
def rawSend (r : RawReq) (data : Option (List Byte)) (s : State) : State :=
  let start := sget (fun _ => 0) s.host.nextTag r.site
  let used (t : Nat) : Bool := s.host.raw.any fun x => x.site == r.site && x.tag == t
  let tag := (((List.range 256).map fun i => (start + i) % 256).find? fun t => !used t).getD start
  emit (.rawMsg r.site tag data r.off r.len)
    { s with host := { s.host with raw := s.host.raw ++ [{ r with tag := tag }]
                                   nextTag := sput (fun _ => 0) s.host.nextTag r.site ((tag + 1) % 256) } }

/-- The offset of an address in its chiplet window. -/
def windowOff (pa : Nat) : Nat := pa % 0x1000000000

/-- A DEVICE-type part of a load (R126, R359, R393, R828, R829): bytes at once, or raw requests whose CPLs bring them. -/
def loadDevice (g : GRef) (k : Task) (thread first : Nat) (p : Piece) (s : State) : Got :=
  match rangeOf p.pa with
  | .bar0 => deviceBar0 (sliceFunc s (pDie g.die) k.slice) (p.pa - 0x20000000000) p.len s
  | .chiplet site =>
    if siteRaw s site then
      let parts := rawParts (windowOff p.pa) p.len
      let s1 := parts.foldl (fun t x =>
        rawSend { site := site, tag := 0, write := false, off := x.1, len := x.2, slot := some (g.die, g.unit, g.slot)
                  thread := thread, first := first + (x.1 - windowOff p.pa), cmd := some (k.ring, k.no) } none t) s
      { bytes := List.replicate p.len 0, state := s1 }
    else
      { bytes := (List.range p.len).map fun i => BitVec.ofNat 8 (Config.freeValue (s.freeCtr + i)).toNat
        state := tickFree p.len (emit (.cxlIo site none (windowOff p.pa) p.len) s) }
  | _ => { bytes := rdMemN s p.pa p.len, poison := directPoison s p.pa p.len, state := directAccess p.pa p.len s }

/-- Read the parts of one thread's access. -/
def loadParts (g : GRef) (k : Task) (byp : Bool) (thread : Nat) : Nat → List Piece → State → Got
  | _, [], s => { state := s }
  | first, p :: rest, s =>
    let a := if p.mtype = 3 then loadDevice g k thread first p s
      else loadSectors g.die g.unit byp p (sectorsOf p.pa p.len) s
    let b := loadParts g k byp thread (first + p.len) rest a.state
    { bytes := a.bytes ++ b.bytes, poison := a.poison || b.poison, state := b.state }

/-- Read the accesses of the threads that read memory: bytes by thread, and the first poisoned address. -/
def loadMemAll (g : GRef) (k : Task) (byp : Bool) : List MemAcc → List Cell × Option Nat → State → (List Cell × Option Nat) × State
  | [], acc, s => (acc, s)
  | a :: rest, acc, s =>
    let r := loadParts g k byp a.thread 0 a.parts s
    let bad := if r.poison ∧ acc.2.isNone then some ((a.parts.map fun p => p.va).headD 0) else acc.2
    loadMemAll g k byp rest (gotPut a.thread 0 r.bytes acc.1, bad) r.state

/-- Whether a load's memory accesses can all be made now: homes free for what L1 does not hold, no older DEVICE-type store of
the core buffered before a DEVICE-type read, room for raw requests (R126, R319, R829). -/
def loadReady (s : State) (g : GRef) (byp : Bool) (l : List MemAcc) : Bool :=
  let t := tileSt s g.die g.unit
  let parts := l.flatMap fun a => a.parts
  let dev := parts.filter fun p => p.mtype == 3
  (parts.all fun p => p.mtype == 3 || (sectorsOf p.pa p.len).all fun x =>
      (p.mtype == 0 && !byp && (slook t.l1 (x.1 / 256)).isSome) || lineFree s p.il x.1 g.die)
    && (dev.isEmpty || !((sbOf t (g.slot / 16)).any fun e => e.device))
    && [0, 1].all fun site => decide (rawCount s site
        + ((dev.filter fun p => rangeOf p.pa == .chiplet site).map fun p => (rawParts (windowOff p.pa) p.len).length).foldl (· + ·) 0 ≤ 256)

/-- What a sector's read by a tile leaves: a read served from its die's replica is counted there (R303, R354); another
fetches at the home. -/
def sectorTouch (d slice : Nat) (p : Piece) (pa n : Nat) (s : State) : State :=
  if p.mtype = 0 ∧ (copyOf s d (pa / 1024)).isSome then add64 (replicaPage s (pa / 1024) d + 2) 0x108 1 s
  else touch p.il (some slice) pa n s

/-- What a load leaves at the homes of the sectors that L1 did not serve. -/
def loadTouch (d slice : Nat) (byp : Bool) (l1 : List (Nat × L1Sector)) (reads : List MemAcc) (s : State) : State :=
  ((reads.flatMap fun a => a.parts).filter fun p => p.mtype != 3).foldl (fun t p =>
    (sectorsOf p.pa p.len).foldl (fun x e =>
      if p.mtype = 0 ∧ !byp ∧ (slook l1 (e.1 / 256)).isSome then x else sectorTouch d slice p e.1 e.2 x) t) s

/-- A memory load whose bytes are not all in the store buffer. -/
def loadMem (g : GRef) (k : Task) (gr : Group) (ins : LoadIns) (reads : List MemAcc) (got : List Cell) (s : State) : State :=
  let byp := ins.byp || ins.acq
  if !loadReady s g byp reads then s
  else
    let l1 := (tileSt s g.die g.unit).l1
    let r0 := loadMemAll g k byp reads (got, none) s
    let r := (r0.1, loadTouch g.die k.slice byp l1 reads r0.2)
    let pl : PendLoad := { ins := ins, got := r.1.1, poison := r.1.2.map fun va => poisonPark gr va true }
    loadCheck g.die g.unit g.slot (setGroup g.die g.unit g.slot { gr with load := some pl, wait := .memory } r.2)

/-- A load whose accesses resolved (R122 to R124). -/
def loadServe (g : GRef) (k : Task) (gr : Group) (ins : LoadIns) (a : Addrs) (s : State) : State :=
  let sb := sbOf (tileSt s g.die g.unit) (g.slot / 16)
  match a with
  | .scratch l =>
    let hits := l.map fun x => (x.thread, sbCheck sb (scratchKeys x ins.bytes))
    let got := hits.foldl (fun m h => match h.2 with | .all bs => gotPut h.1 0 bs m | _ => m) []
    loadScratch g gr ins (l.filter fun x => sbCheck sb (scratchKeys x ins.bytes) = .none) got s
  | .mem l =>
    let hits := l.map fun x => (x.thread, sbCheck sb (memKeys x))
    let got := hits.foldl (fun m h => match h.2 with | .all bs => gotPut h.1 0 bs m | _ => m) []
    loadMem g k gr ins (l.filter fun x => sbCheck sb (memKeys x) = .none) got s
  | _ => s

/-- A load of a group that may issue: a bad size parks it; a MEMBAR.ORDER holds it; its addresses are resolved; a partial
overlap goes to the replay queue, counted (R117, R122, R124, R369). -/
def loadIssue (g : GRef) (ins : LoadIns) (k : Task) (gr : Group) (s : State) : State :=
  let core := g.slot / 16
  let t := tileSt s g.die g.unit
  if !(if ins.acq then ins.bytes == 4 || ins.bytes == 8 else accSize ins.bytes) then parkIllegal g.die g.unit g.slot gr.pc 0x13 s
  else if gr.ordered && slotBuffered t g.slot then s
  else
    let a := accesses s g k gr ins.space ins.addr .read ins.bytes
    match a with
    | .illegal | .miss _ | .fault _ _ _ => addrsEnd g k gr .read a s
    | _ =>
      let sb := sbOf t core
      let gr1 := { gr with ordered := false }
      if (allKeys ins.bytes a).any fun ks => sbCheck sb ks = .overlap then
        let q := replaysOf t core
        if 64 ≤ q.length then s
        else
          setReplays g.die g.unit core (q ++ [{ slot := g.slot, overlap := some ins }])
            (addProg (vcPage g.die g.unit g.slot) 5 1 (setGroup g.die g.unit g.slot { gr1 with wait := .memory } s))
      else loadServe g k gr1 ins a s

/-- The registers a load instruction names. -/
def loadRegs (ins : LoadIns) : List Nat := regSpan ins.dst ins.bytes ++ formRegs ins.addr

/-- LOAD (R122 to R124). -/
def execLoad (g : GRef) (space : Space) (addr : AddrForm) (dst bytes : Nat) (s : State) : Res :=
  let ins : LoadIns := { space := space, addr := addr, dst := dst, bytes := bytes }
  .next (issue g (loadRegs ins) s fun k gr s => loadIssue g ins k gr s)

/-- LD.BYP (R369). -/
def execLdByp (g : GRef) (addr : AddrForm) (dst bytes : Nat) (s : State) : Res :=
  let ins : LoadIns := { space := .mem, addr := addr, dst := dst, bytes := bytes, byp := true }
  .next (issue g (loadRegs ins) s fun k gr s => loadIssue g ins k gr s)

/-- LD.ACQ (R369, R370). -/
def execLdAcq (g : GRef) (addr : AddrForm) (dst bytes : Nat) (range : Option (Nat × Nat)) (s : State) : Res :=
  let ins : LoadIns := { space := .mem, addr := addr, dst := dst, bytes := bytes, acq := true, range := range }
  .next (issue g (loadRegs ins) s fun k gr s => loadIssue g ins k gr s)

/-- BANK_CONFLICT_REPLAY (R116): the oldest request of a core's replay queue that lost its bank is served. -/
def bankReplay (d u core : Nat) (s : State) : State :=
  let q := replaysOf (tileSt s d u) core
  match takeFirst (fun r : Replay => r.overlap.isNone) q with
  | none => s
  | some (r, rest) =>
    let s1 := addProg (pVC d u core) 4 1 (setReplays d u core rest s)
    match groupOf (tileSt s1 d u) r.slot with
    | some gr =>
      match gr.load with
      | some pl =>
        loadCheck d u r.slot (countLoadRows d u pl [(r.tile, r.row)]
          (setGroup d u r.slot { gr with load := some (serveRow d r.tile r.row gr s1 pl) } s1))
      | none => s1
    | none => s1

def execBankConflictReplay (die unit core : Nat) (s : State) : Res := .next (if s.inHold then s else bankReplay die unit core s)

/-- PARTIAL_OVERLAP_REPLAY (R124): once every entry that holds a byte of the load has drained, the load is performed again
for every thread. -/
def overlapReplay (d u core slot : Nat) (s : State) : State :=
  let t := tileSt s d u
  match takeFirst (fun r : Replay => r.slot == slot && r.overlap.isSome) (replaysOf t core) with
  | none => s
  | some (r, rest) =>
    match r.overlap, t.task, groupOf t slot with
    | some ins, some k, some gr =>
      let g : GRef := ⟨d, u, slot⟩
      let a := accesses s g k gr ins.space ins.addr .read ins.bytes
      if (allKeys ins.bytes a).any fun ks => sbCheck (sbOf t core) ks ≠ .none then s
      else
        let gr1 := { gr with wait := .ready }
        loadIssue g ins k gr1 (setGroup d u slot gr1 (setReplays d u core rest s))
    | _, _, _ => setReplays d u core rest s

def execPartialOverlapReplay (die unit core slot : Nat) (s : State) : Res :=
  .next (if s.inHold then s else overlapReplay die unit core slot s)

/-! ### Stores (R122, R123) -/

/-- Bytes from an address cut into 64 B blocks: block and cells by address. -/
def blocksOf (a : Nat) (bs : List Byte) : List (Nat × List Cell) :=
  ((List.range ((a % 64 + bs.length + 63) / 64)).map fun i => a / 64 + i).map fun b =>
    (b, (cellsFrom a bs).filter fun c => decide (c.1 / 64 = b))

/-- The entries a thread's scratchpad store asks for. -/
def scratchEntries (slot pasid : Nat) (a : ScratchAcc) (bs : List Byte) : List SbEntry :=
  (blocksOf a.off bs).map fun b =>
    { scratch := true, tile := a.tile, block := b.1, bytes := b.2, slots := [slot], pasid := pasid }

/-- The entries the parts of a thread's memory store ask for; a DEVICE-type part is one entry, never cut (R126, R359). -/
def memEntries (slot pasid : Nat) : List Piece → List Byte → List SbEntry
  | [], _ => []
  | p :: rest, bs =>
    let mine := bs.take p.len
    let e (b : Nat) (c : List Cell) : SbEntry :=
      { scratch := false, block := b, bytes := c, device := p.mtype == 3, slots := [slot], pasid := pasid, mtype := p.mtype
        home := b2n (pteInterleaved p.leaf) }
    (if p.mtype = 3 then [e (p.pa / 64) (cellsFrom p.pa mine)] else (blocksOf p.pa mine).map fun b => e b.1 b.2)
      ++ memEntries slot pasid rest (bs.drop p.len)

/-- Whether two entries hold the same block of the same space. -/
def SbEntry.sameBlock (a b : SbEntry) : Bool :=
  !a.device && !b.device && a.scratch == b.scratch && a.tile == b.tile && a.block == b.block

/-- A store joins the youngest entry of its block, or takes a new entry (R123). -/
def sbAdd (sb : List SbEntry) (e : SbEntry) : List SbEntry :=
  let rec go : List SbEntry → Option (List SbEntry)
    | [] => none
    | x :: rest =>
      match go rest with
      | some r => some (x :: r)
      | none =>
        if x.sameBlock e then
          some ({ x with bytes := e.bytes.foldl (fun m c => sadd m c.1 c.2) x.bytes
                         slots := e.slots.foldl (fun l y => setAdd y l) x.slots } :: rest)
        else none
  (go sb).getD (sb ++ [e])

/-- Entries of a core's store buffer. -/
def sbRoom : Nat := 32

/-- The entries a store asks for, thread by thread in the order `ts`. -/
def storeEntries (slot : Nat) (k : Task) (gr : Group) (src n : Nat) (a : Addrs) (ts : List Nat) : List SbEntry :=
  match a with
  | .scratch l => ts.flatMap fun t => (l.filter fun x => x.thread == t).flatMap fun x => scratchEntries slot k.pasid x (regBytes gr t src n)
  | .mem l => ts.flatMap fun t => (l.filter fun x => x.thread == t).flatMap fun x => memEntries slot k.pasid x.parts (regBytes gr t src n)
  | _ => []

/-- Operations in flight whose scratchpad regions a store meets (R140). -/
def taintStores (d : Nat) (l : List SbEntry) (s : State) : State :=
  (l.filter fun e => e.scratch).foldl (fun t e => taintOps d e.tile (e.bytes.map fun c => (c.1, 1)) t) s

/-- A store of a group that may issue (R122, R123, R369): its addresses are resolved with write permission, and it takes
entries once enough are free. An instruction that needs more than the buffer has goes when the buffer is empty. -/
def storeIssue (g : GRef) (sp : Space) (addr : AddrForm) (src n : Nat) (rel : Bool) (k : Task) (gr : Group) (s : State) : State :=
  let core := g.slot / 16
  let t := tileSt s g.die g.unit
  if !(if rel then n == 4 || n == 8 else accSize n) then parkIllegal g.die g.unit g.slot gr.pc 0x13 s
  else if (gr.ordered || rel) && slotBuffered t g.slot then s
  else
    let a := accesses s g k gr sp addr .write n
    match a with
    | .illegal | .miss _ | .fault _ _ _ => addrsEnd g k gr .write a s
    | _ =>
      let es := storeEntries g.slot k gr src n a (freeOrder 32 s.freeCtr gr.active)
      let sb := sbOf t core
      let sb1 := es.foldl sbAdd sb
      if sbRoom < sb1.length ∧ sb ≠ [] then s
      else
        let s0 := countLookups g sp gr.active.length (tickFree gr.active.length s)
        let s1 := taintStores g.die es (setSb g.die g.unit core sb1 s0)
        addProg (vcPage g.die g.unit g.slot) 1 (gr.active.length * n) (finishIns g k { gr with ordered := false } s1)

/-- STORE (R122, R123). -/
def execStore (g : GRef) (space : Space) (addr : AddrForm) (src bytes : Nat) (s : State) : Res :=
  .next (issue g (regSpan src bytes ++ formRegs addr) s fun k gr s => storeIssue g space addr src bytes false k gr s)

/-- ST.REL (R369). -/
def execStRel (g : GRef) (addr : AddrForm) (src bytes : Nat) (s : State) : Res :=
  .next (issue g (regSpan src bytes ++ formRegs addr) s fun k gr s => storeIssue g .mem addr src bytes true k gr s)

/-! ### Draining (R125) -/

/-- A store updates an L1 sector of its tile that holds its bytes (R119). -/
def l1Update (d u : Nat) (cells : List Cell) (s : State) : State :=
  let t := tileSt s d u
  setTile d u { t with l1 := t.l1.map fun e =>
    (e.1, { e.2 with data := cells.foldl (fun m c => if c.1 / 256 = e.1 then sadd m (c.1 % 256) c.2 else m) e.2.data }) } s

/-- A DEVICE-type store reaches its target (R126, R359, R367). -/
def drainDevice (d u : Nat) (k : Option Task) (e : SbEntry) (s : State) : State :=
  let pa := (e.bytes.map fun c => c.1).headD 0
  let bs := e.bytes.map fun c => c.2
  let n := bs.length
  let slice := (k.map fun x => x.slice).getD 0
  match rangeOf pa with
  | .bar0 =>
    let off := pa - 0x20000000000
    let fn := sliceFunc s (pDie d) slice
    if (n = 4 ∨ n = 8) ∧ off % n = 0 then regWrite fn off (BitVec.ofNat 64 (leNat bs)) (n == 8) s
    else badRegAccess fn off n true s
  | .chiplet site =>
    let off := windowOff pa
    if siteRaw s site then
      let slot := e.slots.headD 0
      let parts := rawParts off n
      let s1 := parts.foldl (fun t x =>
        rawSend { site := site, tag := 0, write := true, off := x.1, len := x.2, slot := some (d, u, slot)
                  cmd := k.map fun y => (y.ring, y.no) } (some ((bs.drop (x.1 - off)).take x.2)) t) s
      match groupOf (tileSt s1 d u) slot with
      | some gr => setGroup d u slot { gr with unaccepted := gr.unaccepted + parts.length } s1
      | none => s1
    else emit (.cxlIo site (some bs) off n) s
  | _ => wrMemN pa bs (directAccess pa n (match k with | some x => logDirty x.slice pa s | none => s))

/-- Whether the oldest entry of a store buffer can drain now. -/
def drainReady (s : State) (d : Nat) (e : SbEntry) : Bool :=
  if e.scratch then true
  else if e.device then
    let pa := (e.bytes.map fun c => c.1).headD 0
    match rangeOf pa with
    | .chiplet site => !siteRaw s site || decide (rawCount s site + (rawParts (windowOff pa) e.bytes.length).length ≤ 256)
    | _ => true
  else lineFree s (e.home != 0 || inHost (e.block * 64)) (e.block * 64) d

/-- STORE_BUFFER_DRAIN (R119, R125, R126, R465): the oldest entry of a core's store buffer drains. -/
def drainOne (d u core : Nat) (s : State) : State :=
  let t := tileSt s d u
  match sbOf t core with
  | [] => s
  | e :: rest =>
    if !drainReady s d e then s
    else
      let s1 := setSb d u core rest s
      if e.scratch then drainScratchEntry d u e s1
      else if e.device then drainDevice d u t.task e s1
      else
        let pa := e.block * 64
        let il := e.home != 0 || inHost pa
        let slice := (t.task.map fun k => k.slice)
        let s2 := match slice with | some x => logDirty x pa s1 | none => s1
        let s3 := cohWriteLine il slice (pa / 1024) (e.bytes.map fun c => (c.1 % 1024, c.2)) s2
        let s4 := l1Update d u e.bytes s3
        match t.task with
        | some k => noteHomes k.ring k.no [homeBit il (pa / 1024 * 1024)] s4
        | none => s4

def execStoreBufferDrain (die unit core : Nat) (s : State) : Res := .next (if s.inHold then s else drainOne die unit core s)

/-! ### Fences (R369) -/

/-- MEMBAR.ORDER: the group's next access waits for its earlier ones. -/
def execMembarOrder (g : GRef) (s : State) : Res :=
  .next (issue g [] s fun k gr s => finishIns g k { gr with ordered := true } s)

/-- MEMBAR.COMPLETE: the group waits until its earlier writes are accepted. -/
def execMembarComplete (g : GRef) (s : State) : Res :=
  .next (issue g [] s fun k gr s =>
    if slotBuffered (tileSt s g.die g.unit) g.slot then s else finishIns g k { gr with ordered := false } s)

/-! ### Atomics (R330, R331, R369, R857) -/

/-- The registers an atomic names. -/
def atomRegs (op : AtomOp) : List Nat :=
  formRegs op.addr ++
    (if isVector op.code ∨ op.code = 0x20 then []
     else regSpan op.src op.size ++ (if op.code = 0x09 then regSpan op.cmp op.size else [])
       ++ (if op.fetch ∨ op.code = 0x09 then regSpan op.dst op.size else []))

/-- Whether a code is one of R330's. -/
def atomCode (c : Nat) : Bool := decide (c ≤ 0x0B) || isVector c || c == 0x20

/-- The size and alignment of an atomic's target. -/
def atomSpan (op : AtomOp) : Nat := if op.code = 0x20 then 1024 else if isVector op.code then 256 else op.size

/-- Whether a memory type takes an atomic (R331). -/
def atomType (op : AtomOp) (m : Nat) : Bool := if isVector op.code ∨ op.code = 0x20 then m == 0 else m != 3

/-- The park of a Felt operation that fails at its home (R142). -/
def atomPark (pc pa detail : Nat) : ParkInfo :=
  let c := if detail = 5 then 0x20 else 0x13
  { cause := c, addr := pa, phys := true, addrValid := true, pc := pc, cls := c, detail := detail }

/-- The request of one thread's scalar atomic. -/
def scalarReq (g : GRef) (k : Task) (gr : Group) (op : AtomOp) (t pa : Nat) : FReq :=
  { kind := .atom, agent := g.die, stream := g.slot, slice := some k.slice, code := op.code, off := pa % 1024, size := op.size
    operand := regBytes gr t op.src op.size, compare := leNat (regBytes gr t op.cmp op.size)
    fetch := op.fetch || op.code == 0x09, cmd := some (k.ring, k.no) }

/-- One scalar atomic is performed: its result goes to the destination, its flags to VC_FLAGS, a failure waits for the next
instruction boundary (R142, R330, R332). -/
def atomOne (g : GRef) (k : Task) (op : AtomOp) (a : MemAcc) (x : State × Group) : State × Group :=
  match a.parts with
  | [p] =>
    let r := cohOp p.il p.pa (scalarReq g k x.2 op a.thread p.pa) (logDirty k.slice p.pa x.1)
    let s1 := noteHomes k.ring k.no [homeBit p.il (p.pa / 1024 * 1024)] (orVcFlags g r.2.2.1 r.1)
    if r.2.2.2 ≠ 0 then
      (s1, if x.2.pendingFail.isSome then x.2 else { x.2 with pendingFail := some (atomPark x.2.pc p.pa r.2.2.2) })
    else (s1, if op.fetch ∨ op.code = 0x09 then putRegs a.thread op.dst (leBytes op.size r.2.1) x.2 else x.2)
  | _ => x

/-- An atomic has been issued: the group goes on, an acquire invalidates L1 (R369, R370). -/
def atomDone (g : GRef) (k : Task) (op : AtomOp) (gr : Group) (s : State) : State :=
  let n := if isVector op.code ∨ op.code = 0x20 then min 1 gr.active.length else gr.active.length
  let s1 := finishIns g k { gr with ordered := false } (countLookups g .mem n s)
  if op.acq then l1Clear g.die g.unit s1 else s1

/-- The request of a group's vector operation or LSE (R334, R857). -/
def vectorReq (g : GRef) (k : Task) (op : AtomOp) (pa : Nat) (operand : List Byte) : FReq :=
  { kind := if op.code = 0x20 then .lse else .red, agent := g.die, stream := g.slot, slice := some k.slice, code := op.code
    off := pa % 1024, size := atomSpan op, operand := operand, ordered := op.ordered, cidx := op.cidx, ccount := op.ccount
    cmd := some (k.ring, k.no) }

/-- Performing a vector operation or LSE of the group's lowest active thread (R857). -/
def atomVector (g : GRef) (k : Task) (gr : Group) (op : AtomOp) (p : Piece) (s : State) : State :=
  let n := atomSpan op
  let s1 := drainScratch g.die g.unit (g.slot / 16) s
  let t := tileSt s1 g.die g.unit
  if op.source % n ≠ 0 ∨ scratchSize k.l1 < op.source + n ∨ op.ccount = 0 ∨ 65536 < op.ccount then
    parkIllegal g.die g.unit g.slot gr.pc 0x13 s1
  else if t.poisoned op.source n then park g.die g.unit g.slot (poisonPark gr op.source false) s1
  else
    let r := cohOp p.il p.pa (vectorReq g k op p.pa (t.bytes op.source n)) (logDirty k.slice p.pa s1)
    if r.2.2.2 = 0x100 then r.1
    else
      let gr1 := if r.2.2.2 = 0 then gr else { gr with pendingFail := some (atomPark gr.pc p.pa r.2.2.2) }
      atomDone g k op gr1 (noteHomes k.ring k.no [homeBit p.il (p.pa / 1024 * 1024)] (orVcFlags g r.2.2.1 r.1))

/-- Whether the lines of an atomic's targets are free, with no older store of the core to them buffered. -/
def atomReady (s : State) (g : GRef) (l : List MemAcc) : Bool :=
  let sb := sbOf (tileSt s g.die g.unit) (g.slot / 16)
  (l.flatMap fun a => a.parts).all fun p => lineFree s p.il p.pa g.die
    && !(sb.any fun e => !e.scratch && decide (e.block / 16 = p.pa / 1024))

/-- An atomic of a group that may issue (R127, R331, R369, R857). -/
def atomIssue (g : GRef) (op : AtomOp) (k : Task) (gr : Group) (s : State) : State :=
  let bad (dt : Nat) : State := parkIllegal g.die g.unit g.slot gr.pc dt s
  let vec := isVector op.code || op.code == 0x20
  let gr1 := if vec ∧ gr.active ≠ [] then { gr with mask := BitVec.ofNat 32 (2 ^ gr.first) } else gr
  let n := atomSpan op
  if !atomCode op.code then bad 0x13
  else if op.scratch || (!vec && !scalarSizeOk op.code op.size) then bad 0x06
  else if gr1.active.any fun t => formAddr op.addr gr1 t % n ≠ 0 then bad 0x06
  else if (gr.ordered || op.rel) && slotBuffered (tileSt s g.die g.unit) g.slot then s
  else
    let a := accesses s g k gr1 .mem op.addr .write n
    match a with
    | .mem l =>
      if (l.flatMap fun x => x.parts).any fun p => !atomType op p.mtype then bad 0x06
      else if !atomReady s g l then s
      else if vec then
        match l.flatMap fun x => x.parts with
        | p :: _ => atomVector g k gr op p s
        | [] => atomDone g k op gr s
      else
        let order := freeOrder 32 s.freeCtr gr.active
        let r := order.foldl (fun x t => (l.filter fun y => y.thread == t).foldl (fun x y => atomOne g k op y x) x)
          (tickFree gr.active.length s, gr)
        atomDone g k op r.2 r.1
    | r => addrsEnd g k gr .write r s

/-- ATOM (R369, R857). -/
def execAtom (g : GRef) (op : AtomOp) (s : State) : Res :=
  .next (issue g (atomRegs op) s fun k gr s => atomIssue g op k gr s)

end Sys2Proof.Machine
end

