-- ==== Sys2Proof/Machine/Chiplet.lean ====
section
/-! DEFINITION. Chiplet sites (18_interfaces.md R826 to R831, R853; rows CHIPLET_REQUEST, CPL, EVT, CS_TIMEOUT, UCIE_LINK_LOST,
UCIE_LANE_REPAIR). -/

namespace Sys2Proof.Machine

/-- Whether a site's link is up: the site was discovered, and its adapter and its chiplet have not failed. -/
def siteLive (s : State) (k : Nat) : Bool :=
  decide (k < 2) && s.power.up && siteUp s k && decide ((unitSt s (pUcie k)).state = .active)
    && decide ((unitSt s (pChiplet k)).state ≠ .faulted)

/-- An error of a site's adapter: class, detail, physical address. -/
def siteErr (k cls dt addr : Nat) (s : State) : ErrRec :=
  { cls := cls, detail := dt, gen := (unitSt s (pUcie k)).gen.toNat, addr := addr, phys := true, addrValid := true
    srcDie := 9 + k, srcUnit := 0, srcLogical := 0x3F }

/-- Whether a kind of request reads. -/
def reqReads (k : ReqKind) : Bool := decide (k = .rdOnce) || decide (k = .rdShared) || decide (k = .rdOwn)

/-- A request of a chiplet inside its aperture, at its home, as agent 9 or 10, charged to its slice (R299, R828). -/
def chipletServe (k pa : Nat) (r : FReq) (s : State) : Res :=
  let line := pa / 1024
  let seg := homeSeg (line * 1024) (hostIl s pa)
  let q := { r with agent := 9 + k, slice := some (sget (fun _ => 0) s.host.siteSlice k), agen := agentGen s (9 + k) }
  match r.kind with
  | .rdOnce => execRdOnce seg line q s
  | .rdShared => execRdShared seg line q s
  | .rdOwn => execRdOwn seg line q s
  | .wr => execWr seg line q s
  | .wb => execWb seg line q s
  | .evict => execEvict seg line q s
  | .atom => execFeltAtomic seg line q s
  | .red => execRed seg line q s
  | .lse => execLse seg line q s
  | .flush => execFlush seg line q s

/-- CHIPLET_REQUEST (R828): a request of a chiplet in CXL mode; outside the aperture, or of no device memory, it is refused. -/
def execChipletRequest (site pa : Nat) (r : FReq) (s : State) : Res :=
  if !siteLive s site ∨ siteRaw s site ∨ s.inHold ∨ phase s ≠ 5 then .next s
  else
    let base := stg64 s (pUcie site) 0 (pUcie site) 0x108
    let size := stg64 s (pUcie site) 0 (pUcie site) 0x110
    if base ≤ pa ∧ pa < base + size ∧ inTier pa ∧ backed s pa then chipletServe site pa r s
    else
      let s1 := event (pUcie site) 1 (captureErr (pUcie site) (siteErr site 0x10 0x01 pa s) s)
      .next (if reqReads r.kind then emit (.chipletRefused site pa) s1 else s1)

/-- The outstanding request of a site under a tag, and the others. -/
def takeRaw (s : State) (site tag : Nat) : Option (RawReq × State) :=
  match takeFirst (fun r : RawReq => r.site == site && r.tag == tag) s.host.raw with
  | some (r, rest) => some (r, { s with host := { s.host with raw := rest } })
  | none => none

/-- Data of a raw read reach the group that waits for them (R829); poison will park it (R142). -/
def rawData (r : RawReq) (data : List Byte) (poison : Bool) (s : State) : State :=
  match r.slot with
  | none => s
  | some (d, u, slot) =>
    match groupOf (tileSt s d u) slot with
    | none => s
    | some gr =>
      match gr.load with
      | none => s
      | some pl =>
        let bs := (List.range r.len).map fun i => data.getD i 0
        let bad := if poison ∧ pl.poison.isNone then
            some { poisonPark gr (0x30000000000 + r.site * 0x1000000000 + r.off) true with phys := true } else pl.poison
        let pl1 := { pl with got := gotPut r.thread r.first bs pl.got, poison := bad }
        loadCheck d u slot (setGroup d u slot { gr with load := some pl1 } s)

/-- A raw write is answered: the group no longer waits for it (R367). -/
def rawWritten (r : RawReq) (s : State) : State :=
  match r.slot with
  | none => s
  | some (d, u, slot) =>
    match groupOf (tileSt s d u) slot with
    | some gr => setGroup d u slot { gr with unaccepted := gr.unaccepted - 1 } s
    | none => s

/-- A raw request fails (R830): the detail recorded, UC_TIMEOUTS, the event; a read gets poison, the command of a write that is
lost fails (R375). -/
def rawFail (r : RawReq) (dt : Nat) (s : State) : State :=
  let s1 := event (pUcie r.site) 2 (satInc (pUcie r.site + 2) 0x10C 1
    (captureErr (pUcie r.site) (siteErr r.site 0x20 dt (0x30000000000 + r.site * 0x1000000000 + r.off) s) s))
  if r.write then
    rawWritten r (match r.cmd with | some (ring, no) => failCmd ring no (0x20, dt) s1 | none => s1)
  else rawData r [] true s1

/-- CPL (R829, R830): the chiplet's completion of a request; one that matches none is dropped. -/
def execCpl (site tag : Nat) (err poison : Bool) (data : List Byte) (s : State) : Res :=
  if !siteLive s site ∨ !siteRaw s site ∨ s.inHold then .next s
  else
    match takeRaw s site tag with
    | none => .next s
    | some (r, s1) => .next (if err then rawFail r 0x03 s1 else if r.write then rawWritten r s1 else rawData r data poison s1)

/-- CS_TIMEOUT (R830): a request has had no CPL for 1 ms. -/
def execCsTimeout (site tag : Nat) (s : State) : Res :=
  if s.inHold then .next s
  else
    match takeRaw s site tag with
    | none => .next s
    | some (r, s1) => .next (rawFail r 0x02 s1)

/-- EVT (R829): an event of the chiplet sets EVT_STAT bit `bit`, 0 to 27, of its unit page. -/
def execEvt (site bit : Nat) (s : State) : Res :=
  if !siteLive s site ∨ !siteRaw s site ∨ s.inHold ∨ 28 ≤ bit then .next s else .next (event (pChiplet site) bit s)

/-- UCIE_LINK_LOST (R342, R831): the site is FAULTED, its agent dead, its raw requests fail. -/
def ucieLinkLost (k : Nat) (s : State) : State :=
  if !siteLive s k then s
  else
    let s1 := event (pUcie k) 0 (captureErr (pUcie k) (siteErr k 0x30 0x04 0 s) s)
    let s2 := setUState (pChiplet k) .faulted false (setUState (pUcie k) .faulted false s1)
    let s3 := if s2.felt.dead.contains (9 + k) then s2 else agentDead (9 + k) s2
    let gone := s3.host.raw.filter fun r => r.site == k
    gone.foldl (fun t r => match takeRaw t k r.tag with | some (x, t1) => rawFail x 0x02 t1 | none => t) s3

def execUcieLinkLost (site : Nat) (s : State) : Res := .next (ucieLinkLost site s)

/-- UCIE_LANE_REPAIR (R826, R853): a lane fault goes onto a redundant lane (`repaired`), or the width degrades to x32. -/
def ucieLaneRepair (k : Nat) (repaired : Bool) (s : State) : State :=
  if !siteLive s k then s
  else
    let n := fld (rd s (pUcie k + 2) 0x108) 3 0
    event (pUcie k) 3 (if repaired then wr (pUcie k + 2) 0x108 (BitVec.ofNat 32 (min (n + 1) 15)) s
      else wr (pUcie k) 0x104 (setFld (rd s (pUcie k) 0x104) 15 9 32) s)

def execUcieLaneRepair (site : Nat) (repaired : Bool) (s : State) : Res := .next (ucieLaneRepair site repaired s)

end Sys2Proof.Machine
end

