-- ==== Sys2Proof/Machine/Dispatch.lean ====
section
/-! DEFINITION. The dispatch of the commands: one arm per constructor of `Instr`, each one call of its meaning. -/

namespace Sys2Proof.Machine

/-- The effect of a command on everything but the queue. -/
def exec (i : Instr) (s : State) : Host.Outcome State Fault Refusal :=
  match i with
  | .registerWrite req off data wide => Sys2Proof.Machine.execRegisterWrite req off data wide s
  | .badRegAccess req off bytes write => Sys2Proof.Machine.execBadRegAccess req off bytes write s
  | .lowWordRead req off => Sys2Proof.Machine.execLowWordRead req off s
  | .distDataRead req => Sys2Proof.Machine.execDistDataRead req s
  | .distUpdate changes => Sys2Proof.Machine.execDistUpdate changes s
  | .enable page on forceOff => Sys2Proof.Machine.execEnable page on forceOff s
  | .drain page on => Sys2Proof.Machine.execDrain page on s
  | .forceOff page enable drain unreadable => Sys2Proof.Machine.execForceOff page enable drain unreadable s
  | .reset page forceOff unreadable => Sys2Proof.Machine.execReset page forceOff unreadable s
  | .acceptedWorkFinished page => Sys2Proof.Machine.execAcceptedWorkFinished page s
  | .unitFault page cls detail => Sys2Proof.Machine.execUnitFault page cls detail s
  | .evtStatClear page bits hwSet => Sys2Proof.Machine.execEvtStatClear page bits hwSet s
  | .evtForce page bits => Sys2Proof.Machine.execEvtForce page bits s
  | .errCodeClear page => Sys2Proof.Machine.execErrCodeClear page s
  | .snapFire => Sys2Proof.Machine.execSnapFire s
  | .snapRelease => Sys2Proof.Machine.execSnapRelease s
  | .snapTrigAssert => Sys2Proof.Machine.execSnapTrigAssert s
  | .taskStart die unit => Sys2Proof.Machine.execTaskStart die unit s
  | .load g space addr dst bytes => Sys2Proof.Machine.execLoad g space addr dst bytes s
  | .store g space addr src bytes => Sys2Proof.Machine.execStore g space addr src bytes s
  | .ldByp g addr dst bytes => Sys2Proof.Machine.execLdByp g addr dst bytes s
  | .ldAcq g addr dst bytes range => Sys2Proof.Machine.execLdAcq g addr dst bytes range s
  | .stRel g addr src bytes => Sys2Proof.Machine.execStRel g addr src bytes s
  | .membarOrder g => Sys2Proof.Machine.execMembarOrder g s
  | .membarComplete g => Sys2Proof.Machine.execMembarComplete g s
  | .atom g op => Sys2Proof.Machine.execAtom g op s
  | .sreg g sel dst => Sys2Proof.Machine.execSreg g sel dst s
  | .vectorFpOp g op dst a b c => Sys2Proof.Machine.execVectorFpOp g op dst a b c s
  | .specialFunction g op dst a => Sys2Proof.Machine.execSpecialFunction g op dst a s
  | .branch g op => Sys2Proof.Machine.execBranch g op s
  | .bankConflictReplay die unit core => Sys2Proof.Machine.execBankConflictReplay die unit core s
  | .partialOverlapReplay die unit core slot => Sys2Proof.Machine.execPartialOverlapReplay die unit core slot s
  | .storeBufferDrain die unit core => Sys2Proof.Machine.execStoreBufferDrain die unit core s
  | .barTile g => Sys2Proof.Machine.execBarTile g s
  | .barCluster g mem => Sys2Proof.Machine.execBarCluster g mem s
  | .clusterBarrierRelease die cluster inst => Sys2Proof.Machine.execClusterBarrierRelease die cluster inst s
  | .groupRetire g => Sys2Proof.Machine.execGroupRetire g s
  | .taskRetire die unit => Sys2Proof.Machine.execTaskRetire die unit s
  | .parkEntryWrite die unit => Sys2Proof.Machine.execParkEntryWrite die unit s
  | .parkReplay die unit slot tag => Sys2Proof.Machine.execParkReplay die unit slot tag s
  | .parkDiscard die unit slot tag => Sys2Proof.Machine.execParkDiscard die unit slot tag s
  | .parkRingConfigWrite die off data wide => Sys2Proof.Machine.execParkRingConfigWrite die off data wide s
  | .mxIssue g addr quad dst => Sys2Proof.Machine.execMxIssue g addr quad dst s
  | .mxWait g queue src => Sys2Proof.Machine.execMxWait g queue src s
  | .mxModeChange die unit => Sys2Proof.Machine.execMxModeChange die unit s
  | .nop die unit queue => Sys2Proof.Machine.execNop die unit queue s
  | .mma die unit queue => Sys2Proof.Machine.execMma die unit queue s
  | .accLoad die unit queue => Sys2Proof.Machine.execAccLoad die unit queue s
  | .accStore die unit queue => Sys2Proof.Machine.execAccStore die unit queue s
  | .attnFused die unit queue => Sys2Proof.Machine.execAttnFused die unit queue s
  | .attnAppend die unit queue => Sys2Proof.Machine.execAttnAppend die unit queue s
  | .attnDecode die unit queue => Sys2Proof.Machine.execAttnDecode die unit queue s
  | .attnNorm die unit queue => Sys2Proof.Machine.execAttnNorm die unit queue s
  | .step ring seq => Sys2Proof.Machine.execStep ring seq s
  | .stepRelease ring seq => Sys2Proof.Machine.execStepRelease ring seq s
  | .pagesGrow ring seq => Sys2Proof.Machine.execPagesGrow ring seq s
  | .pagesTrim ring seq => Sys2Proof.Machine.execPagesTrim ring seq s
  | .pagesReset ring seq => Sys2Proof.Machine.execPagesReset ring seq s
  | .rdOnce seg line r => Sys2Proof.Machine.execRdOnce seg line r s
  | .rdShared seg line r => Sys2Proof.Machine.execRdShared seg line r s
  | .rdOwn seg line r => Sys2Proof.Machine.execRdOwn seg line r s
  | .wr seg line r => Sys2Proof.Machine.execWr seg line r s
  | .wb seg line r => Sys2Proof.Machine.execWb seg line r s
  | .evict seg line r => Sys2Proof.Machine.execEvict seg line r s
  | .red seg line r => Sys2Proof.Machine.execRed seg line r s
  | .lse seg line r => Sys2Proof.Machine.execLse seg line r s
  | .feltAtomic seg line r => Sys2Proof.Machine.execFeltAtomic seg line r s
  | .flush seg line r => Sys2Proof.Machine.execFlush seg line r s
  | .memrd seg line ue ce => Sys2Proof.Machine.execMemrd seg line ue ce s
  | .memwr seg line => Sys2Proof.Machine.execMemwr seg line s
  | .snpInv seg line agent => Sys2Proof.Machine.execSnpInv seg line agent s
  | .snpFwd seg line agent => Sys2Proof.Machine.execSnpFwd seg line agent s
  | .snpMkf seg line agent => Sys2Proof.Machine.execSnpMkf seg line agent s
  | .snpInvHome seg agent => Sys2Proof.Machine.execSnpInvHome seg agent s
  | .hsnp seg line inv => Sys2Proof.Machine.execHsnp seg line inv s
  | .ack seg line agent => Sys2Proof.Machine.execAck seg line agent s
  | .ackClean seg line agent => Sys2Proof.Machine.execAckClean seg line agent s
  | .ackFwd seg line agent => Sys2Proof.Machine.execAckFwd seg line agent s
  | .miss seg line agent => Sys2Proof.Machine.execMiss seg line agent s
  | .nack seg line agent stream => Sys2Proof.Machine.execNack seg line agent stream s
  | .nackRetry seg line agent stream => Sys2Proof.Machine.execNackRetry seg line agent stream s
  | .go seg line agent stream => Sys2Proof.Machine.execGo seg line agent stream s
  | .abort seg line agent stream => Sys2Proof.Machine.execAbort seg line agent stream s
  | .done seg line agent => Sys2Proof.Machine.execDone seg line agent s
  | .fill seg line agent stream => Sys2Proof.Machine.execFill seg line agent stream s
  | .fwdData seg line agent stream => Sys2Proof.Machine.execFwdData seg line agent stream s
  | .wbData seg line agent => Sys2Proof.Machine.execWbData seg line agent s
  | .memData seg line => Sys2Proof.Machine.execMemData seg line s
  | .atomData seg line agent stream => Sys2Proof.Machine.execAtomData seg line agent stream s
  | .dataWayEviction seg line => Sys2Proof.Machine.execDataWayEviction seg line s
  | .directoryEntryEviction seg line => Sys2Proof.Machine.execDirectoryEntryEviction seg line s
  | .silentEviction agent line => Sys2Proof.Machine.execSilentEviction agent line s
  | .agentEviction agent line => Sys2Proof.Machine.execAgentEviction agent line s
  | .reservationLapse seg line => Sys2Proof.Machine.execReservationLapse seg line s
  | .agentDead agent => Sys2Proof.Machine.execAgentDead agent s
  | .reclaimDone seg agent => Sys2Proof.Machine.execReclaimDone seg agent s
  | .agentRevive agent => Sys2Proof.Machine.execAgentRevive agent s
  | .segmentReset seg unreadable => Sys2Proof.Machine.execSegmentReset seg unreadable s
  | .segMigrate die unit target => Sys2Proof.Machine.execSegMigrate die unit target s
  | .segmentMigrateDone die unit => Sys2Proof.Machine.execSegmentMigrateDone die unit s
  | .segCfgWrite die unit data => Sys2Proof.Machine.execSegCfgWrite die unit data s
  | .wayChangeDone die unit => Sys2Proof.Machine.execWayChangeDone die unit s
  | .repFlush die unit => Sys2Proof.Machine.execRepFlush die unit s
  | .sdThermEval die temp => Sys2Proof.Machine.execSdThermEval die temp s
  | .refresh die far => Sys2Proof.Machine.execRefresh die far s
  | .scrub die far corrected ue => Sys2Proof.Machine.execScrub die far corrected ue s
  | .wckRetrain die pkg sub => Sys2Proof.Machine.execWckRetrain die pkg sub s
  | .memHot die pkg code => Sys2Proof.Machine.execMemHot die pkg code s
  | .repairRow die channel bank row ue => Sys2Proof.Machine.execRepairRow die channel bank row ue s
  | .repairBank die channel bank row => Sys2Proof.Machine.execRepairBank die channel bank row s
  | .bankRepairCommit die ue => Sys2Proof.Machine.execBankRepairCommit die ue s
  | .sppr die pkg cmd ok => Sys2Proof.Machine.execSppr die pkg cmd ok s
  | .hpprRecord die pkg cmd => Sys2Proof.Machine.execHpprRecord die pkg cmd s
  | .epochEnd die => Sys2Proof.Machine.execEpochEnd die s
  | .notifyConfigWrite die off data wide => Sys2Proof.Machine.execNotifyConfigWrite die off data wide s
  | .accessCounterConfigWrite die off data wide => Sys2Proof.Machine.execAccessCounterConfigWrite die off data wide s
  | .walkRead holder stream ue => Sys2Proof.Machine.execWalkRead holder stream ue s
  | .invGo die fn tag => Sys2Proof.Machine.execInvGo die fn tag s
  | .invAck die holder => Sys2Proof.Machine.execInvAck die holder s
  | .invComplete die => Sys2Proof.Machine.execInvComplete die s
  | .dlConfigWrite die off data wide => Sys2Proof.Machine.execDlConfigWrite die off data wide s
  | .dbTail fn ring value => Sys2Proof.Machine.execDbTail fn ring value s
  | .dbCqHead fn ring value => Sys2Proof.Machine.execDbCqHead fn ring value s
  | .ringEnable fn => Sys2Proof.Machine.execRingEnable fn s
  | .ringResetIdx fn => Sys2Proof.Machine.execRingResetIdx fn s
  | .ringDrain fn => Sys2Proof.Machine.execRingDrain fn s
  | .ringForceOff fn => Sys2Proof.Machine.execRingForceOff fn s
  | .rtBaseWrite off data wide => Sys2Proof.Machine.execRtBaseWrite off data wide s
  | .commandStart ring => Sys2Proof.Machine.execCommandStart ring s
  | .kernel ring seq => Sys2Proof.Machine.execKernel ring seq s
  | .copy ring seq => Sys2Proof.Machine.execCopy ring seq s
  | .copyFlush ring seq => Sys2Proof.Machine.execCopyFlush ring seq s
  | .copyFill ring seq => Sys2Proof.Machine.execCopyFill ring seq s
  | .put ring seq => Sys2Proof.Machine.execPut ring seq s
  | .get ring seq => Sys2Proof.Machine.execGet ring seq s
  | .signal ring seq => Sys2Proof.Machine.execSignal ring seq s
  | .wait ring seq => Sys2Proof.Machine.execWait ring seq s
  | .waitEval ring => Sys2Proof.Machine.execWaitEval ring s
  | .collective ring seq => Sys2Proof.Machine.execCollective ring seq s
  | .barrierOrder ring seq => Sys2Proof.Machine.execBarrierOrder ring seq s
  | .barrierComplete ring seq => Sys2Proof.Machine.execBarrierComplete ring seq s
  | .phase ring seq => Sys2Proof.Machine.execPhase ring seq s
  | .snapshot ring seq => Sys2Proof.Machine.execSnapshot ring seq s
  | .dirtylog ring seq => Sys2Proof.Machine.execDirtylog ring seq s
  | .taskIssue => Sys2Proof.Machine.execTaskIssue s
  | .claim ring seq => Sys2Proof.Machine.execClaim ring seq s
  | .spill lt => Sys2Proof.Machine.execSpill lt s
  | .restore die unit => Sys2Proof.Machine.execRestore die unit s
  | .promotion ring seq => Sys2Proof.Machine.execPromotion ring seq s
  | .completionRecord ring => Sys2Proof.Machine.execCompletionRecord ring s
  | .dataFlit port f ok => Sys2Proof.Machine.execDataFlit port f ok s
  | .controlFlit port c ok => Sys2Proof.Machine.execControlFlit port c ok s
  | .replayTimeout port => Sys2Proof.Machine.execReplayTimeout port s
  | .snapTrig port origin seq => Sys2Proof.Machine.execSnapTrig port origin seq s
  | .linkHold port => Sys2Proof.Machine.execLinkHold port s
  | .linkResume port => Sys2Proof.Machine.execLinkResume port s
  | .lambdaReq port lane wl atFseq dir => Sys2Proof.Machine.execLambdaReq port lane wl atFseq dir s
  | .lambdaAck port lane wl atFseq dir => Sys2Proof.Machine.execLambdaAck port lane wl atFseq dir s
  | .lambdaSwitch port => Sys2Proof.Machine.execLambdaSwitch port s
  | .param port node valid peer width4 echo => Sys2Proof.Machine.execParam port node valid peer width4 echo s
  | .paramAck port echo fibre => Sys2Proof.Machine.execParamAck port echo fibre s
  | .retrainReq port reason => Sys2Proof.Machine.execRetrainReq port reason s
  | .lightDetect port crossed number => Sys2Proof.Machine.execLightDetect port crossed number s
  | .lambdaTuneDone port txBad rxBad => Sys2Proof.Machine.execLambdaTuneDone port txBad rxBad s
  | .alignDone port width => Sys2Proof.Machine.execAlignDone port width s
  | .creditDone port => Sys2Proof.Machine.execCreditDone port s
  | .trainingTimeout port => Sys2Proof.Machine.execTrainingTimeout port s
  | .retrainDone port ok => Sys2Proof.Machine.execRetrainDone port ok s
  | .lossOfLight port => Sys2Proof.Machine.execLossOfLight port s
  | .downHoldoff port => Sys2Proof.Machine.execDownHoldoff port s
  | .beaconLoss port => Sys2Proof.Machine.execBeaconLoss port s
  | .linkCmdRetrain port => Sys2Proof.Machine.execLinkCmdRetrain port s
  | .linkCmdDown port => Sys2Proof.Machine.execLinkCmdDown port s
  | .serMeasure port wl errors symbols headroom => Sys2Proof.Machine.execSerMeasure port wl errors symbols headroom s
  | .lambdaCmdFail port wl rx => Sys2Proof.Machine.execLambdaCmdFail port wl rx s
  | .lambdaCmdClear port wl rx => Sys2Proof.Machine.execLambdaCmdClear port wl rx s
  | .rtEntryCommit port off data wide => Sys2Proof.Machine.execRtEntryCommit port off data wide s
  | .nodeIdWrite port data => Sys2Proof.Machine.execNodeIdWrite port data s
  | .crCfgWrite port data => Sys2Proof.Machine.execCrCfgWrite port data s
  | .innerWavelengthFail src dst wl => Sys2Proof.Machine.execInnerWavelengthFail src dst wl s
  | .innerPathDown src dst relay => Sys2Proof.Machine.execInnerPathDown src dst relay s
  | .laserFail die group wl => Sys2Proof.Machine.execLaserFail die group wl s
  | .chunkSend die engine => Sys2Proof.Machine.execChunkSend die engine s
  | .putData die => Sys2Proof.Machine.execPutData die s
  | .signalPacket die => Sys2Proof.Machine.execSignalPacket die s
  | .getReq die => Sys2Proof.Machine.execGetReq die s
  | .cancel die => Sys2Proof.Machine.execCancel die s
  | .getData die => Sys2Proof.Machine.execGetData die s
  | .transferAck die => Sys2Proof.Machine.execTransferAck die s
  | .busy die => Sys2Proof.Machine.execBusy die s
  | .busyRetry queue node cseq => Sys2Proof.Machine.execBusyRetry queue node cseq s
  | .refuse die => Sys2Proof.Machine.execRefuse die s
  | .held die => Sys2Proof.Machine.execHeld die s
  | .heldNotice input => Sys2Proof.Machine.execHeldNotice input s
  | .peerHoldTimeout msg => Sys2Proof.Machine.execPeerHoldTimeout msg s
  | .unreach die => Sys2Proof.Machine.execUnreach die s
  | .getFail die => Sys2Proof.Machine.execGetFail die s
  | .pacePing die => Sys2Proof.Machine.execPacePing die s
  | .pacePingTimer die => Sys2Proof.Machine.execPacePingTimer die s
  | .collectiveSend die slot => Sys2Proof.Machine.execCollectiveSend die slot s
  | .collectiveWait die slot => Sys2Proof.Machine.execCollectiveWait die slot s
  | .collectiveReduce die slot => Sys2Proof.Machine.execCollectiveReduce die slot s
  | .collectiveCopy die slot => Sys2Proof.Machine.execCollectiveCopy die slot s
  | .collectiveSignal die slot => Sys2Proof.Machine.execCollectiveSignal die slot s
  | .pacePublish mean => Sys2Proof.Machine.execPacePublish mean s
  | .lagWindow die => Sys2Proof.Machine.execLagWindow die s
  | .paceMatchEval => Sys2Proof.Machine.execPaceMatchEval s
  | .xeFlowReset data => Sys2Proof.Machine.execXeFlowReset data s
  | .commit => Sys2Proof.Machine.execCommit s
  | .commitAck unit => Sys2Proof.Machine.execCommitAck unit s
  | .discard => Sys2Proof.Machine.execDiscard s
  | .quiesce slice on => Sys2Proof.Machine.execQuiesce slice on s
  | .sliceReset slice => Sys2Proof.Machine.execSliceReset slice s
  | .release slice => Sys2Proof.Machine.execRelease slice s
  | .migLoad => Sys2Proof.Machine.execMigLoad s
  | .bar4Access fn off len write => Sys2Proof.Machine.execBar4Access fn off len write s
  | .cxlMemAccess dpa len keep write => Sys2Proof.Machine.execCxlMemAccess dpa len keep write s
  | .birsp line data => Sys2Proof.Machine.execBirsp line data s
  | .flr fn unreadable => Sys2Proof.Machine.execFlr fn unreadable s
  | .heartbeat => Sys2Proof.Machine.execHeartbeat s
  | .watchdogSample => Sys2Proof.Machine.execWatchdogSample s
  | .failover => Sys2Proof.Machine.execFailover s
  | .wdDeclare ring => Sys2Proof.Machine.execWdDeclare ring s
  | .recoveryEnd lost => Sys2Proof.Machine.execRecoveryEnd lost s
  | .deviceFault => Sys2Proof.Machine.execDeviceFault s
  | .teardownTimeout die unit => Sys2Proof.Machine.execTeardownTimeout die unit s
  | .spareTest page ok => Sys2Proof.Machine.execSpareTest page ok s
  | .pathTest standbyOk inner link => Sys2Proof.Machine.execPathTest standbyOk inner link s
  | .ceRateEval page rate left => Sys2Proof.Machine.execCeRateEval page rate left s
  | .arrayScrub page loc sector ce ue => Sys2Proof.Machine.execArrayScrub page loc sector ce ue s
  | .spareRowFit page loc column => Sys2Proof.Machine.execSpareRowFit page loc column s
  | .tileSubstitution die unit => Sys2Proof.Machine.execTileSubstitution die unit s
  | .hatbox => Sys2Proof.Machine.execHatbox s
  | .hbReq => Sys2Proof.Machine.execHbReq s
  | .hbStatClear => Sys2Proof.Machine.execHbStatClear s
  | .hatboxNorCopy => Sys2Proof.Machine.execHatboxNorCopy s
  | .deviceReset unreadable => Sys2Proof.Machine.execDeviceReset unreadable s
  | .perstN unreadable => Sys2Proof.Machine.execPerstN unreadable s
  | .pwrFailN => Sys2Proof.Machine.execPwrFailN s
  | .pwrFailNDeassert => Sys2Proof.Machine.execPwrFailNDeassert s
  | .inputUndervoltage vin => Sys2Proof.Machine.execInputUndervoltage vin s
  | .inputOvervoltage vin => Sys2Proof.Machine.execInputOvervoltage vin s
  | .efuseOvOpen m => Sys2Proof.Machine.execEfuseOvOpen m s
  | .inputClear vin => Sys2Proof.Machine.execInputClear vin s
  | .thermalHold die sensors => Sys2Proof.Machine.execThermalHold die sensors s
  | .thermalClear temps => Sys2Proof.Machine.execThermalClear temps s
  | .holdTest data => Sys2Proof.Machine.execHoldTest data s
  | .holdTestExpire => Sys2Proof.Machine.execHoldTestExpire s
  | .resumption => Sys2Proof.Machine.execResumption s
  | .holdLong => Sys2Proof.Machine.execHoldLong s
  | .finalJournal m => Sys2Proof.Machine.execFinalJournal m s
  | .efuseLatch m => Sys2Proof.Machine.execEfuseLatch m s
  | .fastTrip m => Sys2Proof.Machine.execFastTrip m s
  | .efuseRetry => Sys2Proof.Machine.execEfuseRetry s
  | .reversePolarity => Sys2Proof.Machine.execReversePolarity s
  | .senseOpen die rail => Sys2Proof.Machine.execSenseOpen die rail s
  | .railShort die rail => Sys2Proof.Machine.execRailShort die rail s
  | .vdiff die => Sys2Proof.Machine.execVdiff die s
  | .thermalTrip die sensors m => Sys2Proof.Machine.execThermalTrip die sensors m s
  | .clamp105 die sensors => Sys2Proof.Machine.execClamp105 die sensors s
  | .gradientCheck temps => Sys2Proof.Machine.execGradientCheck temps s
  | .blockerPeriod m => Sys2Proof.Machine.execBlockerPeriod m s
  | .droop die mv cycles => Sys2Proof.Machine.execDroop die mv cycles s
  | .throttleN asserted => Sys2Proof.Machine.execThrottleN asserted s
  | .throttleStuck => Sys2Proof.Machine.execThrottleStuck s
  | .phaseModelUpdate slice tag power sens => Sys2Proof.Machine.execPhaseModelUpdate slice tag power sens s
  | .energyInterval total own charges dies => Sys2Proof.Machine.execEnergyInterval total own charges dies s
  | .blkCapWrite data => Sys2Proof.Machine.execBlkCapWrite data s
  | .powerOn part vin => Sys2Proof.Machine.execPowerOn part vin s
  | .chipletDiscovery site ok cxl raw rates id => Sys2Proof.Machine.execChipletDiscovery site ok cxl raw rates id s
  | .bootWindowWrite off data => Sys2Proof.Machine.execBootWindowWrite off data s
  | .raiseSvn ok => Sys2Proof.Machine.execRaiseSvn ok s
  | .bringUp nearFail pkgs park dist => Sys2Proof.Machine.execBringUp nearFail pkgs park dist s
  | .startTimeout => Sys2Proof.Machine.execStartTimeout s
  | .journalEraseDone ok => Sys2Proof.Machine.execJournalEraseDone ok s
  | .logEntry tp sev src args => Sys2Proof.Machine.execLogEntry tp sev src args s
  | .logBaseWrite off data wide => Sys2Proof.Machine.execLogBaseWrite off data wide s
  | .norDataRead req => Sys2Proof.Machine.execNorDataRead req s
  | .getVersion => Sys2Proof.Machine.execGetVersion s
  | .getCapabilities version => Sys2Proof.Machine.execGetCapabilities version s
  | .negotiateAlgorithms offered => Sys2Proof.Machine.execNegotiateAlgorithms offered s
  | .getDigests => Sys2Proof.Machine.execGetDigests s
  | .getCertificate slot off len => Sys2Proof.Machine.execGetCertificate slot off len s
  | .challenge slot => Sys2Proof.Machine.execChallenge slot s
  | .getMeasurements index sign => Sys2Proof.Machine.execGetMeasurements index sign s
  | .keyExchange id slot => Sys2Proof.Machine.execKeyExchange id slot s
  | .finish id => Sys2Proof.Machine.execFinish id s
  | .heartbeatSpdm id => Sys2Proof.Machine.execHeartbeatSpdm id s
  | .keyUpdate id => Sys2Proof.Machine.execKeyUpdate id s
  | .endSession id => Sys2Proof.Machine.execEndSession id s
  | .ideKm id stream on => Sys2Proof.Machine.execIdeKm id stream on s
  | .ideFail stream => Sys2Proof.Machine.execIdeFail stream s
  | .chipletRequest site pa r => Sys2Proof.Machine.execChipletRequest site pa r s
  | .cpl site tag err poison data => Sys2Proof.Machine.execCpl site tag err poison data s
  | .evt site bit => Sys2Proof.Machine.execEvt site bit s
  | .csTimeout site tag => Sys2Proof.Machine.execCsTimeout site tag s
  | .ucieLinkLost site => Sys2Proof.Machine.execUcieLinkLost site s
  | .getStatus => Sys2Proof.Machine.execGetStatus s
  | .setCap w => Sys2Proof.Machine.execSetCap w s
  | .clearEfuse => Sys2Proof.Machine.execClearEfuse s
  | .clearAlert => Sys2Proof.Machine.execClearAlert s
  | .moduleReset m => Sys2Proof.Machine.execModuleReset m s
  | .readLog start => Sys2Proof.Machine.execReadLog start s
  | .pldmMonitoring sensor reading => Sys2Proof.Machine.execPldmMonitoring sensor reading s
  | .pldmFirmwareUpdate image => Sys2Proof.Machine.execPldmFirmwareUpdate image s
  | .auxPowerUp modId i3c => Sys2Proof.Machine.execAuxPowerUp modId i3c s
  | .leak => Sys2Proof.Machine.execLeak s
  | .flowLow flow => Sys2Proof.Machine.execFlowLow flow s
  | .bootCmdLoad => Sys2Proof.Machine.execBootCmdLoad s
  | .perstNDeassert bifLow => Sys2Proof.Machine.execPerstNDeassert bifLow s
  | .hostLinkUp rate width flit cxlIo cxlCache cxlMem below => Sys2Proof.Machine.execHostLinkUp rate width flit cxlIo cxlCache cxlMem below s
  | .hostLinkDown => Sys2Proof.Machine.execHostLinkDown s
  | .efuseLatchClear => Sys2Proof.Machine.execEfuseLatchClear s
  | .peerBeacon port => Sys2Proof.Machine.execPeerBeacon port s
  | .ucieLaneRepair site repaired => Sys2Proof.Machine.execUcieLaneRepair site repaired s

end Sys2Proof.Machine
end

