-- ==== Sys2Proof/Machine/Step.lean ====
section
/-! DEFINITION. One step: the command at the front of the queue, or, with nothing queued, one cycle of the clock DEV_TIME
counts in (assumption log 6). -/

namespace Sys2Proof.Machine

/-- DEV_TIME advances by one ACLK cycle, 10 ns, while the supply is up, in HOLD too (R91). -/
def idle (s : State) : State := if s.power.up then { s with now := s.now + 10 } else s

/-- Take the command at the front of the queue and run it with the queue's rest; on an empty queue the block idles. -/
def step (s : State) : Host.Outcome State Fault Refusal :=
  match s.pending with
  | [] => .next (idle s)
  | c :: rest => exec c { s with pending := rest }

/-- `s` with the command that a word spells put at the front of its queue: no word spells one. -/
def State.withFetchWord (s : State) (nbits w : Nat) : State :=
  match decodeTableWord nbits w with
  | some c => { s with pending := c :: s.pending }
  | none => s

end Sys2Proof.Machine
end

