-- ==== Sys2Proof/WellFormed.lean ====
section
/-! DEFINITION. Well-formed commands: every operand of a command lies in the range the spec gives what it names (dies and
units R65 to R68, slots R105, segments R46, registers R103, agents R301, wavelengths and lanes R534, R535). A command that is
not well formed names something the part does not have; the meanings then change nothing, or refuse as the spec says. -/

namespace Sys2Proof

/-- An operand that has a range. -/
inductive Operand where
  | die (n : Nat) | unit (n : Nat) | core (n : Nat) | cluster (n : Nat) | barrier (n : Nat) | group (g : GRef)
  | seg (n : Nat) | line (n : Nat) | agent (n : Nat) | req (r : FReq) | addr (a : AddrForm) | atom (op : AtomOp)
  | port (n : Nat) | lane (n : Nat) | wavelength (n : Nat) | node (n : Nat) | ring (n : Nat) | seq (n : Nat)
  | page (n : Nat) | fn (n : Nat) | requester (n : Nat) | slice (n : Nat) | site (n : Nat) | package (n : Nat)
deriving DecidableEq, Repr

/-- Registers of a thread are 0 to 255 (R103). -/
def regOk (r : Nat) : Bool := decide (r < 256)

/-- An address form names registers that exist. -/
def AddrForm.ok (a : AddrForm) : Bool := a.lo.all regOk && a.hi.all regOk

/-- A Felt request lies in one line: sectors 0 to 3, offsets below 1,024 (R305, R313); its agent exists (R301). -/
def FReq.ok (r : FReq) : Bool :=
  decide (r.agent < 11) && decide (r.off < 1024) && r.sectors.all (fun i => decide (i < 4)) && r.poison.all (fun i => decide (i < 4))
    && r.data.all fun c => decide (c.1 < 1024)

/-- An operand lies in its range. -/
def Operand.ok : Operand → Bool
  | .die n => decide (n < 16)
  | .unit n => decide (n < 64)
  | .core n => decide (n < 4)
  | .cluster n => decide (n < 3)
  | .barrier n => decide (n < 8)
  | .group g => decide (g.die < 8) && decide (g.unit < 15) && decide (g.slot < 64)
  | .seg n => decide (n < 96)
  | .line n => decide (n < 0x4000000000)
  | .agent n => decide (n < 11)
  | .req r => r.ok
  | .addr a => a.ok
  | .atom op => op.addr.ok && regOk op.src && regOk op.cmp && regOk op.dst && decide (op.source < 0x800000)
  | .port n => decide (n < 48)
  | .lane n => decide (n < 8)
  | .wavelength n => decide (n < 9)
  | .node n => decide (n < 4096)
  | .ring n => decide (n < 8192)
  | .seq n => decide (n < 0x100000000)
  | .page n => decide (n < 0x4000)
  | .fn n => decide (n < 64)
  | .requester n => decide (n < 65)
  | .slice n => decide (n < 64)
  | .site n => decide (n < 2)
  | .package n => decide (n < 2)

/-- The operands of a command that have a range. -/
def Instr.operands : Instr → List Operand
  | .registerWrite req _ _ _ => [.requester req]
  | .badRegAccess req _ _ _ => [.requester req]
  | .lowWordRead req _ => [.requester req]
  | .distDataRead req => [.requester req]
  | .distUpdate _ => []
  | .enable page _ _ => [.page page]
  | .drain page _ => [.page page]
  | .forceOff page _ _ _ => [.page page]
  | .reset page _ _ => [.page page]
  | .acceptedWorkFinished page => [.page page]
  | .unitFault page _ _ => [.page page]
  | .evtStatClear page _ _ => [.page page]
  | .evtForce page _ => [.page page]
  | .errCodeClear page => [.page page]
  | .snapFire => []
  | .snapRelease => []
  | .snapTrigAssert => []
  | .taskStart die unit => [.die die, .unit unit]
  | .load g _ addr _ _ => [.group g, .addr addr]
  | .store g _ addr _ _ => [.group g, .addr addr]
  | .ldByp g addr _ _ => [.group g, .addr addr]
  | .ldAcq g addr _ _ _ => [.group g, .addr addr]
  | .stRel g addr _ _ => [.group g, .addr addr]
  | .membarOrder g => [.group g]
  | .membarComplete g => [.group g]
  | .atom g op => [.group g, .atom op]
  | .sreg g _ _ => [.group g]
  | .vectorFpOp g _ _ _ _ _ => [.group g]
  | .specialFunction g _ _ _ => [.group g]
  | .branch g _ => [.group g]
  | .bankConflictReplay die unit core => [.die die, .unit unit, .core core]
  | .partialOverlapReplay die unit core _ => [.die die, .unit unit, .core core]
  | .storeBufferDrain die unit core => [.die die, .unit unit, .core core]
  | .barTile g => [.group g]
  | .barCluster g _ => [.group g]
  | .clusterBarrierRelease die cluster inst => [.die die, .cluster cluster, .barrier inst]
  | .groupRetire g => [.group g]
  | .taskRetire die unit => [.die die, .unit unit]
  | .parkEntryWrite die unit => [.die die, .unit unit]
  | .parkReplay die unit _ _ => [.die die, .unit unit]
  | .parkDiscard die unit _ _ => [.die die, .unit unit]
  | .parkRingConfigWrite die _ _ _ => [.die die]
  | .mxIssue g addr _ _ => [.group g, .addr addr]
  | .mxWait g _ _ => [.group g]
  | .mxModeChange die unit => [.die die, .unit unit]
  | .nop die unit _ => [.die die, .unit unit]
  | .mma die unit _ => [.die die, .unit unit]
  | .accLoad die unit _ => [.die die, .unit unit]
  | .accStore die unit _ => [.die die, .unit unit]
  | .attnFused die unit _ => [.die die, .unit unit]
  | .attnAppend die unit _ => [.die die, .unit unit]
  | .attnDecode die unit _ => [.die die, .unit unit]
  | .attnNorm die unit _ => [.die die, .unit unit]
  | .step ring seq => [.ring ring, .seq seq]
  | .stepRelease ring seq => [.ring ring, .seq seq]
  | .pagesGrow ring seq => [.ring ring, .seq seq]
  | .pagesTrim ring seq => [.ring ring, .seq seq]
  | .pagesReset ring seq => [.ring ring, .seq seq]
  | .rdOnce seg line r => [.seg seg, .line line, .req r]
  | .rdShared seg line r => [.seg seg, .line line, .req r]
  | .rdOwn seg line r => [.seg seg, .line line, .req r]
  | .wr seg line r => [.seg seg, .line line, .req r]
  | .wb seg line r => [.seg seg, .line line, .req r]
  | .evict seg line r => [.seg seg, .line line, .req r]
  | .red seg line r => [.seg seg, .line line, .req r]
  | .lse seg line r => [.seg seg, .line line, .req r]
  | .feltAtomic seg line r => [.seg seg, .line line, .req r]
  | .flush seg line r => [.seg seg, .line line, .req r]
  | .memrd seg line _ _ => [.seg seg, .line line]
  | .memwr seg line => [.seg seg, .line line]
  | .snpInv seg line agent => [.seg seg, .line line, .agent agent]
  | .snpFwd seg line agent => [.seg seg, .line line, .agent agent]
  | .snpMkf seg line agent => [.seg seg, .line line, .agent agent]
  | .snpInvHome seg agent => [.seg seg, .agent agent]
  | .hsnp seg line _ => [.seg seg, .line line]
  | .ack seg line agent => [.seg seg, .line line, .agent agent]
  | .ackClean seg line agent => [.seg seg, .line line, .agent agent]
  | .ackFwd seg line agent => [.seg seg, .line line, .agent agent]
  | .miss seg line agent => [.seg seg, .line line, .agent agent]
  | .nack seg line agent _ => [.seg seg, .line line, .agent agent]
  | .nackRetry seg line agent _ => [.seg seg, .line line, .agent agent]
  | .go seg line agent _ => [.seg seg, .line line, .agent agent]
  | .abort seg line agent _ => [.seg seg, .line line, .agent agent]
  | .done seg line agent => [.seg seg, .line line, .agent agent]
  | .fill seg line agent _ => [.seg seg, .line line, .agent agent]
  | .fwdData seg line agent _ => [.seg seg, .line line, .agent agent]
  | .wbData seg line agent => [.seg seg, .line line, .agent agent]
  | .memData seg line => [.seg seg, .line line]
  | .atomData seg line agent _ => [.seg seg, .line line, .agent agent]
  | .dataWayEviction seg line => [.seg seg, .line line]
  | .directoryEntryEviction seg line => [.seg seg, .line line]
  | .silentEviction agent line => [.agent agent, .line line]
  | .agentEviction agent line => [.agent agent, .line line]
  | .reservationLapse seg line => [.seg seg, .line line]
  | .agentDead agent => [.agent agent]
  | .reclaimDone seg agent => [.seg seg, .agent agent]
  | .agentRevive agent => [.agent agent]
  | .segmentReset seg _ => [.seg seg]
  | .segMigrate die unit _ => [.die die, .unit unit]
  | .segmentMigrateDone die unit => [.die die, .unit unit]
  | .segCfgWrite die unit _ => [.die die, .unit unit]
  | .wayChangeDone die unit => [.die die, .unit unit]
  | .repFlush die unit => [.die die, .unit unit]
  | .sdThermEval die _ => [.die die]
  | .refresh die _ => [.die die]
  | .scrub die _ _ _ => [.die die]
  | .wckRetrain die pkg _ => [.die die, .package pkg]
  | .memHot die pkg _ => [.die die, .package pkg]
  | .repairRow die _ _ _ _ => [.die die]
  | .repairBank die _ _ _ => [.die die]
  | .bankRepairCommit die _ => [.die die]
  | .sppr die pkg _ _ => [.die die, .package pkg]
  | .hpprRecord die pkg _ => [.die die, .package pkg]
  | .epochEnd die => [.die die]
  | .notifyConfigWrite die _ _ _ => [.die die]
  | .accessCounterConfigWrite die _ _ _ => [.die die]
  | .walkRead _ _ _ => []
  | .invGo die fn _ => [.die die, .fn fn]
  | .invAck die _ => [.die die]
  | .invComplete die => [.die die]
  | .dlConfigWrite die _ _ _ => [.die die]
  | .dbTail fn ring _ => [.fn fn, .ring ring]
  | .dbCqHead fn ring _ => [.fn fn, .ring ring]
  | .ringEnable fn => [.fn fn]
  | .ringResetIdx fn => [.fn fn]
  | .ringDrain fn => [.fn fn]
  | .ringForceOff fn => [.fn fn]
  | .rtBaseWrite _ _ _ => []
  | .commandStart ring => [.ring ring]
  | .kernel ring seq => [.ring ring, .seq seq]
  | .copy ring seq => [.ring ring, .seq seq]
  | .copyFlush ring seq => [.ring ring, .seq seq]
  | .copyFill ring seq => [.ring ring, .seq seq]
  | .put ring seq => [.ring ring, .seq seq]
  | .get ring seq => [.ring ring, .seq seq]
  | .signal ring seq => [.ring ring, .seq seq]
  | .wait ring seq => [.ring ring, .seq seq]
  | .waitEval ring => [.ring ring]
  | .collective ring seq => [.ring ring, .seq seq]
  | .barrierOrder ring seq => [.ring ring, .seq seq]
  | .barrierComplete ring seq => [.ring ring, .seq seq]
  | .phase ring seq => [.ring ring, .seq seq]
  | .snapshot ring seq => [.ring ring, .seq seq]
  | .dirtylog ring seq => [.ring ring, .seq seq]
  | .taskIssue => []
  | .claim ring seq => [.ring ring, .seq seq]
  | .spill _ => []
  | .restore die unit => [.die die, .unit unit]
  | .promotion ring seq => [.ring ring, .seq seq]
  | .completionRecord ring => [.ring ring]
  | .dataFlit port _ _ => [.port port]
  | .controlFlit port _ _ => [.port port]
  | .replayTimeout port => [.port port]
  | .snapTrig port _ seq => [.port port, .seq seq]
  | .linkHold port => [.port port]
  | .linkResume port => [.port port]
  | .lambdaReq port lane wl _ _ => [.port port, .lane lane, .wavelength wl]
  | .lambdaAck port lane wl _ _ => [.port port, .lane lane, .wavelength wl]
  | .lambdaSwitch port => [.port port]
  | .param port node _ _ _ _ => [.port port, .node node]
  | .paramAck port _ _ => [.port port]
  | .retrainReq port _ => [.port port]
  | .lightDetect port _ _ => [.port port]
  | .lambdaTuneDone port _ _ => [.port port]
  | .alignDone port _ => [.port port]
  | .creditDone port => [.port port]
  | .trainingTimeout port => [.port port]
  | .retrainDone port _ => [.port port]
  | .lossOfLight port => [.port port]
  | .downHoldoff port => [.port port]
  | .beaconLoss port => [.port port]
  | .linkCmdRetrain port => [.port port]
  | .linkCmdDown port => [.port port]
  | .serMeasure port wl _ _ _ => [.port port, .wavelength wl]
  | .lambdaCmdFail port wl _ => [.port port, .wavelength wl]
  | .lambdaCmdClear port wl _ => [.port port, .wavelength wl]
  | .rtEntryCommit port _ _ _ => [.port port]
  | .nodeIdWrite port _ => [.port port]
  | .crCfgWrite port _ => [.port port]
  | .innerWavelengthFail _ _ wl => [.wavelength wl]
  | .innerPathDown _ _ _ => []
  | .laserFail die _ wl => [.die die, .wavelength wl]
  | .chunkSend die _ => [.die die]
  | .putData die => [.die die]
  | .signalPacket die => [.die die]
  | .getReq die => [.die die]
  | .cancel die => [.die die]
  | .getData die => [.die die]
  | .transferAck die => [.die die]
  | .busy die => [.die die]
  | .busyRetry _ node _ => [.node node]
  | .refuse die => [.die die]
  | .held die => [.die die]
  | .heldNotice _ => []
  | .peerHoldTimeout _ => []
  | .unreach die => [.die die]
  | .getFail die => [.die die]
  | .pacePing die => [.die die]
  | .pacePingTimer die => [.die die]
  | .collectiveSend die _ => [.die die]
  | .collectiveWait die _ => [.die die]
  | .collectiveReduce die _ => [.die die]
  | .collectiveCopy die _ => [.die die]
  | .collectiveSignal die _ => [.die die]
  | .pacePublish _ => []
  | .lagWindow die => [.die die]
  | .paceMatchEval => []
  | .xeFlowReset _ => []
  | .commit => []
  | .commitAck unit => [.page unit]
  | .discard => []
  | .quiesce slice _ => [.slice slice]
  | .sliceReset slice => [.slice slice]
  | .release slice => [.slice slice]
  | .migLoad => []
  | .bar4Access fn _ _ _ => [.fn fn]
  | .cxlMemAccess _ _ _ _ => []
  | .birsp line _ => [.line line]
  | .flr fn _ => [.fn fn]
  | .heartbeat => []
  | .watchdogSample => []
  | .failover => []
  | .wdDeclare ring => [.ring ring]
  | .recoveryEnd _ => []
  | .deviceFault => []
  | .teardownTimeout die unit => [.die die, .unit unit]
  | .spareTest page _ => [.page page]
  | .pathTest _ _ _ => []
  | .ceRateEval page _ _ => [.page page]
  | .arrayScrub page _ _ _ _ => [.page page]
  | .spareRowFit page _ _ => [.page page]
  | .tileSubstitution die unit => [.die die, .unit unit]
  | .hatbox => []
  | .hbReq => []
  | .hbStatClear => []
  | .hatboxNorCopy => []
  | .deviceReset _ => []
  | .perstN _ => []
  | .pwrFailN => []
  | .pwrFailNDeassert => []
  | .inputUndervoltage _ => []
  | .inputOvervoltage _ => []
  | .efuseOvOpen _ => []
  | .inputClear _ => []
  | .thermalHold die _ => [.die die]
  | .thermalClear _ => []
  | .holdTest _ => []
  | .holdTestExpire => []
  | .resumption => []
  | .holdLong => []
  | .finalJournal _ => []
  | .efuseLatch _ => []
  | .fastTrip _ => []
  | .efuseRetry => []
  | .reversePolarity => []
  | .senseOpen die _ => [.die die]
  | .railShort die _ => [.die die]
  | .vdiff die => [.die die]
  | .thermalTrip die _ _ => [.die die]
  | .clamp105 die _ => [.die die]
  | .gradientCheck _ => []
  | .blockerPeriod _ => []
  | .droop die _ _ => [.die die]
  | .throttleN _ => []
  | .throttleStuck => []
  | .phaseModelUpdate slice _ _ _ => [.slice slice]
  | .energyInterval _ _ _ _ => []
  | .blkCapWrite _ => []
  | .powerOn _ _ => []
  | .chipletDiscovery site _ _ _ _ _ => [.site site]
  | .bootWindowWrite _ _ => []
  | .raiseSvn _ => []
  | .bringUp _ _ _ _ => []
  | .startTimeout => []
  | .journalEraseDone _ => []
  | .logEntry _ _ _ _ => []
  | .logBaseWrite _ _ _ => []
  | .norDataRead req => [.requester req]
  | .getVersion => []
  | .getCapabilities _ => []
  | .negotiateAlgorithms _ => []
  | .getDigests => []
  | .getCertificate _ _ _ => []
  | .challenge _ => []
  | .getMeasurements _ _ => []
  | .keyExchange _ _ => []
  | .finish _ => []
  | .heartbeatSpdm _ => []
  | .keyUpdate _ => []
  | .endSession _ => []
  | .ideKm _ _ _ => []
  | .ideFail _ => []
  | .chipletRequest site _ r => [.site site, .req r]
  | .cpl site _ _ _ _ => [.site site]
  | .evt site _ => [.site site]
  | .csTimeout site _ => [.site site]
  | .ucieLinkLost site => [.site site]
  | .getStatus => []
  | .setCap _ => []
  | .clearEfuse => []
  | .clearAlert => []
  | .moduleReset _ => []
  | .readLog _ => []
  | .pldmMonitoring _ _ => []
  | .pldmFirmwareUpdate _ => []
  | .auxPowerUp _ _ => []
  | .leak => []
  | .flowLow _ => []
  | .bootCmdLoad => []
  | .perstNDeassert _ => []
  | .hostLinkUp _ _ _ _ _ _ _ => []
  | .hostLinkDown => []
  | .efuseLatchClear => []
  | .peerBeacon port => [.port port]
  | .ucieLaneRepair site _ => [.site site]

/-- Whether every operand of a command lies in its range. -/
def Instr.wf (i : Instr) : Bool := i.operands.all Operand.ok

end Sys2Proof
end

