-- ==== Sys2Proof/Safety.lean ====
section
/-! DEFINITION. What counts as a safe run, in the terms the statements use. -/

namespace Sys2Proof.Machine

/-- What every step keeps: memory stays in its one canonical form. -/
abbrev State.inv (s : State) : Prop := Memory.wf s.mem

/-- Every command waiting is well formed. -/
abbrev State.queueWf (s : State) : Prop := ∀ c ∈ s.pending, c.wf = true

/-- A command answers a next state, no fault and no refusal, and `P` holds of that state. -/
def answers (c : Instr) (s : State) (P : State → Prop) : Prop := ∃ t, exec c s = .next t ∧ P t

/-- An instruction of a thread group is performed: its group may issue, nothing waits at its boundary, its fetch translates
with EXEC and its registers exist (R103, R109, R142, R445). -/
def mayIssue (g : GRef) (k : Task) (gr : Group) (regs : List Nat) (s : State) : Prop :=
  issuer s g = some (k, gr) ∧ fetchOk s g k gr regs = true

/-- Group `r` stands in the slot of `g`, and nothing else of the state changed but stored registers and progress counters. -/
def groupBecomes (g : GRef) (r : Group) (s t : State) : Prop :=
  t.tiles = (setGroup g.die g.unit g.slot r s).tiles ∧ t = { s with tiles := t.tiles, regs := t.regs, ringProg := t.ringProg }

/-- Every active thread's register `dst` has the value `f` gives it, the PC has passed the instruction, and no other register of
the group changed. -/
def wroteReg (gr r : Group) (dst : Nat) (f : Nat → Word) : Prop :=
  r = { gr with pc := gr.pc + 8, regs := r.regs } ∧ (∀ th ∈ gr.active, r.reg th dst = f th)
    ∧ ∀ th x, x < 256 → (x ≠ dst ∨ th ∉ gr.active) → r.reg th x = gr.reg th x

/-- A home takes a request: its sender's generation is the one expected, the segment is in service and not resetting, and the
arrays read whole (R319, R343, R346). -/
abbrev homeTakes (seg : Nat) (r : FReq) (s : State) : Prop :=
  r.agen = expectGen s seg r.agent ∧ (segSt s seg).resetting = false ∧ (unitSt s (segPage s seg)).state = .active
    ∧ r.ueDir = false ∧ r.ueData = []

/-- A line is in no transaction and reserved for nobody, at a segment below its limit of transactions (R319). -/
abbrev lineIdle (seg line : Nat) (s : State) : Prop :=
  (home s seg line).trans = none ∧ (home s seg line).rsvd = none ∧ openTrans s seg < 992

/-- A message of a kind for a line to an agent and stream is in flight. -/
def inNet (k : FMsgKind) (seg line agent stream : Nat) (s : State) (P : FMsg → Prop) : Prop :=
  ∃ m ∈ s.felt.net, m.kind = k ∧ m.seg = seg ∧ m.line = line ∧ m.agent = agent ∧ m.stream = stream ∧ P m

/-- A step that neither faults nor refuses. -/
def safeStep (s : State) : Prop := ∃ t, step s = .next t

end Sys2Proof.Machine
end

