-- ==== Sys2Proof/Certificates/Slice0/Obligations.lean ====
section
/-! DEFINITION. The statements for the provers. `answers c s P` says that command `c` on state `s` answers a next state that `P`
holds of. -/

open Sys2Proof Sys2Proof.Machine

/-- A step runs the command at the front of the queue with the queue's rest (95_what_each_step_holds.md (the commands of the block)). -/
def Obligations.StepRunsFrontCommand : Prop :=
  (∀ (s : State) (c : Instr) (rest : List Instr), s.pending = c :: rest → step s = exec c { s with pending := rest })
  ∧ ∀ s : State, s.pending = [] → step s = .next { s with now := if s.power.up then s.now + 10 else s.now }

/-- A register write that is narrow or not naturally aligned does nothing but set BAD_REG_ACCESS; a narrow read returns its bytes (R62). -/
def Obligations.MisalignedRegisterAccess : Prop :=
  (∀ (s : State) (req off : Nat) (data : DWord) (wide : Bool), off % (if wide then 8 else 4) ≠ 0 →
    exec (.registerWrite req off data wide) s = .next (event pHostif 0 s))
  ∧ (∀ (s : State) (req off bytes : Nat), 0 < bytes → bytes < 4 → exec (.badRegAccess req off bytes true) s = .next (event pHostif 0 s))
  ∧ (∀ (s : State) (req off bytes : Nat), 0 < bytes → bytes < 4 → off % 4 + bytes ≤ 4 →
      answers (.badRegAccess req off bytes false) s fun t =>
        t.out.head? = some (.readData req off ((read32 req (off / 4 * 4) s).1 / 2 ^ (8 * (off % 4)) % 2 ^ (8 * bytes)))
          ∧ t = emit (.readData req off ((read32 req (off / 4 * 4) s).1 / 2 ^ (8 * (off % 4)) % 2 ^ (8 * bytes))) (read32 req (off / 4 * 4) s).2)
  ∧ ∀ (s : State) (req off bytes : Nat), 0 < bytes → (bytes < 4 → 4 < off % 4 + bytes) → (bytes = 4 ∨ bytes = 8 → off % bytes ≠ 0) →
      exec (.badRegAccess req off bytes false) s = .next (event pHostif 0 (emit (.readData req off 0) s))

/-- A write of a plain register changes its writable bits and nothing else; in HOLD a write to a compute die waits (02_register_pages.md R18, R95, 16_power.md R759). -/
def Obligations.PlainRegisterWritten : Prop :=
  (∀ (s : State) (v : DWord), answers (.registerWrite 0 (pSnap * 0x1000 + 0x100) v false) s fun t =>
    rd t pSnap 0x100 &&& 0xFF0F = BitVec.ofNat 32 v.toNat &&& 0xFF0F ∧ t = { s with regs := t.regs })
  ∧ (∀ (s : State) (req off : Nat) (v : DWord), off % 4 = 0 → 0x4000000 ≤ off → exec (.registerWrite req off v false) s = .next s)
  ∧ ∀ (s : State) (off : Nat) (v : DWord), s.inHold = true → off % 4 = 0 → pageDie (off / 0x1000) < 8 →
      exec (.registerWrite 64 off v false) s = .next (holdWrite 64 off v false s)

/-- Reading the low then the high word of a 64-bit counter gives one value, whatever changed between (02_register_pages.md R63). -/
def Obligations.CounterReadIsWhole : Prop :=
  ∀ (s u : State) (req off : Nat), off % 4 = 0 → off + 4 < 0x4000000 → (off + 4) / 0x1000 = off / 0x1000 →
    isCounter64 (off / 0x1000) (off % 0x1000) = true → isCounter64 (off / 0x1000) (off % 0x1000 + 4) = false →
    mayRead s req (off / 0x1000) (off % 0x1000) = true → mayRead u req (off / 0x1000) (off % 0x1000 + 4) = true →
    pagePresent s (off / 0x1000) = true → pagePresent u (off / 0x1000) = true →
    answers (.lowWordRead req off) s fun t =>
      t.out = .readData req off (readWord s req (off / 0x1000) (off % 0x1000)).toNat :: s.out
        ∧ (shadowOf u req = shadowOf t req → answers (.lowWordRead req (off + 4)) u fun v =>
            v.out = .readData req (off + 4) (readWord s req (off / 0x1000) (off % 0x1000 + 4)).toNat :: u.out)

/-- Reads of DIST_DATA and NOR_DATA put the data out and advance their index; DIST_UPDATE makes entries read back (01_organisation.md R51, R52, 17_firmware.md R810). -/
def Obligations.DataPortReads : Prop :=
  (∀ s : State, answers (.distDataRead 0) s fun t =>
      t.out = .readData 0 (pDist * 0x1000 + 0x104) (BitVec.ofNat 32 (distData s)).toNat :: s.out
        ∧ (bitOf (rd s pDist 0x100) 31 = false → t.regs = s.regs)
        ∧ (bitOf (rd s pDist 0x100) 31 = true →
            rd t pDist 0x100 = setFld (rd s pDist 0x100) 13 0 (fld (rd s pDist 0x100) 13 0 + 1)))
  ∧ (∀ s : State, answers (.norDataRead 64) s fun t =>
      t = emit (.readData 64 (pJournal * 0x1000 + 0x114) (norData s).toNat) (norRead s))
  ∧ ∀ (s : State) (i : Nat) (w : Word), i < 15360 → answers (.distUpdate [(i, w)]) s fun t =>
      sget (fun _ => (0 : Word)) t.org.dist i = w
        ∧ (∀ j, j ≠ i → sget (fun _ => (0 : Word)) t.org.dist j = sget (fun _ => (0 : Word)) s.org.dist j)
        ∧ ∃ u : State, t = event pDist 0 u ∧ rd u pDist 0x108 = rd s pDist 0x108 + 2

/-- EVT_FORCE sets bits, EVT_STAT_CLEAR clears them but for those hardware sets in the same cycle, ERR_CODE_CLEAR clears the record (02_register_pages.md R19, R79 to R81, R84, R86). -/
def Obligations.EventBitsForcedAndCleared : Prop :=
  (∀ (s : State) (p : Nat) (bits : Word), p < 0x4000 → hasHeader p = true → isGroupPage p = false → pagePresent s p = true →
    s.inHold = false → answers (.evtForce p bits) s fun t =>
      t = raiseEvt p (bits &&& 0xEFFFFFFF) s
        ∧ rd t p 0x10 &&& (rd s p 0x10 ||| bits &&& 0xEFFFFFFF) = rd s p 0x10 ||| bits &&& 0xEFFFFFFF)
  ∧ (∀ (s : State) (p : Nat) (bits : Word), p < 0x4000 → hasHeader p = true → isGroupPage p = true → s.inHold = false →
      exec (.evtForce p bits) s = .next s)
  ∧ (∀ (s : State) (p : Nat) (bits hw : Word), hasHeader p = true → isGroupPage p = false → pagePresent s p = true →
      s.inHold = false → answers (.evtStatClear p bits hw) s fun t => rd t p 0x10 &&& hw = hw)
  ∧ (∀ (s : State) (p : Nat) (bits : Word), hasHeader p = true → isGroupPage p = false → pagePresent s p = true →
      s.inHold = false → answers (.evtStatClear p bits 0) s fun t => rd t p 0x10 = rd s p 0x10 &&& ~~~bits)
  ∧ ∀ (s : State) (p : Nat), p < 0x4000 → hasHeader p = true → pagePresent s p = true → s.inHold = false →
      answers (.errCodeClear p) s fun t => (∀ i, i < 8 → rd t p (0x20 + 4 * i) = 0) ∧ rd t p 0x10 = rd s p 0x10

/-- A leaf unit follows the table of R76 when ENABLE or DRAIN is written, and waits for resumption in HOLD (02_register_pages.md R74 to R77, 16_power.md R759). -/
def Obligations.UnitTakesEnableAndDrain : Prop :=
  (∀ (s : State) (p : Nat) (k : PageKind) (on : Bool), pageKind p = some k → k.honoursCtrl = true → isLeaf p = true →
    counted s p = true → s.inHold = false → answers (.enable p on false) s fun t =>
      ∃ u : State, (unitSt u p).enable = on ∧ (unitSt u p).drain = (unitSt s p).drain ∧ (unitSt u p).gen = (unitSt s p).gen
        ∧ (unitSt u p).state = ctrlState (unitSt s p) on (unitSt s p).drain ∧ (∀ q, q ≠ p → unitSt u q = unitSt s q) ∧ u.mem = s.mem
        ∧ t = commitFollow (dispSync (if pageKind p = some .port then portFollow (6 * pageDie p + (pageUnit p - 36)) u else u)))
  ∧ (∀ (s : State) (p : Nat) (k : PageKind) (on : Bool), pageKind p = some k → k.honoursCtrl = true → isLeaf p = true →
      counted s p = true → s.inHold = false → answers (.drain p on) s fun t =>
      ∃ u : State, (unitSt u p).drain = on ∧ (unitSt u p).enable = (unitSt s p).enable ∧ (unitSt u p).gen = (unitSt s p).gen
        ∧ (unitSt u p).state = ctrlState (unitSt s p) (unitSt s p).enable on ∧ (∀ q, q ≠ p → unitSt u q = unitSt s q) ∧ u.mem = s.mem
        ∧ t = commitFollow (dispSync (if pageKind p = some .port then portFollow (6 * pageDie p + (pageUnit p - 36)) u else u)))
  ∧ (∀ u : UnitSt, u.state = .off → u.enable = false → ctrlState u true false = .active ∧ ctrlState u true true = .draining)
  ∧ (∀ u : UnitSt, u.state = .active → (u.enable = true → ctrlState u false u.drain = .draining)
      ∧ (u.drain = false → ctrlState u u.enable true = .draining))
  ∧ (∀ u : UnitSt, u.state = .draining → (u.enable = false → ctrlState u true false = .active)
      ∧ (u.drain = true → ctrlState u true false = .active) ∧ ctrlState u false u.drain = .draining)
  ∧ (∀ (u : UnitSt) (e d : Bool), u.state = .faulted → ctrlState u e d = .faulted)
  ∧ (∀ (s : State) (p : Nat) (k : PageKind) (e d : Bool) (l : List (Nat × Nat)), pageKind p = some k → k.honoursCtrl = true →
      s.inHold = false → exec (.forceOff p e d l) s = .next (unitForceOff p d l s) ∧ exec (.reset p true l) s = .next (unitReset p l s)
        ∧ exec (.reset p false l) s = .next (unitReset p l s) ∧ exec (.enable p e true) s = .next (unitForceOff p (unitSt s p).drain [] s))
  ∧ ∀ (s : State) (p : Nat) (k : PageKind) (e d : Bool) (l : List (Nat × Nat)), pageKind p = some k → k.honoursCtrl = true →
      s.inHold = true → answers (.forceOff p e d l) s fun t => unitSt t p = unitSt s p ∧ t.mem = s.mem ∧ t.regs = s.regs
        ∧ t.power.hold.writes.length = s.power.hold.writes.length + 1

/-- FORCE_OFF with RESET acts as RESET; FORCE_OFF with ENABLE leaves a leaf unit OFF with ENABLE 0 (02_register_pages.md R77, R78, 15_recovery.md R680). -/
def Obligations.ForceOffAndResetTogether : Prop :=
  (∀ (s : State) (p : Nat) (l : List (Nat × Nat)), s.inHold = false → exec (.reset p true l) s = exec (.reset p false l) s)
  ∧ (∀ (s : State) (p : Nat) (e : Bool), s.inHold = false → exec (.enable p e true) s = exec (.forceOff p e (unitSt s p).drain []) s)
  ∧ (∀ (s : State) (own p : Nat) (d : Bool), (unitSt s p).state ≠ .faulted →
      pageKind p ≠ some .segment → pageKind p ≠ some .port →
      (unitSt (forceLeaf own d s p) p).state = .off ∧ (unitSt (forceLeaf own d s p) p).enable = false)
  ∧ ∀ (s : State) (own p : Nat) (d : Bool), (unitSt s p).state = .faulted → pageKind p ≠ some .port →
      (unitSt (forceLeaf own d s p) p).state = .faulted ∧ (unitSt (forceLeaf own d s p) p).enable = false

/-- A trigger latches every page and counts in SNAP_SEQ; while LATCHED without OVERWRITE it is only counted in SNAP_MISSED (02_register_pages.md R93 to R97, R99, 12_birore_links.md R575, 18_interfaces.md R840). -/
def Obligations.SnapshotTriggers : Prop :=
  (∀ s : State, (snapLatched s && !bitOf (rd s pSnap 0x100) 3) = false → answers .snapFire s fun t =>
      fld (rd t pSnap 0x110) 15 0 = (fld (rd s pSnap 0x110) 15 0 + 1) % 0x10000 ∧ rd t pSnap 0x10C = 0x202 ∧ rd t pSnap 0x114 = rd s pSnap 0x114
        ∧ t.mem = s.mem ∧ t.units = s.units)
  ∧ (∀ s : State, snapLatched s = true → bitOf (rd s pSnap 0x100) 3 = false →
      exec .snapFire s = .next (satInc pSnap 0x114 1 s))
  ∧ (∀ s : State, snapLatched s = true → answers .snapRelease s fun t =>
      snapLatched t = false ∧ bitOf (rd t pSnap 0x10C) 0 = true ∧ fld (rd t pSnap 0x10C) 15 8 = fld (rd s pSnap 0x10C) 15 8
        ∧ rd t pSnap 0x110 = rd s pSnap 0x110)
  ∧ (∀ (s : State) (at' : Nat), s.power.up = true → s.snap.lastPin = some at' → s.now < at' + 100000 →
      exec .snapTrigAssert s = .next (satInc pSnap 0x118 1 s))
  ∧ (∀ s : State, s.power.up = true → (∀ at', s.snap.lastPin = some at' → at' + 100000 ≤ s.now) → bitOf (rd s pSnap 0x100) 0 = true →
      exec .snapTrigAssert s = .next (snapTrigger 1 { s with snap := { s.snap with lastPin := some s.now } }))
  ∧ (∀ (s : State) (k o q : Nat), bitOf (rd s pSnap 0x100) 1 = true → s.snap.seen.contains (o, q) = true →
      exec (.snapTrig k o q) s = .next s)
  ∧ (∀ (s : State) (k o q : Nat), bitOf (rd s pSnap 0x100) 1 = true → s.snap.seen.contains (o, q) = false → s.inHold = true →
      exec (.snapTrig k o q) s = .next { s with snap := { s.snap with waiting := s.snap.waiting ++ [(k, o, q)] } })
  ∧ ∀ (s : State) (k o q : Nat), bitOf (rd s pSnap 0x100) 1 = true → s.snap.seen.contains (o, q) = false → s.inHold = false →
      (snapLatched s && !bitOf (rd s pSnap 0x100) 3) = false → answers (.snapTrig k o q) s fun t =>
        rd t pSnap 0x10C = 0x802 ∧ t.snap.seen = ((o, q) :: s.snap.seen).take 16 ∧ t.mem = s.mem
          ∧ ∀ j, j < 48 → j ≠ k → portLState s j = 6 → Out.snapTrig j o q ∈ t.out

/-- SREG, VECTOR_FP_OP and SPECIAL_FUNCTION write one register of every active thread and advance the PC; the branches change mask and PC (03_tiles.md R108, R111 to R113, R859, 11_submission.md R493). -/
def Obligations.RegisterInstructionsWriteOneRegister : Prop :=
  (∀ (s : State) (g : GRef) (k : Task) (gr : Group) (sel : SregSel) (dst : Nat), dst < 256 → mayIssue g k gr [dst] s →
    answers (.sreg g sel dst) s fun t => ∃ r : Group, groupBecomes g r s t
      ∧ wroteReg gr r dst fun th => BitVec.ofNat 32 (sregValue k g.slot sel th))
  ∧ (∀ (s : State) (g : GRef) (k : Task) (gr : Group) (op : FpOp) (dst a b c : Nat), dst < 256 → mayIssue g k gr [dst, a, b, c] s →
      answers (.vectorFpOp g op dst a b c) s fun t => ∃ r : Group, groupBecomes g r s t
        ∧ wroteReg gr r dst (fun th => (fpApply op (gr.reg th a) (gr.reg th b) (gr.reg th c)).1)
        ∧ rd t (vcPage g.die g.unit g.slot) 0x108 = rd s (vcPage g.die g.unit g.slot) 0x108
            ||| BitVec.ofNat 32 (orFlags gr.active fun th => (fpApply op (gr.reg th a) (gr.reg th b) (gr.reg th c)).2))
  ∧ (∀ (s : State) (g : GRef) (k : Task) (gr : Group) (op : SfOp) (dst a : Nat), dst < 256 → mayIssue g k gr [dst, a] s →
      answers (.specialFunction g op dst a) s fun t => ∃ r : Group, groupBecomes g r s t
        ∧ wroteReg gr r dst (fun th => (sfApply op (gr.reg th a)).1)
        ∧ rd t (vcPage g.die g.unit g.slot) 0x108 = rd s (vcPage g.die g.unit g.slot) 0x108
            ||| BitVec.ofNat 32 (orFlags gr.active fun th => (sfApply op (gr.reg th a)).2))
  ∧ (∀ a b c : Word, isNan32 a = true → (fpApply .add a b c).1 = 0x7FC00000 ∧ (fpApply .add b a c).1 = 0x7FC00000
      ∧ (fpApply .mul a b c).1 = 0x7FC00000 ∧ (fpApply .sqrt a b c).1 = 0x7FC00000)
  ∧ (∀ (s : State) (g : GRef) (k : Task) (gr : Group) (op : BranchOp), mayIssue g k gr (branchRegs op) s →
      answers (.branch g op) s fun t => groupBecomes g (branchGroup op gr) s t ∧ (branchGroup op gr).regs = gr.regs)
  ∧ (∀ (gr : Group) (r join th : Nat), th < 32 →
      (th ∈ (branchGroup (.split r join) gr).active ↔ th ∈ gr.active ∧ gr.reg th r ≠ 0)
        ∧ (branchGroup (.split r join) gr).stack = (gr.mask, join) :: gr.stack)
  ∧ (∀ (gr : Group) (m : BitVec 32) (j target : Nat) (rest : List (BitVec 32 × Nat)), gr.stack = (m, j) :: rest →
      (branchGroup .join gr).mask = m ∧ (branchGroup .join gr).stack = rest ∧ (branchGroup .join gr).pc = gr.pc + 8
        ∧ (branchGroup (.other target) gr).mask = m &&& ~~~gr.mask)
  ∧ ∀ (gr : Group) (target : Nat), branchGroup (.jump target) gr = { gr with pc := target }

/-- A load writes its registers with the bytes of the scratchpad, the store buffer or the coherent memory, and changes nothing else (03_tiles.md R116, R117, R122 to R124, 08_memory_model.md R366, R369, R370). -/
def Obligations.LoadsWriteWhatTheTargetHolds : Prop :=
  (∀ (s : State) (g : GRef) (k : Task) (gr : Group) (addr : AddrForm) (dst n : Nat) (l : List ScratchAcc), dst + 4 ≤ 256 → accSize n = true →
    mayIssue g k gr (regSpan dst n ++ formRegs addr) s → gr.ordered = false → accesses s g k gr .scratch addr .read n = .scratch l →
    sbOf (tileSt s g.die g.unit) (g.slot / 16) = [] → replaysOf (tileSt s g.die g.unit) (g.slot / 16) = [] →
    winners (rowsOf n l) = rowsOf n l → (∀ r ∈ rowsOf n l, r.2 ∉ (tileSt s g.die r.1).scratchPoison) →
    (∀ r ∈ s.host.raw, r.slot ≠ some (g.die, g.unit, g.slot)) →
    answers (.load g .scratch addr dst n) s fun t => t.mem = s.mem ∧ t.felt = s.felt ∧ (∀ d u, (tileSt t d u).scratch = (tileSt s d u).scratch)
      ∧ ∃ r : Group, groupOf (tileSt t g.die g.unit) g.slot = some r ∧ r.pc = gr.pc + 8 ∧ r.mask = gr.mask
      ∧ (∀ a ∈ l, ∀ i, i < (n + 3) / 4 →
          r.reg a.thread (dst + i) = BitVec.ofNat 32 (leNat ((((tileSt s g.die a.tile).bytes a.off n).drop (4 * i)).take 4)))
      ∧ ∀ th x, x < 256 → (x < dst ∨ dst + (n + 3) / 4 ≤ x) → r.reg th x = gr.reg th x)
  ∧ (∀ (s : State) (g : GRef) (k : Task) (gr : Group) (addr : AddrForm) (dst n th : Nat) (a : ScratchAcc) (bs : List Byte), dst + 4 ≤ 256 →
      accSize n = true → mayIssue g k gr (regSpan dst n ++ formRegs addr) s → gr.ordered = false → gr.active = [th] →
      accesses s g k gr .scratch addr .read n = .scratch [a] → sbCheck (sbOf (tileSt s g.die g.unit) (g.slot / 16)) (scratchKeys a n) = .all bs →
      replaysOf (tileSt s g.die g.unit) (g.slot / 16) = [] → (∀ r ∈ s.host.raw, r.slot ≠ some (g.die, g.unit, g.slot)) →
      answers (.load g .scratch addr dst n) s fun t => t.mem = s.mem ∧ t.felt = s.felt
        ∧ ∃ r : Group, groupOf (tileSt t g.die g.unit) g.slot = some r ∧ r.pc = gr.pc + 8
        ∧ ∀ i, i < (n + 3) / 4 → r.reg th (dst + i) = BitVec.ofNat 32 (leNat ((bs.drop (4 * i)).take 4)))
  ∧ (∀ (s : State) (g : GRef) (k : Task) (gr : Group) (addr : AddrForm) (dst n : Nat) (l : List MemAcc), dst + 4 ≤ 256 → accSize n = true →
      mayIssue g k gr (regSpan dst n ++ formRegs addr) s → gr.ordered = false → accesses s g k gr .mem addr .read n = .mem l →
      (∀ a ∈ l, ∃ p, a.parts = [p] ∧ p.mtype ≠ 3 ∧ ∀ x ∈ sectorsOf p.pa p.len, cohPoison s p.il x.1 = false) →
      sbOf (tileSt s g.die g.unit) (g.slot / 16) = [] → replaysOf (tileSt s g.die g.unit) (g.slot / 16) = [] →
      loadReady s g true l = true → (∀ r ∈ s.host.raw, r.slot ≠ some (g.die, g.unit, g.slot)) →
      (answers (.ldByp g addr dst n) s fun t => (∀ d u, (tileSt t d u).scratch = (tileSt s d u).scratch ∧ (tileSt t d u).l1 = (tileSt s d u).l1)
        ∧ t.mem = s.mem ∧ ∃ r : Group, groupOf (tileSt t g.die g.unit) g.slot = some r ∧ r.pc = gr.pc + 8 ∧ r.mask = gr.mask
        ∧ (∀ a ∈ l, ∀ p ∈ a.parts, ∀ i, i < (n + 3) / 4 →
            r.reg a.thread (dst + i) = BitVec.ofNat 32 (leNat (((cohBytes s p.il p.pa n).drop (4 * i)).take 4))))
      ∧ ((n = 4 ∨ n = 8) → answers (.ldAcq g addr dst n none) s fun t => (tileSt t g.die g.unit).l1 = []
          ∧ t.mem = s.mem
          ∧ ∃ r : Group, groupOf (tileSt t g.die g.unit) g.slot = some r ∧ r.pc = gr.pc + 8
            ∧ ∀ a ∈ l, ∀ p ∈ a.parts, ∀ i, i < (n + 3) / 4 →
                r.reg a.thread (dst + i) = BitVec.ofNat 32 (leNat (((cohBytes s p.il p.pa n).drop (4 * i)).take 4))))
  ∧ ∀ (s : State) (g : GRef) (k : Task) (gr : Group) (addr : AddrForm) (dst n : Nat), accSize n = true →
      mayIssue g k gr (regSpan dst n ++ formRegs addr) s → gr.ordered = false → accesses s g k gr .scratch addr .read n = .illegal →
      exec (.load g .scratch addr dst n) s = .next (parkIllegal g.die g.unit g.slot gr.pc 0x13 s)

/-- A store enters the core's store buffer and changes no memory; draining writes it; atomics and fences act as R369 says (03_tiles.md R122, R123, R125, R127, 07_felt.md R330, R331, 08_memory_model.md R369). -/
def Obligations.StoresWaitInTheBufferUntilTheyDrain : Prop :=
  (∀ (s : State) (g : GRef) (k : Task) (gr : Group) (sp : Space) (addr : AddrForm) (src n : Nat), accSize n = true →
    mayIssue g k gr (regSpan src n ++ formRegs addr) s → gr.ordered = false →
    (∃ l, accesses s g k gr sp addr .write n = .scratch l ∨ ∃ l', accesses s g k gr sp addr .write n = .mem l') →
    (((storeEntries g.slot k gr src n (accesses s g k gr sp addr .write n) (freeOrder 32 s.freeCtr gr.active)).foldl sbAdd
      (sbOf (tileSt s g.die g.unit) (g.slot / 16))).length ≤ 32 ∨ sbOf (tileSt s g.die g.unit) (g.slot / 16) = []) →
    answers (.store g sp addr src n) s fun t =>
      sbOf (tileSt t g.die g.unit) (g.slot / 16) =
        (storeEntries g.slot k gr src n (accesses s g k gr sp addr .write n) (freeOrder 32 s.freeCtr gr.active)).foldl sbAdd
          (sbOf (tileSt s g.die g.unit) (g.slot / 16))
      ∧ t.mem = s.mem ∧ t.felt = s.felt ∧ (∀ d u, (tileSt t d u).scratch = (tileSt s d u).scratch)
      ∧ ∃ r : Group, groupOf (tileSt t g.die g.unit) g.slot = some r ∧ r.regs = gr.regs ∧ r.pc = gr.pc + 8)
  ∧ (∀ (s : State) (g : GRef) (k : Task) (gr : Group) (addr : AddrForm) (src n : Nat) (l : List ScratchAcc), accSize n = true →
      mayIssue g k gr (regSpan src n ++ formRegs addr) s → gr.ordered = false → accesses s g k gr .scratch addr .write n = .scratch l →
      32 < ((storeEntries g.slot k gr src n (.scratch l) (freeOrder 32 s.freeCtr gr.active)).foldl sbAdd
        (sbOf (tileSt s g.die g.unit) (g.slot / 16))).length → sbOf (tileSt s g.die g.unit) (g.slot / 16) ≠ [] →
      exec (.store g .scratch addr src n) s = .next s)
  ∧ (∀ (s : State) (g : GRef) (k : Task) (gr : Group) (addr : AddrForm) (src n : Nat) (l : List MemAcc), (n = 4 ∨ n = 8) →
      mayIssue g k gr (regSpan src n ++ formRegs addr) s → accesses s g k gr .mem addr .write n = .mem l →
      sbOf (tileSt s g.die g.unit) (g.slot / 16) = [] →
      (slotBuffered (tileSt s g.die g.unit) g.slot = true → exec (.stRel g addr src n) s = .next s)
      ∧ (slotBuffered (tileSt s g.die g.unit) g.slot = false → answers (.stRel g addr src n) s fun t => t.mem = s.mem ∧ t.felt = s.felt
          ∧ sbOf (tileSt t g.die g.unit) (g.slot / 16) =
              (storeEntries g.slot k gr src n (.mem l) (freeOrder 32 s.freeCtr gr.active)).foldl sbAdd []
          ∧ ∃ r : Group, groupOf (tileSt t g.die g.unit) g.slot = some r ∧ r.regs = gr.regs ∧ r.pc = gr.pc + 8))
  ∧ (∀ (s : State) (g : GRef) (k : Task) (gr : Group), mayIssue g k gr [] s →
      (answers (.membarOrder g) s fun t => groupBecomes g { gr with ordered := true, pc := gr.pc + 8 } s t)
      ∧ (slotBuffered (tileSt s g.die g.unit) g.slot = true → exec (.membarComplete g) s = .next s)
      ∧ (slotBuffered (tileSt s g.die g.unit) g.slot = false → answers (.membarComplete g) s fun t =>
          groupBecomes g { gr with ordered := false, pc := gr.pc + 8 } s t))
  ∧ (∀ (s : State) (d u c : Nat) (e : SbEntry) (rest : List SbEntry), s.inHold = false → sbOf (tileSt s d u) c = e :: rest →
      e.scratch = true → List.Pairwise (fun a b : Cell => a.1 < b.1) e.bytes → answers (.storeBufferDrain d u c) s fun t =>
        sbOf (tileSt t d u) c = rest ∧ t.mem = s.mem ∧ t.felt = s.felt
        ∧ ∀ off, (tileSt t d e.tile).byte off = match slook e.bytes off with | some b => b | none => (tileSt s d e.tile).byte off)
  ∧ (∀ (s : State) (d u c : Nat) (e : SbEntry) (rest : List SbEntry) (k : Task), s.inHold = false → sbOf (tileSt s d u) c = e :: rest →
      e.scratch = false → e.device = false → drainReady s d e = true → (tileSt s d u).task = some k →
      exec (.storeBufferDrain d u c) s = .next (noteHomes k.ring k.no [homeBit (e.home != 0 || inHost (e.block * 64)) (e.block * 64 / 1024 * 1024)]
        (l1Update d u e.bytes (cohWriteLine (e.home != 0 || inHost (e.block * 64)) (some k.slice) (e.block * 64 / 1024)
          (e.bytes.map fun x => (x.1 % 1024, x.2)) (logDirty k.slice (e.block * 64) (setSb d u c rest s))))))
  ∧ (∀ (s : State) (g : GRef) (k : Task) (gr : Group) (op : AtomOp) (th : Nat) (a : MemAcc), mayIssue g k gr (atomRegs op) s →
      gr.active = [th] → op.scratch = false → isVector op.code = false → op.code ≠ 0x20 → scalarSizeOk op.code op.size = true →
      formAddr op.addr gr th % op.size = 0 → slotBuffered (tileSt s g.die g.unit) g.slot = false →
      accesses s g k gr .mem op.addr .write op.size = .mem [a] → a.thread = th → (∀ p ∈ a.parts, p.mtype ≠ 3) → atomReady s g [a] = true →
      exec (.atom g op) s = .next (atomDone g k op (atomOne g k op a (tickFree 1 s, gr)).2 (atomOne g k op a (tickFree 1 s, gr)).1))
  ∧ ∀ (s : State) (g : GRef) (k : Task) (gr : Group) (op : AtomOp), mayIssue g k gr (atomRegs op) s → op.scratch = true →
      atomCode op.code = true → exec (.atom g op) s = .next (parkIllegal g.die g.unit g.slot gr.pc 0x06 s)

/-- Every register of every thread of every group of a task reads 0 when TASK_START starts it (R106). -/
def Obligations.GroupRegistersStartAtZero : Prop :=
  ∀ (s : State) (d u : Nat) (k : Task), (tileSt s d u).issued = some k → (tileSt s d u).task = none → s.inHold = false → k.restore = false →
    answers (.taskStart d u) s fun t => (tileSt t d u).resident = startGroups k
      ∧ ∀ (slot : Nat) (gr : Group), groupOf (tileSt t d u) slot = some gr → ∀ th r, gr.reg th r = 0

/-- TASK_START gives the tile the task with clean flags and no other context's data; TASK_RETIRE frees the tile once its work is done (03_tiles.md R102, R103, R105, R107, R113, R118, R174, 11_submission.md R513). -/
def Obligations.TaskStartsAndRetires : Prop :=
  (∀ (s : State) (d u : Nat) (k : Task), (tileSt s d u).issued = some k → (tileSt s d u).task = none → s.inHold = false → k.restore = false →
    answers (.taskStart d u) s fun t => (tileSt t d u).task = some k ∧ (tileSt t d u).issued = none
      ∧ (∀ n, n < 4 → rd t (pVC d u n) 0x108 = 0) ∧ rd t (pMatrix d u) 0x120 = 0 ∧ t.mem = s.mem ∧ t.felt = s.felt
      ∧ (k.groups ≤ 64 → ∀ g, g < k.groups → groupOf (tileSt t d u) (16 * (g % 4) + g / 4) = some { pc := k.code }))
  ∧ (∀ (s : State) (d u : Nat) (k : Task), (tileSt s d u).issued = some k → (tileSt s d u).task = none → s.inHold = false →
      k.restore = false → (tileSt s d u).prevPasid ≠ some k.pasid → answers (.taskStart d u) s fun t =>
        (tileSt t d u).l1 = [] ∧ (tileSt t d u).mx.acc = [] ∧ (k.pinned = false → ∀ off, (tileSt t d u).byte off = 0)
        ∧ ∀ off, k.pin * 65536 ≤ off → (tileSt t d u).byte off = 0)
  ∧ ∀ (s : State) (d u : Nat) (k : Task), (tileSt s d u).task = some k → s.inHold = false → taskEnded (tileSt s d u) = true →
      tileRaw s d u = false → answers (.taskRetire d u) s fun t => (tileSt t d u).task = none ∧ t.mem = s.mem ∧ t.felt = s.felt

/-- BAR_TILE and BAR_CLUSTER hold a group until all have arrived; a group that retires leaves its slot and its barriers (03_tiles.md R128, R133, R134, R155, R156). -/
def Obligations.BarriersReleaseWhenAllHaveArrived : Prop :=
  (∀ (s : State) (g : GRef) (k : Task) (gr : Group) (other : Nat) (o : Group), mayIssue g k gr [] s → g.slot ∉ (tileSt s g.die g.unit).barTile →
    other ≠ g.slot → (other, o) ∈ (tileSt s g.die g.unit).resident → other ∉ (tileSt s g.die g.unit).barTile →
    answers (.barTile g) s fun t => groupOf (tileSt t g.die g.unit) g.slot = some { gr with wait := .barTile }
      ∧ (tileSt t g.die g.unit).barTile = g.slot :: (tileSt s g.die g.unit).barTile ∧ t.mem = s.mem)
  ∧ (∀ (s : State) (g : GRef) (k : Task) (gr : Group), mayIssue g k gr [] s →
      (∀ e ∈ (tileSt s g.die g.unit).resident, e.1 ≠ g.slot → e.1 ∈ (tileSt s g.die g.unit).barTile) →
      answers (.barTile g) s fun t => (tileSt t g.die g.unit).barTile = [] ∧ t.mem = s.mem
        ∧ (∀ e ∈ (tileSt t g.die g.unit).resident, e.2.wait = .ready)
        ∧ (∀ c, c < 4 → ∀ e ∈ sbOf (tileSt t g.die g.unit) c, e.scratch = false)
        ∧ ∃ r : Group, groupOf (tileSt t g.die g.unit) g.slot = some r ∧ r.pc = gr.pc + 8 ∧ r.regs = gr.regs)
  ∧ (∀ (s : State) (g : GRef) (k : Task) (gr : Group) (mem : Bool), mayIssue g k gr [] s →
      (g.unit, g.slot) ∉ (clusterBar s g.die (g.unit / 5) (barInst k g.unit)).arrived →
      answers (.barCluster g mem) s fun t => groupOf (tileSt t g.die g.unit) g.slot = some { gr with wait := .barCluster mem }
        ∧ clusterBar t g.die (g.unit / 5) (barInst k g.unit) =
            { clusterBar s g.die (g.unit / 5) (barInst k g.unit) with
              arrived := (clusterBar s g.die (g.unit / 5) (barInst k g.unit)).arrived ++ [(g.unit, g.slot)]
              mem := (clusterBar s g.die (g.unit / 5) (barInst k g.unit)).mem || mem })
  ∧ (∀ (s : State) (d c i : Nat), s.inHold = false → (clusterBar s d c i).active = true → (clusterBar s d c i).arrived ≠ [] →
      (clusterBar s d c i).expected ≤ (clusterBar s d c i).arrived.length →
      ((clusterBar s d c i).mem = true → barStoresDone s d (clusterBar s d c i) = true) →
      answers (.clusterBarrierRelease d c i) s fun t => t.mem = s.mem
        ∧ clusterBar t d c i = { clusterBar s d c i with arrived := [], phase := !(clusterBar s d c i).phase, mem := false })
  ∧ (∀ (s : State) (d c i : Nat), (clusterBar s d c i).arrived.length < (clusterBar s d c i).expected →
      exec (.clusterBarrierRelease d c i) s = .next s)
  ∧ ∀ (s : State) (g : GRef) (k : Task) (gr : Group), mayIssue g k gr [] s → answers (.groupRetire g) s fun t =>
      groupOf (tileSt t g.die g.unit) g.slot = none ∧ (tileSt t g.die g.unit).retired = (tileSt s g.die g.unit).retired + 1 ∧ t.mem = s.mem

/-- A slot's 8-bit park tag rises by 1 modulo 256 whenever a group in it parks, and no other slot's tag changes (R144). -/
def Obligations.ParkTagsCountParks : Prop :=
  ∀ (s : State) (d u slot : Nat) (i : ParkInfo) (k : Task) (gr : Group), (tileSt s d u).task = some k → groupOf (tileSt s d u) slot = some gr →
    (sget (fun _ => (0 : BitVec 8)) (tileSt (park d u slot i s) d u).tags slot).toNat
        = ((sget (fun _ => (0 : BitVec 8)) (tileSt s d u).tags slot).toNat + 1) % 256
    ∧ (∀ j, j ≠ slot → sget (fun _ => (0 : BitVec 8)) (tileSt (park d u slot i s) d u).tags j = sget (fun _ => (0 : BitVec 8)) (tileSt s d u).tags j)
    ∧ (∀ d' u', d' * 15 + u' ≠ d * 15 + u → tileSt (park d u slot i s) d' u' = tileSt s d' u')
    ∧ groupOf (tileSt (park d u slot i s) d u) slot = some { gr with parked := some i, pendingFail := none, wait := .ready }

/-- Park entries go to the park ring in order; REPLAY resumes and DISCARD removes a group under its tag, and another tag is only counted (03_tiles.md R143 to R146, R157, R158). -/
def Obligations.ParkedGroupsAreWrittenReplayedDiscarded : Prop :=
  (∀ (s : State) (d u : Nat) (e : List Byte) (rest : List (List Byte)), (tileSt s d u).parkHeld = e :: rest → parkUsed s d < parkEntries s d →
    (∃ v : State, exec (.parkEntryWrite d u) s = .next (parkFails d u (bytesAt e 1 1 % 64) v) ∧ (tileSt v d u).parkHeld = rest
      ∧ fld (rd v (pCluster d 0) 0x20C) 16 0 = (fld (rd s (pCluster d 0) 0x20C) 16 0 + 1) % 0x20000))
  ∧ (∀ (s : State) (d u : Nat) (e : List Byte) (rest : List (List Byte)), (tileSt s d u).parkHeld = e :: rest → parkEntries s d ≤ parkUsed s d →
      exec (.parkEntryWrite d u) s = .next (event (pVC d u (bytesAt e 1 1 % 64 / 16)) 1 s))
  ∧ (∀ (s : State) (d u slot tag : Nat) (gr : Group), parkMatches s d u slot tag = true → groupOf (tileSt s d u) slot = some gr →
      (answers (.parkReplay d u slot tag) s fun t => groupBecomes ⟨d, u, slot⟩ { gr with parked := none } s t)
      ∧ answers (.parkDiscard d u slot tag) s fun t => groupOf (tileSt t d u) slot = none ∧ t.mem = s.mem)
  ∧ (∀ (s : State) (d u slot tag : Nat), parkMatches s d u slot tag = false →
      exec (.parkReplay d u slot tag) s = .next (satInc (pTile d u) 0x124 1 s)
      ∧ exec (.parkDiscard d u slot tag) s = .next (satInc (pTile d u) 0x124 1 s))
  ∧ (∀ (s : State) (d : Nat) (v : DWord) (wide : Bool), d < 8 → parkUsed s d = 0 → anyHeldPark s d = false →
      exec (.parkRingConfigWrite d 0x208 v wide) s = .next (stReg 0 (pCluster d 0) 0x208 v false s))
  ∧ ∀ (s : State) (d off : Nat) (v : DWord) (wide : Bool), d < 8 → (off = 0x200 ∨ off = 0x204 ∨ off = 0x208) →
      (parkUsed s d ≠ 0 ∨ anyHeldPark s d = true) → exec (.parkRingConfigWrite d off v wide) s = .next (event pIntr 1 s)

/-- MX_ISSUE numbers an operation and queues it, MX_WAIT waits for a number, MX_MODE_CHANGE changes the mode once all is idle (03_tiles.md R136 to R139, R141, 04_matrix_array.md R163, R165, R167). -/
def Obligations.MatrixQueuesIssueAndWait : Prop :=
  (∀ (s : State) (g : GRef) (k : Task) (gr : Group) (addr : AddrForm) (dst : Nat), dst < 256 → mayIssue g k gr (dst :: formRegs addr) s →
    (tileSt s g.die g.unit).mx.split = false → sbOf (tileSt s g.die g.unit) (g.slot / 16) = [] →
    ((tileSt s g.die g.unit).mx.queue 0).length < 16 →
    dAttn ((tileSt s g.die g.unit).bytes (formAddr addr gr gr.first % 0x800000) 128) = false → answers (.mxIssue g addr none dst) s fun t =>
      ((tileSt t g.die g.unit).mx.queue 0).length = ((tileSt s g.die g.unit).mx.queue 0).length + 1
      ∧ (tileSt t g.die g.unit).mx.issued 0 = (tileSt s g.die g.unit).mx.issued 0 + 1
      ∧ ((tileSt t g.die g.unit).mx.queue 0).getLast?.map (fun o => o.num) = some ((tileSt s g.die g.unit).mx.issued 0)
      ∧ t.mem = s.mem ∧ ∃ r : Group, groupOf (tileSt t g.die g.unit) g.slot = some r ∧ r.pc = gr.pc + 8
        ∧ r.reg gr.first dst = BitVec.ofNat 32 ((tileSt s g.die g.unit).mx.issued 0 % 65536))
  ∧ (∀ (s : State) (g : GRef) (k : Task) (gr : Group) (q src n : Nat), mayIssue g k gr [src] s → q < 4 →
      mxNumber ((tileSt s g.die g.unit).mx.issued q) (gr.reg gr.first src).toNat = some n →
      exec (.mxWait g q src) s = .next (mxWake g.die g.unit (setGroup g.die g.unit g.slot { gr with wait := .matrix q n } (countIssue g k s))))
  ∧ (∀ (s : State) (d u : Nat) (w : Bool), s.inHold = false → (tileSt s d u).mx.wantSplit = some w → (tileSt s d u).mx.idle = true →
      answers (.mxModeChange d u) s fun t => (tileSt t d u).mx = { (tileSt s d u).mx with split := w, wantSplit := none }
        ∧ t = { s with tiles := t.tiles, regs := t.regs })
  ∧ (∀ (s : State) (d u : Nat), (tileSt s d u).mx.idle = false → exec (.mxModeChange d u) s = .next s)
  ∧ (∀ (s : State) (d u q : Nat) (op : MxOp) (k : Task), mxHead s d u q = some (op, k) → isOp op 0 = true →
      mxCheck op.desc (tileSt s d u).mx.split k.member (scratchSize k.l1) = 0 → answers (.nop d u q) s fun t =>
        ((tileSt t d u).mx.queue q).length + 1 = ((tileSt s d u).mx.queue q).length ∧ (tileSt t d u).mx.acc = (tileSt s d u).mx.acc
          ∧ (tileSt t d u).scratch = (tileSt s d u).scratch ∧ t.mem = s.mem)
  ∧ ∀ (s : State) (d u q : Nat) (op : MxOp) (k : Task), mxHead s d u q = some (op, k) → op.bad = true →
      exec (.nop d u q) s = .next (mxFailHere d u q op 0x13 0x04 s)

/-- ACC_LOAD, MMA and ACC_STORE complete the head of their queue and write only their accumulator or output region (04_matrix_array.md R169 to R174, R178, R186, R192, R202). -/
def Obligations.MatrixOperationsWriteTheirRegion : Prop :=
  (∀ (s : State) (d u q : Nat) (op : MxOp) (k : Task), mxHead s d u q = some (op, k) → isOp op 2 = true →
    mxCheck op.desc (tileSt s d u).mx.split k.member (scratchSize k.l1) = 0 → (mxReads op.desc).any (spanPoison (tileSt s d u)) = false →
    opUndefined (tileSt s d u).mx q op = false → dBit op.desc 0 23 = false → answers (.accLoad d u q) s fun t =>
      (∀ m n, m < dM op.desc → n < dN op.desc →
        (tileSt t d u).mx.cell (accIdx (tileSt s d u).mx.split q (dFld op.desc 0 20 20) m n) =
          (let w := BitVec.ofNat 32 (leNat ((tileSt s d u).bytes
            ((⟨dWord op.desc 0x54, dWord op.desc 0x58, 0, 0⟩ : Span).off m + 4 * n) 4))
           if isNan32 w then 0x7FC00000 else w))
      ∧ (∀ i, i ∉ accRegion (tileSt s d u).mx.split q (dFld op.desc 0 20 20) (dM op.desc) (dN op.desc) →
          (tileSt t d u).mx.cell i = (tileSt s d u).mx.cell i)
      ∧ (tileSt t d u).scratch = (tileSt s d u).scratch ∧ t.mem = s.mem
      ∧ ((tileSt t d u).mx.queue q).length + 1 = ((tileSt s d u).mx.queue q).length)
  ∧ (∀ (s : State) (d u q : Nat) (op : MxOp) (k : Task), mxHead s d u q = some (op, k) → isOp op 1 = true →
      mxCheck op.desc (tileSt s d u).mx.split k.member (scratchSize k.l1) = 0 → (mxReads op.desc).any (spanPoison (tileSt s d u)) = false →
      (dBit op.desc 0 19 = true → metaBad (tileSt s d u) op.desc = false) → opUndefined (tileSt s d u).mx q op = false → dBit op.desc 0 22 = false →
      (tileSt s d u).mx.regionPoison (accRegion (tileSt s d u).mx.split q (dFld op.desc 0 20 20) (dM op.desc) (dN op.desc)) = false →
      answers (.mma d u q) s fun t =>
        (∀ i, i ∉ accRegion (tileSt s d u).mx.split q (dFld op.desc 0 20 20) (dM op.desc) (dN op.desc) →
          (tileSt t d u).mx.cell i = (tileSt s d u).mx.cell i)
        ∧ (∀ c ∈ (mmaCells (tileSt s d u) (tileSt s d u).mx.split q op.desc).1, (tileSt t d u).mx.cell c.1 = c.2)
        ∧ (tileSt t d u).scratch = (tileSt s d u).scratch ∧ t.mem = s.mem
        ∧ ((tileSt t d u).mx.queue q).length + 1 = ((tileSt s d u).mx.queue q).length)
  ∧ (∀ (s : State) (d u q : Nat) (op : MxOp) (k : Task), mxHead s d u q = some (op, k) → isOp op 3 = true →
      mxCheck op.desc (tileSt s d u).mx.split k.member (scratchSize k.l1) = 0 → opUndefined (tileSt s d u).mx q op = false →
      (tileSt s d u).mx.regionPoison (accRegion (tileSt s d u).mx.split q (dFld op.desc 0 20 20) (dM op.desc) (dN op.desc)) = false →
      answers (.accStore d u q) s fun t => (tileSt t d u).mx.acc = (tileSt s d u).mx.acc ∧ t.mem = s.mem
        ∧ ((tileSt t d u).mx.queue q).length + 1 = ((tileSt s d u).mx.queue q).length)
  ∧ ∀ (s : State) (d u q : Nat) (op : MxOp) (k : Task), mxHead s d u q = some (op, k) → isOp op 2 = true →
      mxCheck op.desc (tileSt s d u).mx.split k.member (scratchSize k.l1) = 0 → (mxReads op.desc).any (spanPoison (tileSt s d u)) = true →
      exec (.accLoad d u q) s = .next (failPoison d u q op 0x07 s)

/-- ATTN_FUSED, ATTN_APPEND, ATTN_DECODE and ATTN_NORM do their work, fail illegal descriptors and hold on a moving page (05_attention.md R217, R224, R225, R229, R230, R240, R244). -/
def Obligations.AttentionOperationsComplete : Prop :=
  (∀ (s s1 t : State) (d u q : Nat) (op : MxOp) (k : Task) (r : List ARow × Nat), attnHead s d u q 8 = some (op, k) →
    attnIllegal d u q op k s = none → aOutMode op.desc ≠ 2 → fusedRows d u q k op.desc s = .ok r s1 →
    fusedOut d u q op k [] ((List.range (dM op.desc)).map (startRow (tileSt s d u) op.desc)) r.1 r.2 s1 = some t →
    exec (.attnFused d u q) s = .next t)
  ∧ (∀ (s s1 : State) (d u q fl : Nat) (op : MxOp) (k : Task), attnHead s d u q 9 = some (op, k) → attnIllegal d u q op k s = none →
      spanPoison (tileSt s d u) (aLocalSpan op.desc) = false →
      appendRows d u q k op.desc (opUndefined (tileSt s d u).mx q op) (List.range (aNlocal op.desc)) none 0 s = .ok fl s1 →
      exec (.attnAppend d u q) s = .next (addProg (pCodec d u) 0 1 (mxComplete d u q (if opUndefined (tileSt s d u).mx q op then freeFlags s else fl) false (addProg (pGather d u) 0 1 s1))))
  ∧ (∀ (s s1 : State) (d u q st va : Nat) (op : MxOp) (k : Task), attnHead s d u q 9 = some (op, k) → attnIllegal d u q op k s = none →
      spanPoison (tileSt s d u) (aLocalSpan op.desc) = false →
      appendRows d u q k op.desc (opUndefined (tileSt s d u).mx q op) (List.range (aNlocal op.desc)) none 0 s = .hold st va s1 →
      answers (.attnAppend d u q) s fun t => t = attnHold d u st va k s1.xlate s ∧ t.mem = s.mem ∧ t.felt = s.felt ∧ t.tiles = s.tiles)
  ∧ (∀ (s s1 : State) (d u q fl : Nat) (op : MxOp) (k : Task), attnHead s d u q 10 = some (op, k) → attnIllegal d u q op k s = none →
      opUndefined (tileSt s d u).mx q op = false →
      decodeEntries d u q k op.desc ((List.range ((dWord op.desc 0x0C + aT op.desc - 1) / aT op.desc)).drop (dWord op.desc 0x08 / aT op.desc)) 0 s
        = .ok fl s1 →
      exec (.attnDecode d u q) s = .next (addProg (pCodec d u) 0 1 (mxComplete d u q fl false (addProg (pGather d u) 0 1 s1))))
  ∧ (∀ (s : State) (d u q : Nat) (op : MxOp) (k : Task), attnHead s d u q 11 = some (op, k) → attnIllegal d u q op k s = none →
      opUndefined (tileSt s d u).mx q op = false → (∀ i, i < dM op.desc → recPoison (tileSt s d u) op.desc i = false) →
      answers (.attnNorm d u q) s fun t => ∃ fl v, t = addProg (pSmu d u) 0 1 (mxComplete d u q fl false v) ∧ v.mem = s.mem
        ∧ ((tileSt v d u).mx.queue q).length = ((tileSt s d u).mx.queue q).length)
  ∧ ∀ (s : State) (d u q c : Nat) (op : MxOp) (k : Task), c ∈ [8, 9, 10, 11] → attnHead s d u q c = some (op, k) →
      attnCheck op.desc (tileSt s d u).mx.split k.member (scratchSize k.l1) ≠ 0 →
      exec (if c = 8 then .attnFused d u q else if c = 9 then .attnAppend d u q else if c = 10 then .attnDecode d u q else .attnNorm d u q) s
        = .next (mxFailHere d u q op 0x13 (attnCheck op.desc (tileSt s d u).mx.split k.member (scratchSize k.l1)) s)

/-- STEP checks its entries and allocates, STEP_RELEASE frees, PAGES_GROW pushes, PAGES_TRIM pops and PAGES_RESET empties a pool (06_sequences.md R264 to R269, R280, R281, R284, R287 to R290). -/
def Obligations.StewardTakesStepsAndPages : Prop :=
  (∀ (s s1 : State) (ring seq : Nat) (c : Cmd) (ps : List Piece), waitingCmd s ring seq 2 = some c → dispRuns s = true →
    slook s.steward.running c.slice = none → (sliceSt s c.slice).contained = false → poolEn s c.slice = true → c.pasid = poolPasid s c.slice →
    nfld (bytesAt c.raw 72 4) 31 13 = 0 → bytesAt c.raw 76 4 = 0 → bytesAt c.raw 64 8 % 64 = 0 → nfld (bytesAt c.raw 72 4) 11 0 < 2048 →
    xlateRange c.ctx pDispatch c.pasid (bytesAt c.raw 64 8) (64 * (nfld (bytesAt c.raw 72 4) 11 0 + 1)) .read s = .ok ps s1 →
    (∀ p ∈ ps, p.mtype ≠ 3) → piecesPoison s1 ps = false →
    let xs := (List.range (nfld (bytesAt c.raw 72 4) 11 0 + 1)).map fun i => sentDecode (((readPieces s1 ps).drop (64 * i)).take 64)
    let recs := xs.map fun x => (x, seqRec s1 x.seq)
    (∀ x ∈ xs, cohPoisonN s1 true (seqPa s1 x.seq) 64 = false) →
    (∀ e ∈ recs.zipIdx, sentDetails s1 c.slice ((xs.take e.2).any fun y => y.seq == e.1.1.seq) e.1.1 e.1.2 = []) →
    exec (.step ring seq) s = .next (stepRun c (bytesAt c.raw 64 8) ((slook s.steward.stepNo c.slice).getD 0) recs s1))
  ∧ (∀ (s : State) (ring seq : Nat) (c : Cmd), waitingCmd s ring seq 2 = some c → dispRuns s = true →
      slook s.steward.running c.slice = none → (sliceSt s c.slice).contained = false → bytesAt c.raw 76 4 ≠ 0 →
      exec (.step ring seq) s = .next (stewardIllegal c 1 (takeStepNo c.slice (addProg pPageAlloc 0 1 s))))
  ∧ (∀ (s s1 : State) (ring seq : Nat) (c : Cmd) (l : List FreeOne),
      (s.disp.cmds.find? fun c => c.ring == ring && c.seq == seq && c.opc == 2 && decide (c.step ≠ []) && c.status.isNone) = some c →
      dispRuns s = true → c.fail = none → c.unissued = false → cmdBusy s c.ring c.no = false → xlateReleases c c.step s = .ok l s1 →
      exec (.stepRelease ring seq) s = .next (maybeFinish c.ring c.no (updCmd c.ring c.no (fun x => { x with step := [] })
        (applyReleases c l (dropHeld pDispatch c.ring s1)))))
  ∧ (∀ (s s1 : State) (ring seq : Nat) (c : Cmd) (ps : List Piece), pagesCmd s ring seq 0 = some c → pagesBad c = false →
      xlateRange c.ctx pDispatch c.pasid (pgBuf c) (16 + 16 * pgCount c) .read s = .ok ps s1 → (∀ p ∈ ps, p.mtype ≠ 3) →
      poolEn s1 c.slice = true → piecesPoison s1 ps = false → laneFree s1 c.slice (pgLane c) + pgCount c ≤ laneCap s1 c.slice →
      (∀ i, i < pgCount c → poolEntryOk (((readPieces s1 ps).drop (16 + 16 * i)).take 16) = true) →
      exec (.pagesGrow ring seq) s = .next (pagesDone c (addProg pPageAlloc 1 (16 * pgCount c) (lanePush c.slice (pgLane c)
        ((List.range (pgCount c)).map fun i => ((readPieces s1 ps).drop (16 + 16 * i)).take 16) (dropHeld pDispatch c.ring s1)))))
  ∧ (∀ (s s1 : State) (ring seq : Nat) (c : Cmd) (ps : List Piece), pagesCmd s ring seq 1 = some c → pagesBad c = false →
      xlateRange c.ctx pDispatch c.pasid (pgBuf c) (16 + 16 * min (pgCount c) (laneFree s c.slice (pgLane c))) .write s = .ok ps s1 →
      (∀ p ∈ ps, p.mtype ≠ 3) → poolEn s1 c.slice = true →
      answers (.pagesTrim ring seq) s fun t => ∃ new : List Byte,
        new.take 4 = leBytes 4 (min (pgCount c) (laneFree s c.slice (pgLane c)))
        ∧ t = pagesDone c (poolEvent c.slice false (addProg pPageAlloc 1 (16 * min (pgCount c) (laneFree s c.slice (pgLane c)) + 4)
            (setLaneFree c.slice (pgLane c) (laneFree s c.slice (pgLane c) - min (pgCount c) (laneFree s c.slice (pgLane c)))
              (writePieces c.slice ps new (dropHeld pDispatch c.ring s1))))))
  ∧ (∀ (s : State) (ring seq : Nat) (c : Cmd), pagesCmd s ring seq 2 = some c → pagesBad c = false →
      answers (.pagesReset ring seq) s fun t => t.steward.fallback = s.steward.fallback.filter (fun x => x.slice != c.slice)
        ∧ t.steward.active = s.steward.active.filter fun e => e.2 != c.slice)
  ∧ ∀ (s : State) (ring seq : Nat) (c : Cmd), pagesBad c = true → pagesCmd s ring seq 2 = some c →
      exec (.pagesReset ring seq) s = .next (stewardIllegal c 1 (addProg pPageAlloc 0 1 s))

/-- A request that its home takes on an idle line is served; on a line in a transaction it is NACKed; one of an old generation is dropped (07_felt.md R301, R303, R304, R311, R313, R319, R320, R324, R326, R343). -/
def Obligations.FeltRequestsAreServedAtTheirHome : Prop :=
  (∀ (s : State) (seg line : Nat) (r : FReq), homeTakes seg r s → lineIdle seg line s →
      exec (.rdOnce seg line r) s = .next (serveReq seg line { r with kind := .rdOnce } (addPend seg line { r with kind := .rdOnce } s))
      ∧ exec (.flush seg line r) s = .next (serveReq seg line { r with kind := .flush } (addPend seg line { r with kind := .flush } s))
      ∧ exec (.wb seg line r) s = .next (serveReq seg line { r with kind := .wb } s)
      ∧ exec (.evict seg line r) s = .next (serveReq seg line { r with kind := .evict } s)
      ∧ exec (.wr seg line r) s = .next (serveReq seg line { r with kind := .wr } (addPend seg line { r with kind := .wr } (dropOwnReplica line r s)))
      ∧ exec (.feltAtomic seg line r) s = .next (serveReq seg line { r with kind := .atom } (addPend seg line { r with kind := .atom } (dropOwnReplica line r s)))
      ∧ (8 ≤ r.agent → exec (.rdOwn seg line r) s = .next (serveReq seg line { r with kind := .rdOwn } (addPend seg line { r with kind := .rdOwn } s)))
      ∧ (8 ≤ r.agent → exec (.rdShared seg line r) s = .next (serveReq seg line { r with kind := .rdShared } (addPend seg line { r with kind := .rdShared } s))))
  ∧ (∀ (s : State) (seg line : Nat) (r : FReq), homeTakes seg r s → lineIdle seg line s → r.agent < 8 → sharedAllowed s line r = false →
      exec (.rdShared seg line r) s = .next (serveReq seg line { r with kind := .rdOnce } (addPend seg line { r with kind := .rdOnce }
        (if inMask s line r then s else satInc (replicaPage s line r.agent + 2) 0x11C 1 s))))
  ∧ (∀ (s : State) (seg line : Nat) (r : FReq), homeTakes seg r s → lineIdle seg line s →
      (r.ordered = false ∨ orderedFull s seg line { r with kind := .red } = false) →
      exec (.red seg line r) s = .next (serveReq seg line { r with kind := .red } (addPend seg line { r with kind := .red } (dropOwnReplica line r s))))
  ∧ (∀ (s : State) (seg line : Nat) (r : FReq), homeTakes seg r s → lineIdle seg line s →
      (r.ordered = false ∨ orderedFull s seg line { r with kind := .lse, code := 0x20, off := 0 } = false) →
      exec (.lse seg line r) s = .next (serveReq seg line { r with kind := .lse, code := 0x20, off := 0 }
        (addPend seg line { r with kind := .lse, code := 0x20, off := 0 } (dropOwnReplica line r s))))
  ∧ (∀ (s : State) (seg line : Nat) (r : FReq) (x : Trans), homeTakes seg r s → (home s seg line).trans = some x → x.phase ≠ .memory →
      r.starve = false → ∀ c ∈ [Instr.rdOnce seg line r, .flush seg line r, .wb seg line r, .evict seg line r, .wr seg line r,
        .feltAtomic seg line r, .red seg line r, .lse seg line r],
      answers c s fun t => t.felt.lines = s.felt.lines ∧ t.mem = s.mem ∧ inNet .nack seg line r.agent r.stream t (fun _ => True))
  ∧ ∀ (s : State) (seg line : Nat) (r : FReq), r.agen ≠ expectGen s seg r.agent →
      ∀ c ∈ [Instr.wb seg line r, .evict seg line r], exec c s = .next (staleDrop seg s)

/-- A read of sectors the home holds is filled with their bytes; a write takes effect at the home; an owner's WB is merged and EVICT frees the entry (07_felt.md R299, R306, R309, R324, R326, R327, R340). -/
def Obligations.FeltReadsAndWritesOfALine : Prop :=
  (∀ (s : State) (seg line : Nat) (r : FReq), homeTakes seg r s → lineIdle seg line s → (home s seg line).owner = none →
      (∀ i ∈ r.sectors, (home s seg line).sector i ≠ .i) → (home s seg line).sect ≠ [.i, .i, .i, .i] →
      answers (.rdOnce seg line r) s fun t => t.mem = s.mem ∧ (home t seg line).trans = none
        ∧ (home t seg line).data = (home s seg line).data ∧ (home t seg line).sect = (home s seg line).sect
        ∧ inNet .fill seg line r.agent r.stream t fun m => m.sectors = r.sectors
          ∧ m.data = r.sectors.flatMap (fun i => cellsOfSector (home s seg line).byte i)
          ∧ m.poison = r.sectors.filter fun i => decide ((home s seg line).sector i = .p))
  ∧ (∀ (s : State) (seg line : Nat) (r : FReq), homeTakes seg r s → lineIdle seg line s → (home s seg line).dir = none →
      (∀ i ∈ sectorsTouched r.data, coversSector r.data i = false → (home s seg line).sector i ≠ .i) →
      answers (.wr seg line r) s fun t => t.mem = s.mem ∧ (home t seg line).trans = none ∧ (home t seg line).dir = none
        ∧ (home t seg line).data = putCells r.data (home s seg line).data
        ∧ inNet .go seg line r.agent r.stream t (fun _ => True))
  ∧ (∀ (s : State) (seg line : Nat) (r : FReq), homeTakes seg r s → lineIdle seg line s → (home s seg line).owner = some r.agent →
      answers (.wb seg line r) s fun t => t.mem = s.mem ∧ (home t seg line).trans = none ∧ (home t seg line).dir = none
        ∧ (home t seg line).data = putCells r.data (home s seg line).data
        ∧ inNet .go seg line r.agent r.stream t (fun _ => True))
  ∧ ∀ (s : State) (seg line : Nat) (r : FReq), homeTakes seg r s → lineIdle seg line s → (home s seg line).owner = some r.agent →
      answers (.evict seg line r) s fun t => t.mem = s.mem ∧ (home t seg line).trans = none ∧ (home t seg line).dir = none
        ∧ (home t seg line).data = (home s seg line).data
        ∧ inNet .go seg line r.agent r.stream t (fun _ => True)

/-- A snooped agent gives its line up, forwards it or becomes the Forwarder, and answers its home; a host snoop goes through the home (07_felt.md R306, R313, R318, R324, R328, R346). -/
def Obligations.AgentsAnswerSnoops : Prop :=
  (∀ (s s1 : State) (seg line agent : Nat) (m : FMsg), takeMsg .snpInv seg line agent s = some (m, s1) → hostHolds s1 agent line = false →
      answers (.snpInv seg line agent) s fun t => copyOf t agent line = none ∧ t.felt.lines = s.felt.lines ∧ t.mem = s.mem
        ∧ ((copyOf s agent line).isNone = true → inNet .ack seg line agent 0 t fun a => a.agen = agentGen s agent)
        ∧ ∀ c, copyOf s agent line = some c →
            ((c.st = .s ∨ c.st = .f) → inNet .ack seg line agent 0 t fun a => a.agen = agentGen s agent)
            ∧ (c.st = .e → inNet .ackClean seg line agent 0 t fun a => a.agen = agentGen s agent)
            ∧ (c.st = .m → inNet .wbData seg line agent 0 t fun a => a.agen = agentGen s agent ∧ a.poison = c.poison
                ∧ a.data = (List.range 1024).map fun o => (o, sget lineDefault c.data o)))
  ∧ (∀ (s s1 : State) (seg line agent : Nat) (m : FMsg), takeMsg .snpFwd seg line agent s = some (m, s1) →
      answers (.snpFwd seg line agent) s fun t => t.felt.copies = s.felt.copies ∧ t.felt.lines = s.felt.lines
        ∧ ((copyOf s agent line).isNone = true → inNet .miss seg line agent 0 t fun a => a.agen = agentGen s agent)
        ∧ ∀ c, copyOf s agent line = some c → inNet .ackFwd seg line agent 0 t (fun a => a.agen = agentGen s agent)
            ∧ inNet .fwdData seg line m.target m.stream t fun d => d.sectors = m.sectors
                ∧ d.data = m.sectors.flatMap fun i => cellsOfSector (sget lineDefault c.data) i)
  ∧ (∀ (s s1 : State) (seg line agent : Nat) (m : FMsg) (c : AgLine), takeMsg .snpMkf seg line agent s = some (m, s1) →
      copyOf s agent line = some c → answers (.snpMkf seg line agent) s fun t =>
        copyOf t agent line = some { c with st := .f } ∧ inNet .ack seg line agent 0 t fun a => a.agen = agentGen s agent)
  ∧ (∀ (s : State) (seg agent : Nat) (m : FMsg) (rest : List FMsg),
      takeFirst (fun m : FMsg => decide (m.kind = .snpInvHome) && m.seg == seg && m.agent == agent) s.felt.net = some (m, rest) →
      m.owned = false → answers (.snpInvHome seg agent) s fun t => inNet .ack seg 0 agent 0 t (fun a => a.agen = agentGen s agent)
        ∧ (∀ e ∈ t.felt.copies, e.1 / 0x4000000000 = agent → e.2.seg = seg → e.2.st ≠ .s ∧ e.2.st ≠ .f) ∧ t.felt.lines = s.felt.lines ∧ t.mem = s.mem)
  ∧ (∀ (s : State) (seg line : Nat) (inv : Bool) (x : Trans), inHost (line * 1024) = true → (home s seg line).trans = some x →
      x.phase = .memory → exec (.hsnp seg line inv) s = .next (emit (.hostSnoop line inv true) s))
  ∧ ∀ (s : State) (seg line : Nat), inHost (line * 1024) = true → (home s seg line).trans = none →
      (home s seg line).dir = none → (home s seg line).sect = [.i, .i, .i, .i] → ∀ inv : Bool,
      answers (.hsnp seg line inv) s fun t => Out.hostSnoop line inv true ∈ t.out ∧ (home t seg line).trans = none ∧ t.mem = s.mem

/-- At the home an answer ends the wait for its agent; MISS fetches; DONE records the owner; an answer of an old generation is dropped (07_felt.md R309, R324, R326, R340, R343, R346, R677). -/
def Obligations.HomesTakeTheAnswers : Prop :=
  (∀ (s s1 : State) (seg line agent : Nat) (m : FMsg), takeMsg .ackClean seg line agent s = some (m, s1) → m.agen = expectGen s1 seg agent →
      exec (.ackClean seg line agent) s = .next (answered seg line agent s1))
  ∧ (∀ (s s1 : State) (seg line agent : Nat) (m : FMsg), takeMsg .ack seg line agent s = some (m, s1) → m.agen = expectGen s1 seg agent →
      (segSt s1 seg).resetting = false → exec (.ack seg line agent) s = .next (answered seg line agent s1))
  ∧ (∀ (s s1 : State) (seg line agent : Nat) (m : FMsg) (x : Trans), takeMsg .ackFwd seg line agent s = some (m, s1) →
      m.agen = expectGen s1 seg agent → (home s1 seg line).trans = some x → x.phase = .forward →
      answers (.ackFwd seg line agent) s fun t => (home t seg line).trans = none ∧ (home t seg line).data = (home s1 seg line).data
        ∧ (home t seg line).dir = (if x.req.kind = .rdShared ∧ x.req.agent ≠ seg / 12
            then some (addSharer x.req.agent x.req.sset (home s1 seg line).dir) else (home s1 seg line).dir))
  ∧ (∀ (s s1 : State) (seg line agent : Nat) (m : FMsg) (x : Trans), takeMsg .miss seg line agent s = some (m, s1) →
      m.agen = expectGen s1 seg agent → (home s1 seg line).trans = some x → x.phase = .forward →
      exec (.miss seg line agent) s = .next (proceed seg line { x with waiting := [] }
        (setHome seg line { home s1 seg line with dir := (home s1 seg line).dir.map fun d => d.clear agent } s1)))
  ∧ (∀ (s s1 : State) (seg line agent : Nat) (m : FMsg) (x : Trans), takeMsg .wbData seg line agent s = some (m, s1) →
      m.agen = expectGen s1 seg agent → (segSt s1 seg).resetting = false → (home s1 seg line).trans = some x → m.poison = [] →
      exec (.wbData seg line agent) s = .next (answered seg line agent (setHome seg line (mergeOwner m (home s1 seg line)) s1)))
  ∧ (∀ (s s1 : State) (seg line agent : Nat) (m : FMsg) (x : Trans), takeMsg .done seg line agent s = some (m, s1) →
      m.agen = expectGen s1 seg agent → (home s1 seg line).trans = some x → x.phase = .done → x.req.agent = agent →
      answers (.done seg line agent) s fun t => (home t seg line).trans = none ∧ (home t seg line).owner = some agent)
  ∧ (∀ (s s1 : State) (seg line : Nat) (m : FMsg) (x : Trans), takeMsg .memData seg line 0 s = some (m, s1) →
      (home s1 seg line).trans = some x → x.phase = .memory → (∀ i ∈ x.fetch, i ∈ m.sectors) → m.poison = [] →
      exec (.memData seg line) s = .next (finishTrans seg line { x with fetch := [] } (portBytes seg (256 * m.sectors.length)
        (setHome seg line { mergeMemory m (home s1 seg line) with trans := some { x with fetch := [] } } s1))))
  ∧ ∀ (s s1 : State) (seg line agent : Nat) (m : FMsg) (c : Instr) (k : FMsgKind),
      (c, k) ∈ [(Instr.ack seg line agent, FMsgKind.ack), (.ackClean seg line agent, .ackClean), (.ackFwd seg line agent, .ackFwd),
        (.miss seg line agent, .miss), (.wbData seg line agent, .wbData), (.done seg line agent, .done)] →
      takeMsg k seg line agent s = some (m, s1) → m.agen ≠ expectGen s1 seg agent → exec c s = .next (staleDrop seg s1)

/-- A requester takes NACK, GO, ABORT, FILL, FWD_DATA and ATOM_DATA, and sends a NACKed request again (07_felt.md R320, R321, R324, R326, R328, R332, R346, R698). -/
def Obligations.RequestersTakeTheirAnswers : Prop :=
  (∀ (s s1 : State) (seg line agent stream : Nat) (m : FMsg), takeMsgS .nack seg line agent stream s = some (m, s1) →
      answers (.nack seg line agent stream) s fun t => t.felt.lines = s.felt.lines ∧ t.felt.reqs = s.felt.reqs.map fun p =>
        if p.seg == seg && p.line == line && p.req.agent == agent && p.req.stream == stream
        then { p with nacked := true, req := { p.req with nacks := min (p.req.nacks + 1) 15 } } else p)
  ∧ (∀ (s : State) (seg line agent stream : Nat) (p : PendReq), findPend seg line agent stream s = some p → p.nacked = true →
      (decide (8 ≤ p.req.nacks) && starveOut s seg agent) = false →
      exec (.nackRetry seg line agent stream) s = .next (homeAccept seg line { p.req with starve := decide (8 ≤ p.req.nacks) }
        (modPend seg line agent stream (fun q => { q with nacked := false, req := { p.req with starve := decide (8 ≤ p.req.nacks) } }) s)))
  ∧ (∀ (s s1 : State) (seg line agent stream : Nat) (m : FMsg), takeMsgS .go seg line agent stream s = some (m, s1) →
      answers (.go seg line agent stream) s fun t => findPend seg line agent stream t = none
        ∧ (∀ c, copyOf s agent line = some c → copyOf t agent line = if c.leaving.isSome then none else some c))
  ∧ (∀ (s s1 : State) (seg line agent stream : Nat) (m : FMsg), takeMsgS .abort seg line agent stream s = some (m, s1) →
      s.recov.running = false → answers (.abort seg line agent stream) s fun t => findPend seg line agent stream t = none
        ∧ t.felt.copies = s.felt.copies)
  ∧ (∀ (s s1 : State) (seg line agent stream : Nat) (m : FMsg), takeMsgS .fill seg line agent stream s = some (m, s1) →
      answers (.fill seg line agent stream) s fun t => findPend seg line agent stream t = none
        ∧ (m.target = 0 → t.felt.copies = s.felt.copies)
        ∧ (m.target = 2 → inNet .done seg line agent 0 t (fun d => d.agen = agentGen s agent))
        ∧ ((∀ p, findPend seg line agent stream s = some p → p.useOnce = false) → m.target ≠ 0 → copyOf t agent line
            = some { st := if m.target = 2 then .e else .s, data := putCells m.data [], poison := m.poison, seg := seg })
        ∧ ∀ p, findPend seg line agent stream s = some p → p.useOnce = true → t.felt.copies = s.felt.copies)
  ∧ (∀ (s s1 : State) (seg line agent stream : Nat) (m : FMsg), takeMsgS .fwdData seg line agent stream s = some (m, s1) →
      answers (.fwdData seg line agent stream) s fun t => findPend seg line agent stream t = none
        ∧ (m.target = 0 → t.felt.copies = s.felt.copies)
        ∧ ((∀ p, findPend seg line agent stream s = some p → p.useOnce = false) → m.target = 1 → copyOf t agent line
            = some { st := .s, data := putCells m.data [], poison := m.poison, seg := seg }))
  ∧ ∀ (s s1 : State) (seg line agent stream : Nat) (m : FMsg), takeMsgS .atomData seg line agent stream s = some (m, s1) →
      answers (.atomData seg line agent stream) s fun t => findPend seg line agent stream t = none
        ∧ t.out = .atomResult agent stream m.value m.flags m.detail :: s.out

/-- Evictions: clean data is dropped, dirty data goes to memory, an entry is freed after its holders answer, an agent's copy goes silently or by WB or EVICT (07_felt.md R305, R306, R312, R313, R322, R324, R328, R329). -/
def Obligations.HomesAndAgentsEvict : Prop :=
  (∀ (s : State) (seg line : Nat), (home s seg line).trans = none → (home s seg line).sect ≠ [.i, .i, .i, .i] →
      (home s seg line).dir = none → answers (.dataWayEviction seg line) s fun t => home t seg line = (home s seg line).dropData
        ∧ t.mem = s.mem ∧ ((home s seg line).sectorsIn .d ++ (home s seg line).sectorsIn .p ≠ [] → inNet .memWr seg line 0 0 t fun m =>
            m.sectors = (home s seg line).sectorsIn .d ++ (home s seg line).sectorsIn .p
            ∧ m.data = m.sectors.flatMap fun i => cellsOfSector (home s seg line).byte i))
  ∧ (∀ (s : State) (seg line a : Nat), (home s seg line).trans = none → (home s seg line).dir = some { mode := .owned, ptrs := [some a, none, none] } →
      answers (.directoryEntryEviction seg line) s fun t => inNet .snpInv seg line a 0 t (fun _ => True)
        ∧ ∃ x, (home t seg line).trans = some x ∧ x.waiting = [a] ∧ x.kind = .dirEvict)
  ∧ (∀ (s : State) (seg line : Nat), (home s seg line).trans = none → (home s seg line).dir = some {} →
      answers (.directoryEntryEviction seg line) s fun t => (home t seg line).dir = none ∧ (home t seg line).trans = none)
  ∧ (∀ (s : State) (agent line : Nat) (c : AgLine), copyOf s agent line = some c → (c.st = .s ∨ c.st = .f) → hostHolds s agent line = false →
      answers (.silentEviction agent line) s fun t => copyOf t agent line = none ∧ t.felt.net = s.felt.net ∧ t.felt.lines = s.felt.lines)
  ∧ (∀ (s : State) (agent line : Nat) (c : AgLine) (r : FReq), copyOf s agent line = some c → c.st = .e → 8 ≤ agent → c.leaving = none →
      hostHolds s agent line = false → r = { kind := .evict, agent := agent, stream := 0, agen := agentGen s agent } →
      exec (.agentEviction agent line) s = .next (homeAccept c.seg line r (addPend c.seg line r (setCopy agent line { c with leaving := some .evict } s))))
  ∧ (∀ (s : State) (agent line : Nat) (c : AgLine) (r : FReq), copyOf s agent line = some c → c.st = .m → 8 ≤ agent → c.leaving = none →
      hostHolds s agent line = false → r = { kind := .wb, agent := agent, stream := 0, sectors := [0, 1, 2, 3], poison := c.poison, data := (List.range 1024).map (fun o => (o, sget lineDefault c.data o)), agen := agentGen s agent } →
      exec (.agentEviction agent line) s = .next (homeAccept c.seg line r (addPend c.seg line r (setCopy agent line { c with leaving := some .wb } s))))
  ∧ ∀ (s : State) (seg line a : Nat), (home s seg line).rsvd = some a → answers (.reservationLapse seg line) s fun t =>
      home t seg line = { home s seg line with rsvd := ((home s seg line).starve ++ [a]).head?, starve := ((home s seg line).starve ++ [a]).tail }

/-- AGENT_DEAD removes an agent's copies and requests and raises what every home expects; it comes back when no home is still reclaiming (07_felt.md R342, R343, R345, R346). -/
def Obligations.DeadAgentsAreReclaimed : Prop :=
  (∀ (s : State) (a : Nat), a < 11 → s.felt.dead.contains a = false → answers (.agentDead a) s fun t =>
      t = (List.range 96).foldl (reclaimAt a) { s with felt := { s.felt with dead := setAdd a s.felt.dead, copies := s.felt.copies.filter (fun e => decide (e.1 / 0x4000000000 ≠ a)), net := deadNet a s.felt.net, reqs := s.felt.reqs.filter fun p => decide (p.req.agent ≠ a) } }
        ∧ a ∈ t.felt.dead ∧ (∀ e ∈ t.felt.copies, e.1 / 0x4000000000 ≠ a))
  ∧ (∀ (s : State) (seg a : Nat), seg < 96 → (segSt s seg).reclaim.contains a = true → answers (.reclaimDone seg a) s fun t =>
      (segSt t seg).reclaim = setDel a (segSt s seg).reclaim ∧ bitOf (rd t (segPage s seg) 0x10) 4 = true ∧ t.mem = s.mem)
  ∧ (∀ (s : State) (a : Nat), s.felt.dead.contains a = true → (∀ g < 96, (segSt s g).reclaim.contains a = false) →
      answers (.agentRevive a) s fun t => a ∉ t.felt.dead ∧ agentGen t a = expectGen s 0 a ∧ t.felt.lines = s.felt.lines)
  ∧ (∀ (s : State) (seg : Nat) (u : List (Nat × Nat)), seg < 96 → (segSt s seg).resetting = false →
      exec (.segmentReset seg u) s = .next (segmentReset seg u s))
  ∧ ∀ (s : State) (seg : Nat) (u : List (Nat × Nat)), (segSt s seg).resetting = true → exec (.segmentReset seg u) s = .next s

/-- SEG_MIGRATE moves a logical segment to the spare; SEG_CFG within its limits begins a change of ways; REP_FLUSH drops the replicas (07_felt.md R297, R298, R348, R351, R354). -/
def Obligations.SegmentsMigrateAndRedivide : Prop :=
  (∀ (s : State) (d u target seg : Nat), d < 8 → u < 13 → target ≤ 32 → 20 ≤ target → logicalSeg s d u = some seg →
      (unitSt s (pSegment d u)).state = .active → (unitSt s (pageOf d target 0)).state = .spare → wearFull s = false →
      answers (.segMigrate d u target) s fun t => (segSt t seg).migTo = some (target - 20)
        ∧ rd t (pSegment d u) 0x10C = BitVec.ofNat 32 (target + 64) ∧ rd t (pSegment d u) 0x110 = 0)
  ∧ (∀ (s : State) (d u seg tt : Nat), d < 8 → u < 13 → logicalSeg s d u = some seg → (segSt s seg).migTo = some tt →
      answers (.segmentMigrateDone d u) s fun t => segUnit t seg = tt ∧ (segSt t seg).migTo = none)
  ∧ (∀ (s : State) (d u : Nat) (w : Word), d < 8 → u < 13 → fld w 3 0 ≤ 8 → fld w 6 4 ≤ 4 → fld w 3 0 + fld w 6 4 ≤ 12 →
      answers (.segCfgWrite d u w) s fun t => rd t (pSegment d u) 0x100 = w &&& 0x7F
        ∧ rd t (pSegment d u) 0x104 = rd s (pSegment d u) 0x104 ||| 0x80 ∧ t.felt = s.felt)
  ∧ (∀ (s : State) (d u : Nat) (w : Word), d < 8 → u < 13 → (8 < fld w 3 0 ∨ 4 < fld w 6 4 ∨ 12 < fld w 3 0 + fld w 6 4) →
      exec (.segCfgWrite d u w) s = .next (event (pSegment d u) 6 s))
  ∧ (∀ (s : State) (d u seg : Nat), d < 8 → u < 13 → logicalSeg s d u = some seg → bitOf (rd s (pSegment d u) 0x104) 7 = true →
      bufferedUnits s seg ≤ fld (rd s (pSegment d u) 0x100) 6 4 * 2048 →
      answers (.wayChangeDone d u) s fun t => rd t (pSegment d u) 0x104 = rd s (pSegment d u) 0x100 &&& 0x7F ∧ t.mem = s.mem
        ∧ (fld (rd s (pSegment d u) 0x100) 3 0 < fld (rd s (pSegment d u) 0x104) 3 0 → replicasIn t d seg = []))
  ∧ ∀ (s : State) (d u seg : Nat), logicalSeg s d u = some seg → answers (.repFlush d u) s fun t =>
      replicasIn t d seg = [] ∧ t = { s with felt := { s.felt with copies := t.felt.copies } }

/-- MEMRD answers with the bytes of memory and the poison it holds; MEMWR writes exactly the bytes it carries; an address no tier backs faults (07_felt.md R313, 09_device_memory.md R399, R400, R404, R406, R414). -/
def Obligations.MemoryControllersReadAndWriteSectors : Prop :=
  (∀ (s s1 : State) (seg line ce : Nat) (ue : List Nat) (m : FMsg), takeMsg .memRd seg line 0 s = some (m, s1) →
      (∀ x ∈ s.felt.net, x.writes line = false) →
      (backed s (line * 1024) = true ∨ inTier (line * 1024) = true) →
      answers (.memrd seg line ue ce) s fun t => t.mem = s.mem ∧ t.felt.lines = s.felt.lines
        ∧ inNet .memData seg line 0 0 t fun a => a.sectors = m.sectors
          ∧ a.data = m.sectors.flatMap (fun i => cellsOfSector (fun o => rdMem s (line * 1024 + o)) i)
          ∧ a.poison = m.sectors.filter fun i => memPoison s (line * 4 + i) || ue.contains i)
  ∧ (∀ (s : State) (seg line : Nat) (m : FMsg) (rest : List FMsg),
      takeFirst (fun m : FMsg => decide (m.kind = .memWr) && m.seg == seg && m.line == line) s.felt.net = some (m, rest) →
      backed s (line * 1024) = true → answers (.memwr seg line) s fun t => t.felt.lines = s.felt.lines
        ∧ (∀ c ∈ m.data, (∀ c' ∈ m.data, c'.1 = c.1 → c'.2 = c.2) → rdMem t (line * 1024 + c.1) = c.2)
        ∧ (∀ a, (∀ c ∈ m.data, line * 1024 + c.1 ≠ a) → rdMem t a = rdMem s a)
        ∧ (m.owned = true → inNet .go seg line m.agent m.stream t (fun _ => True)))
  ∧ (∀ (s s1 : State) (seg line ce : Nat) (ue : List Nat) (m : FMsg), takeMsg .memRd seg line 0 s = some (m, s1) →
      backed s (line * 1024) = false → inTier (line * 1024) = false →
      exec (.memrd seg line ue ce) s = .fault (.unbackedAddress (line * 1024)))
  ∧ ∀ (s : State) (seg line : Nat) (m : FMsg) (rest : List FMsg),
      takeFirst (fun m : FMsg => decide (m.kind = .memWr) && m.seg == seg && m.line == line) s.felt.net = some (m, rest) →
      backed s (line * 1024) = false → inTier (line * 1024) = false →
      exec (.memwr seg line) s = .fault (.unbackedAddress (line * 1024))

/-- Temperature sets the refresh level and cap; refresh, scrub, WCK training and a hot package leave their marks and no byte changed (09_device_memory.md R399, R401, R402, R403, R408, R409, R426, R429, R430). -/
def Obligations.MemoryTiersAreWatchedAndScrubbed : Prop :=
  (∀ (s : State) (d temp : Nat), d < 8 → 97 < temp → (memCtl s d).level ≤ 3 → answers (.sdThermEval d temp) s fun t =>
      (memCtl t d).level = max (memCtl s d).level (thermReached temp) ∧ t.mem = s.mem
        ∧ rd t (pSdramc d) 0x104 = BitVec.ofNat 32 (thermCap (memCtl t d).level)
        ∧ rd t (pSdramc d) 0x100 = BitVec.ofNat 32 ((memCtl t d).level + 0x100 * (temp % 256)))
  ∧ (∀ (s : State) (d temp t1 t2 t3 : Nat), d < 8 → temp ≤ 82 → (memCtl s d).level ≤ 3 → (memCtl s d).leaveSince = [some t1, some t2, some t3] →
      t1 + 1000000 ≤ s.now → t2 + 1000000 ≤ s.now → t3 + 1000000 ≤ s.now → answers (.sdThermEval d temp) s fun t =>
      (memCtl t d).level = 0 ∧ rd t (pSdramc d) 0x104 = 100 ∧ t.mem = s.mem)
  ∧ (∀ (s : State) (d : Nat) (far : Bool), d < 8 → s.inHold = false → answers (.refresh d far) s fun t =>
      rd64 t (if far then pLpddrc d else pSdramc d) 0x60 = (rd64 s (if far then pLpddrc d else pSdramc d) 0x60 + 1) % 2 ^ 64
        ∧ t = { s with regs := t.regs })
  ∧ (∀ (s : State) (d : Nat) (far c ue : Bool), d < 8 → s.inHold = false → bitOf (rd s (pSdramc d) 0x120) 8 = true →
      answers (.scrub d far c ue) s fun t => t.mem = s.mem ∧ memCtl t d =
        (if far then { memCtl s d with scrubFar := ((memCtl s d).scrubFar + 1) % tierCodewords s d true }
          else { memCtl s d with scrubNear := ((memCtl s d).scrubNear + 1) % 0x20000000 }))
  ∧ (∀ (s : State) (d k sub : Nat), d < 8 → k < 2 → sub < 4 → (memCtl s d).selfRefresh = false → (memCtl s d).trained.getD k false = true →
      answers (.wckRetrain d k sub) s fun t => t.mem = s.mem ∧ t.regs = s.regs
        ∧ sget (fun _ => 0) (memCtl t d).pausedTo (k * 4 + sub) = s.now + 1000)
  ∧ ∀ (s : State) (d k code : Nat), d < 8 → k < 2 → (memCtl s d).present.getD k false = true → answers (.memHot d k code) s fun t =>
      fld (rd t (pLpddrc d + 1 + k) 0x100) 8 6 = code % 8 ∧ bitOf (rd t (pLpddrc d) 0x10) 2 = true ∧ t.mem = s.mem

/-- A row or bank repair commits its remap and one wear entry; without a spare it fails; sPPR counts; hPPR is recorded for the next boot (09_device_memory.md R410, R411, R413, R427, R430, R432, 15_recovery.md R710). -/
def Obligations.MemoryRepairs : Prop :=
  (∀ (s : State) (d ch b row : Nat) (ue : List Nat), d < 8 → ch < 64 → b < 32 → row < 8192 → (memCtl s d).repair = none → s.inHold = false →
      wearFull s = false → rowsUsedOf (memCtl s d) ch b < 160 → answers (.repairRow d ch b row ue) s fun t => t.mem = s.mem
        ∧ (memCtl t d).remaps = (memCtl s d).remaps ++ [{ channel := ch, bank := b, row := row, isBank := false }]
        ∧ rowsUsedOf (memCtl t d) ch b = rowsUsedOf (memCtl s d) ch b + 1 ∧ t.nor.wear = s.nor.wear + 1
        ∧ rd t (repairPage d) 0x104 = rd s (repairPage d) 0x104 &&& 1)
  ∧ (∀ (s : State) (d ch b row : Nat) (ue : List Nat), d < 8 → ch < 64 → b < 32 → row < 8192 → (memCtl s d).repair = none → s.inHold = false →
      wearFull s = false → 160 ≤ rowsUsedOf (memCtl s d) ch b → exec (.repairRow d ch b row ue) s = .next (repairFail d s))
  ∧ (∀ (s : State) (d ch b row : Nat), d < 8 → ch < 64 → b < 32 → (memCtl s d).repair = none → s.inHold = false → wearFull s = false →
      (memCtl s d).bankUsed.contains ch = false → answers (.repairBank d ch b row) s fun t => t.mem = s.mem
        ∧ (memCtl t d).repair = some { channel := ch, bank := b, row := row, isBank := true } ∧ rd t (repairPage d) 0x104 = 1)
  ∧ (∀ (s : State) (d : Nat) (ue : List Nat) (r : Repair), d < 8 → (memCtl s d).repair = some r → s.inHold = false → wearFull s = false →
      answers (.bankRepairCommit d ue) s fun t => t.mem = s.mem ∧ (memCtl t d).repair = none
        ∧ (memCtl t d).remaps = (memCtl s d).remaps ++ [r] ∧ r.channel ∈ (memCtl t d).bankUsed
        ∧ rd t (repairPage d) 0x104 = 0 ∧ t.nor.wear = s.nor.wear + 1)
  ∧ (∀ (s : State) (d k : Nat) (cmd : Word), d < 8 → k < 2 → (memCtl s d).present.getD k false = true → s.inHold = false → wearFull s = false →
      answers (.sppr d k cmd true) s (fun t => t.mem = s.mem ∧ t.nor.wear = s.nor.wear + 1
        ∧ rd t (pLpddrc d + 1 + k) 0x114 = BitVec.ofNat 32 (4 * min (fld (rd s (pLpddrc d + 1 + k) 0x114) 9 2 + 1) 255))
      ∧ answers (.sppr d k cmd false) s fun t => t.mem = s.mem ∧ t.nor = s.nor ∧ bitOf (rd t (pLpddrc d + 1 + k) 0x114) 1 = true)
  ∧ ∀ (s : State) (d k : Nat) (cmd : Word), d < 8 → k < 2 → (memCtl s d).present.getD k false = true → answers (.hpprRecord d k cmd) s fun t =>
      k * 0x1000000 + cmd.toNat % 0x1000000 ∈ (memCtl t d).hppr ∧ t.mem = s.mem ∧ t.regs = s.regs

/-- An epoch end evaluates every region and adds 1 to AC_EPOCH_NO; the ring and the windows are fixed while in use (09_device_memory.md R418, R419, R420, R421, R428). -/
def Obligations.AccessCountersEvaluateRegions : Prop :=
  (∀ (s : State) (d : Nat), d < 8 → s.inHold = false → bitOf (rd s (acPage d) 0x100) 0 = true → answers (.epochEnd d) s fun t =>
      rd t (acPage d) 0x10C = rd s (acPage d) 0x10C + 1 ∧ t.mem = s.mem
        ∧ t = wr (acPage d) 0x10C (BitVec.ofNat 32 ((rd s (acPage d) 0x10C).toNat + 1))
            ((allRegions s d).foldl (fun x r => evalOne d r.1 r.2.1 r.2.2 (rd s (acPage d) 0x10C).toNat x) s))
  ∧ (∀ (hot cold n : Nat) (r : Region), (r.flag = 1 → (evalRegion hot cold n r).flag = if 2 * r.count < hot then 0 else 1)
      ∧ (r.flag ≠ 1 → hot ≤ r.count → (evalRegion hot cold n r).flag = 1)
      ∧ (r.flag = 2 → r.count < hot → (evalRegion hot cold n r).flag = if cold < r.count then 0 else 2)
      ∧ (r.flag = 0 → r.count < hot → r.count ≤ cold → n ≤ r.cold + 1 → (evalRegion hot cold n r).flag = 2)
      ∧ (evalRegion hot cold n r).count = 0)
  ∧ (∀ (s : State) (d src key pa no : Nat) (r' : Region),
      r' = evalRegion (acThresholds s d src).1 (acThresholds s d src).2.1 (acThresholds s d src).2.2 (sget (fun _ => ({} : Region)) (memCtl s d).regions key) →
      r'.flag = (sget (fun _ => ({} : Region)) (memCtl s d).regions key).flag →
      sget (fun _ => ({} : Region)) (memCtl (evalOne d src key pa no s) d).regions key = r'
        ∧ (evalOne d src key pa no s).regs = s.regs)
  ∧ (∀ (s : State) (d off : Nat) (w : DWord) (wide : Bool), d < 8 → (off = 0x110 ∨ off = 0x114 ∨ off = 0x118) → notifyUsed s d = 0 →
      exec (.notifyConfigWrite d off w wide) s = .next (stReg 0 (acPage d) off w (wide && off == 0x110) s))
  ∧ (∀ (s : State) (d off : Nat) (w : DWord) (wide : Bool), d < 8 → (off = 0x110 ∨ off = 0x114 ∨ off = 0x118) → notifyUsed s d ≠ 0 →
      exec (.notifyConfigWrite d off w wide) s = .next (event (pSdramc d) 5 s))
  ∧ (∀ (s : State) (d off : Nat) (w : DWord) (wide : Bool), d < 8 → (off = 0x130 ∨ off = 0x134 ∨ off = 0x138) →
      exec (.accessCounterConfigWrite d off w wide) s = .next (if bitOf (rd s (acPage d) 0x100) 0 then event (pSdramc d) 5 s
        else stReg (fld (rd s (acPage d) 0x128) 3 0) (acPage d) off w (wide && off == 0x130) s))
  ∧ (∀ (s : State) (d : Nat) (w : DWord) (wide : Bool), d < 8 → bitOf (rd s (acPage d) 0x100) 0 = true →
      answers (.accessCounterConfigWrite d 0x100 w wide) s fun t => rd t (acPage d) 0x100
        = setFld (rd s (acPage d) 0x100) 0 0 (fld (BitVec.ofNat 32 w.toNat) 0 0))
  ∧ ∀ (s : State) (d : Nat) (w : DWord) (wide : Bool), d < 8 → bitOf (rd s (acPage d) 0x100) 0 = false → bitOf (BitVec.ofNat 32 w.toNat) 0 = true →
      answers (.accessCounterConfigWrite d 0x100 w wide) s fun t => rd t (acPage d) 0x10C = 0 ∧ t.mem = s.mem

/-- A drained unit with nothing accepted goes OFF; an internal fault takes a leaf to FAULTED and starts its recovery; held loads are served again (02_register_pages.md R75, R76, R79, 03_tiles.md R116, R124, 15_recovery.md R695, R697, 16_power.md R757). -/
def Obligations.UnitsFinishAndFault : Prop :=
  (∀ (s : State) (p : Nat), s.inHold = false → isLeaf p = true → (unitSt s p).state = .draining → (unitSt s p).enable = false →
      leafBusy s p = false → pageKind p ≠ some .port → s.prot.phase ≠ .committing → answers (.acceptedWorkFinished p) s fun t =>
      (unitSt t p).state = .off ∧ (∀ q, q ≠ p → unitSt t q = unitSt s q) ∧ t.mem = s.mem)
  ∧ (∀ (s : State) (p : Nat), s.inHold = false → isLeaf p = true → (unitSt s p).state = .draining → (unitSt s p).enable = false →
      leafBusy s p = false → pageKind p = some .port →
      exec (.acceptedWorkFinished p) s = .next (commitFollow (portFollow (6 * pageDie p + (pageUnit p - 36)) (setUState p .off false s))))
  ∧ (∀ (s : State) (p : Nat), leafBusy s p = true → exec (.acceptedWorkFinished p) s = .next s)
  ∧ (∀ (s : State) (p cls dt : Nat) (k : PageKind), isLeaf p = true → pageKind p = some k → k.honoursCtrl = true → counted s p = true →
      s.inHold = false → (unitSt s p).state ≠ .faulted → ∃ u : State, u = setUState p .faulted false (captureErr p (faultRec s p cls dt) s)
        ∧ exec (.unitFault p cls dt) s = .next (afterFault p (unitSlices s p) u) ∧ (unitSt u p).state = .faulted
        ∧ bitOf (rd u p 0x20) 31 = true ∧ (bitOf (rd s p 0x20) 31 = false → fld (rd u p 0x20) 15 8 = cls % 256 ∧ fld (rd u p 0x20) 7 0 = dt % 256))
  ∧ (∀ (s : State) (p cls dt : Nat) (k : PageKind), isLeaf p = true → pageKind p = some k → k.honoursCtrl = true → counted s p = true →
      s.inHold = true → answers (.unitFault p cls dt) s fun t => t.units = s.units ∧ t.regs = s.regs
        ∧ t.power.hold.faults = s.power.hold.faults ++ [(p, cls, dt)])
  ∧ (∀ (s : State) (d u core : Nat) (r : Replay) (rest : List Replay) (gr : Group) (pl : PendLoad) (s1 : State), s.inHold = false →
      takeFirst (fun r : Replay => r.overlap.isNone) (replaysOf (tileSt s d u) core) = some (r, rest) →
      s1 = addProg (pVC d u core) 4 1 (setReplays d u core rest s) → groupOf (tileSt s1 d u) r.slot = some gr → gr.load = some pl →
      exec (.bankConflictReplay d u core) s = .next (loadCheck d u r.slot (countLoadRows d u pl [(r.tile, r.row)]
        (setGroup d u r.slot { gr with load := some (serveRow d r.tile r.row gr s1 pl) } s1))))
  ∧ ∀ (s : State) (d u core slot : Nat) (r : Replay) (rest : List Replay) (ins : LoadIns) (k : Task) (gr : Group), s.inHold = false →
      takeFirst (fun r : Replay => r.slot == slot && r.overlap.isSome) (replaysOf (tileSt s d u) core) = some (r, rest) →
      r.overlap = some ins → (tileSt s d u).task = some k → groupOf (tileSt s d u) slot = some gr →
      (∀ ks ∈ allKeys ins.bytes (accesses s ⟨d, u, slot⟩ k gr ins.space ins.addr .read ins.bytes), sbCheck (sbOf (tileSt s d u) core) ks = .none) →
      exec (.partialOverlapReplay d u core slot) s = .next (loadIssue ⟨d, u, slot⟩ ins k { gr with wait := .ready }
        (setGroup d u slot { gr with wait := .ready } (setReplays d u core rest s)))

/-- A walk read takes one entry; an invalidation is queued, acknowledged by every holder and completes; DL_BASE is fixed while logging is on (10_translation.md R445, R451, R453, R454, R455, R457, R459, R460, R463, R475, R477). -/
def Obligations.WalksAndInvalidations : Prop :=
  (∀ (s : State) (hp stream : Nat) (ue : Bool) (w : Walk), findWalk s hp stream = some w → s.inHold = false → w.stale = false →
      (unitSt s (pWalkers w.die)).state = .active →
      (∀ tb, walkEntry s w.pasid w.va w.level w.table ue = .next tb → answers (.walkRead hp stream ue) s fun t =>
        findWalk t hp stream = some { w with level := w.level + 1, table := tb } ∧ t.mem = s.mem)
      ∧ (∀ sz base lf, walkEntry s w.pasid w.va w.level w.table ue = .leaf sz base lf → answers (.walkRead hp stream ue) s fun t =>
        findWalk t hp stream = none ∧ t.mem = s.mem)
      ∧ (walkEntry s w.pasid w.va w.level w.table ue = .migrating → exec (.walkRead hp stream ue) s
          = .next (walkMigrating w (countWalk hp w.die (putWalk hp stream none (countEntryRead w.die s)))))
      ∧ ∀ c dt, walkEntry s w.pasid w.va w.level w.table ue = .fault c dt → exec (.walkRead hp stream ue) s
          = .next (walkFault w c dt (countWalk hp w.die (putWalk hp stream none (countEntryRead w.die s)))))
  ∧ (∀ (s : State) (hp stream : Nat) (ue : Bool) (w : Walk), findWalk s hp stream = some w → s.inHold = false → w.stale = true →
      exec (.walkRead hp stream ue) s = .next (rewalk w (if pageKind hp = some .tlb then addProg hp 7 1 s else s)))
  ∧ (∀ (s : State) (d fn tag : Nat), d < 8 → bitOf (rdB s fn (pWalkers d) 0x110) 20 = false →
      pasidOfFn s (pWalkers d) fn (fld (rdB s fn (pWalkers d) 0x110) 19 0) = true → (invalsOf s d).length < 16 →
      answers (.invGo d fn tag) s fun t => ∃ v : Inval, invalsOf t d = invalsOf s d ++ [v] ∧ v.tag = tag % 65536 ∧ v.waiting = allHolders
        ∧ v.pasid = some (fld (rdB s fn (pWalkers d) 0x110) 19 0) ∧ v.va = rd64B s fn (pWalkers d) 0x118 % 0x2000000000000 / 0x10000 * 0x10000
        ∧ v.len = rd64B s fn (pWalkers d) 0x120 % 0x200000000 ∧ t = { s with xlate := t.xlate })
  ∧ (∀ (s : State) (d fn tag : Nat), d < 8 → bitOf (rdB s fn (pWalkers d) 0x110) 20 = false →
      pasidOfFn s (pWalkers d) fn (fld (rdB s fn (pWalkers d) 0x110) 19 0) = true → 16 ≤ (invalsOf s d).length →
      exec (.invGo d fn tag) s = .next (satInc (pWalkers d) 0x134 1 (event (pWalkers d) 2 s)))
  ∧ (∀ (s : State) (d hp : Nat) (v : Inval) (rest : List Inval), invalsOf s d = v :: rest → v.waiting.contains hp = true → s.inHold = false →
      holderBusy s hp v = false → answers (.invAck d hp) s fun t =>
        invalsOf t d = { v with waiting := setDel hp v.waiting } :: rest ∧ tlbOf t hp = (tlbOf s hp).filter (fun e => !invDrops v e)
          ∧ t.mem = s.mem)
  ∧ (∀ (s : State) (d : Nat) (v : Inval) (rest : List Inval), invalsOf s d = v :: rest → v.waiting = [] → s.inHold = false →
      exec (.invComplete d) s = .next (replayParked v (resumeHeld v (addProg (pWalkers d) 5 1 (event (pWalkers d) 1
        (inc32 (pWalkers d) 0x130 1 (wr (pWalkers d) 0x12C (setFld (rd s (pWalkers d) 0x12C) 31 16 v.tag) (setInvals d rest s))))))))
  ∧ (∀ (s : State) (d off : Nat) (w : DWord) (wide : Bool), d < 8 → (off = 0x108 ∨ off = 0x10C) →
      exec (.dlConfigWrite d off w wide) s = .next (if bitOf (rdB s (fld (rd s (dlPage d) 0x100) 5 0) (dlPage d) 0x110) 0 then event (pWalkers d) 4 s
        else stReg (fld (rd s (dlPage d) 0x100) 5 0) (dlPage d) off w (wide && off == 0x108) s))
  ∧ ∀ (s : State) (d : Nat) (w : DWord) (wide : Bool), d < 8 →
      exec (.dlConfigWrite d 0x110 w wide) s = .next (stReg (fld (rd s (dlPage d) 0x100) 5 0) (dlPage d) 0x110 w (wide && (0x110 : Nat) == 0x108) s)

/-- A doorbell of the ring's function moves the tail or the completion head; one beyond the queue is BAD_DB; another function's is ignored (11_submission.md R482, R483, R484, 14_slices.md R640). -/
def Obligations.DoorbellsMoveRingIndices : Prop :=
  (∀ (s : State) (fn ring v : Nat), ring < 8192 → fnOwnsRing s fn ring = true → idxDiff (v % 0x20000) (ringSt s ring).head ≤ ringCapacity (ringSt s ring) →
      answers (.dbTail fn ring v) s fun t => ringSt t ring = { ringSt s ring with tail := v % 0x20000, pend := decide (v % 0x20000 ≠ (ringSt s ring).head) }
        ∧ (∀ q, q ≠ ring → ringSt t q = ringSt s q) ∧ t = { s with disp := { s.disp with rings := t.disp.rings } })
  ∧ (∀ (s : State) (fn ring v : Nat), ring < 8192 → fnOwnsRing s fn ring = true → ringCapacity (ringSt s ring) < idxDiff (v % 0x20000) (ringSt s ring).head →
      answers (.dbTail fn ring v) s fun t => t = event (pDsp s) 1 s ∧ t.disp = s.disp)
  ∧ (∀ (s : State) (fn ring v : Nat), fnOwnsRing s fn ring = false → exec (.dbTail fn ring v) s = .next s ∧ exec (.dbCqHead fn ring v) s = .next s)
  ∧ (∀ (s : State) (fn ring v : Nat), ring < 8192 → fnOwnsRing s fn ring = true →
      idxDiff (v % 0x20000) (ringSt s ring).cqHead ≤ idxDiff (ringSt s ring).cqTail (ringSt s ring).cqHead →
      answers (.dbCqHead fn ring v) s fun t => ringSt t ring = { ringSt s ring with cqHead := v % 0x20000 }
        ∧ (∀ q, q ≠ ring → ringSt t q = ringSt s q) ∧ t = { s with disp := { s.disp with rings := t.disp.rings } })
  ∧ ∀ (s : State) (fn ring v : Nat), ring < 8192 → fnOwnsRing s fn ring = true →
      idxDiff (ringSt s ring).cqTail (ringSt s ring).cqHead < idxDiff (v % 0x20000) (ringSt s ring).cqHead →
      answers (.dbCqHead fn ring v) s fun t => t = event (pDsp s) 1 s ∧ t.disp = s.disp

/-- ENABLE reads the ring's entry and makes it ACTIVE, RESET_IDX also zeroes its indices; DRAIN and FORCE_OFF lead to OFF; RT_BASE needs every ring OFF (11_submission.md R480, R524, R525, R526, R527, R530, R685, 17_boot.md R860). -/
def Obligations.RingControlFollowsItsCommands : Prop :=
  (∀ (s : State) (fn ring sl : Nat), ringSel s fn = ring → fnMayRing s fn ring = true → sliceOfRing s ring = some sl → (sliceSt s sl).contained = false →
      quiescing s sl = false → (ringSt s ring).state = .off → cohPoisonN s true (rtBase s + 64 * ring) 64 = false →
      ringEntryOk s sl (ringTableBytes s ring) = true →
      (idxDiff (ringSt s ring).tail (ringSt s ring).head ≤ 2 ^ (ringEntryOf (ringTableBytes s ring)).sqLog2 → answers (.ringEnable fn) s fun t =>
        (ringSt t ring).state = .active ∧ (ringSt t ring).ent = ringEntryOf (ringTableBytes s ring) ∧ (ringSt t ring).tail = (ringSt s ring).tail
          ∧ (ringSt t ring).head = (ringSt s ring).head ∧ (ringSt t ring).expSeq = (ringSt s ring).expSeq)
      ∧ answers (.ringResetIdx fn) s fun t => (ringSt t ring).state = .active ∧ (ringSt t ring).tail = 0 ∧ (ringSt t ring).head = 0
        ∧ (ringSt t ring).cqHead = 0 ∧ (ringSt t ring).cqTail = 0 ∧ (ringSt t ring).expSeq = (ringEntryOf (ringTableBytes s ring)).seq0)
  ∧ (∀ (s : State) (fn ring sl : Nat), ringSel s fn = ring → fnMayRing s fn ring = true → sliceOfRing s ring = some sl → (sliceSt s sl).contained = false →
      quiescing s sl = false → (ringSt s ring).state = .draining → answers (.ringEnable fn) s fun t => ringSt t ring = { ringSt s ring with state := .active })
  ∧ (∀ (s : State) (fn ring : Nat), ringSel s fn = ring → fnMayRing s fn ring = true → (ringSt s ring).state = .active → answers (.ringDrain fn) s fun t =>
      (ringSt t ring).state = (if ringCmds s ring = [] then .off else .draining) ∧ t.disp.cmds = s.disp.cmds)
  ∧ (∀ (s : State) (fn ring : Nat), ringSel s fn = ring → fnMayRing s fn ring = true → (ringSt s ring).state ≠ .off → answers (.ringForceOff fn) s fun t =>
      (ringSt t ring).state = .off ∧ (ringSt t ring).gen = (ringSt s ring).gen + 1 ∧ t = ringForceOff (0x30, 0x01) ring s)
  ∧ (∀ (s : State) (fn : Nat), fnMayRing s fn (ringSel s fn) = false → ∀ c ∈ [Instr.ringEnable fn, .ringResetIdx fn, .ringDrain fn, .ringForceOff fn],
      exec c s = .next (event (pDsp s) 2 s))
  ∧ (∀ (s : State) (off : Nat) (w : DWord) (wide : Bool), (off = 0x100 ∨ off = 0x104) → (∀ e ∈ s.disp.rings, e.2.state = .off) →
      exec (.rtBaseWrite off w wide) s = .next (stReg 0 pDspRings off w (wide && off == 0x100) s))
  ∧ ∀ (s : State) (off : Nat) (w : DWord) (wide : Bool), (off = 0x100 ∨ off = 0x104) → (∃ e ∈ s.disp.rings, e.2.state ≠ .off) →
      exec (.rtBaseWrite off w wide) s = .next (event (pDsp s) 2 s)

/-- The next command of an active ring is read in full and started; the head and the expected sequence number advance; a failed check ends it (11_submission.md R481, R485, R487, R488, R489, R502). -/
def Obligations.CommandsAreReadCheckedAndStarted : Prop :=
  (∀ (s s1 s2 : State) (ring sl : Nat) (hd b : List Byte), sliceOfRing s ring = some sl → dispStarts s = true → (ringSt s ring).state = .active →
      (ringSt s ring).tail ≠ (ringSt s ring).head → (sliceSt s sl).contained = false → ringMayStart s ring = true →
      readSlots (ringCtx (ringSt s ring) ring sl) (ringSt s ring).ent.pasid (cmdParts (ringSt s ring).ent (ringSt s ring).head 16) s = .ok (hd, false) s1 →
      hdrSlots hd ≤ idxDiff (ringSt s ring).tail (ringSt s ring).head → nbit (bytesAt hd 0 4) 15 = false →
      readSlots (ringCtx (ringSt s ring) ring sl) (ringSt s ring).ent.pasid (cmdParts (ringSt s ring).ent (ringSt s ring).head
        (if hdrSlots hd < minSlots (hdrOpc hd) then 16 else cmdLen (hdrOpc hd))) s1 = .ok (b, false) s2 →
      exec (.commandStart ring) s = .next (startRead ring sl b (dropHeld pDispatch ring s2)))
  ∧ (∀ (s : State) (ring sl : Nat) (raw : List Byte), startBad s (ringSt s ring) (cmdOf s ring sl raw) = none →
      (cmdOf s ring sl raw).opc ≠ 0 → (cmdOf s ring sl raw).opc ≠ 0x0C →
      (ringSt (startRead ring sl raw s) ring).head = ((ringSt s ring).head + hdrSlots raw) % 0x20000
      ∧ (ringSt (startRead ring sl raw s) ring).expSeq = ((ringSt s ring).expSeq + 1) % 2 ^ 32
      ∧ (ringSt (startRead ring sl raw s) ring).state = (ringSt s ring).state
      ∧ (startRead ring sl raw s).disp.cmds = s.disp.cmds ++ [cmdOf s ring sl raw]
      ∧ (cmdOf s ring sl raw).status = none ∧ (startRead ring sl raw s).mem = s.mem)
  ∧ (∀ (s : State) (ring sl va : Nat) (s1 : State), sliceOfRing s ring = some sl → dispStarts s = true → (ringSt s ring).state = .active →
      (ringSt s ring).tail ≠ (ringSt s ring).head → (sliceSt s sl).contained = false → ringMayStart s ring = true →
      readSlots (ringCtx (ringSt s ring) ring sl) (ringSt s ring).ent.pasid (cmdParts (ringSt s ring).ent (ringSt s ring).head 16) s = .migrating va s1 →
      exec (.commandStart ring) s = .next (holdStream pDispatch ring (ringSt s ring).ent.pasid va s1))
  ∧ ∀ (s : State) (ring sl va cls dt : Nat) (s1 : State), sliceOfRing s ring = some sl → dispStarts s = true → (ringSt s ring).state = .active →
      (ringSt s ring).tail ≠ (ringSt s ring).head → (sliceSt s sl).contained = false → ringMayStart s ring = true →
      readSlots (ringCtx (ringSt s ring) ring sl) (ringSt s ring).ent.pasid (cmdParts (ringSt s ring).ent (ringSt s ring).head 16) s = .fault cls dt va s1 →
      exec (.commandStart ring) s = .next (startUnread ring sl (cls, dt) s1)

/-- KERNEL readies its tasks; WAIT ends when its condition holds; barriers and PHASE end in order; SNAPSHOT copies or only fires (11_submission.md R490, R497, R498, R501, R502, R503, R511, 08_memory_model.md R377, R378). -/
def Obligations.DispatcherCommandsRun : Prop :=
  (∀ (s : State) (ring seq : Nat) (c : Cmd), waitingCmd s ring seq 1 = some c → dispRuns s = true → answers (.kernel ring seq) s fun t =>
      (∀ x ∈ t.disp.cmds, x.ring = ring → x.no = c.no → x.launched = true ∧ x.readyTs = s.now) ∧ t.mem = s.mem ∧ t.regs = s.regs)
  ∧ (∀ (s : State) (ring seq : Nat) (c : Cmd), waitingCmd s ring seq 7 = some c → dispRuns s = true →
      exec (.wait ring seq) s = .next (waitEval c (updCmd ring c.no (fun x => { x with launched := true }) s)))
  ∧ (∀ (s : State) (ring : Nat) (c : Cmd), openWait s ring = some c → dispRuns s = true → exec (.waitEval ring) s = .next (waitEval c s))
  ∧ (∀ (s : State) (c : Cmd), c.fld 40 2 0 = 4 → waitCmdHolds (addProg (pDsp s) 7 1 s) c = true →
      waitEval c s = endCmd c.ring c.no (0, 0) (addProg (pDsp s) 7 1 s))
  ∧ (∀ (s : State) (c : Cmd), c.fld 40 2 0 = 4 → waitCmdHolds (addProg (pDsp s) 7 1 s) c = false → (waitEval c s).disp = s.disp)
  ∧ (∀ (s s1 : State) (c : Cmd) (ps : List Piece), c.fld 40 2 0 ≠ 4 →
      xlateRange c.ctx pDispatch c.pasid (bytesAt c.raw 16 8) 8 .read (addProg (pDsp s) 7 1 s) = .ok ps s1 →
      piecesPoison (dropHeld pDispatch c.ring s1) ps = false → waitEval c s = if waitHolds c (leNat (readPieces (dropHeld pDispatch c.ring s1) ps))
        then endCmd c.ring c.no (0, 0) (dropHeld pDispatch c.ring s1) else dropHeld pDispatch c.ring s1)
  ∧ (∀ (s : State) (ring seq : Nat) (c : Cmd), waitingCmd s ring seq 9 = some c → findCmd s ring c.no = some c → dispRuns s = true →
      answers (.barrierOrder ring seq) s fun t => ∀ x ∈ t.disp.cmds, x.ring = ring → x.no = c.no → x.status = some (0, 0))
  ∧ (∀ (s : State) (ring seq : Nat) (c : Cmd), waitingCmd s ring seq 0x0A = some c → dispRuns s = true →
      exec (.barrierComplete ring seq) s = .next (dispSync (finishBarrier ring (updCmd ring c.no (fun x => { x with launched := true }) s))))
  ∧ (∀ (s : State) (ring : Nat) (b : Cmd), barrierReady s ring = some b → (barrierStatus (ringSt s ring) b.no).1 = 0 →
      finishBarrier ring s = endRecord b (barrierStatus (ringSt s ring) b.no) s)
  ∧ (∀ (s : State) (ring seq : Nat) (c : Cmd), waitingCmd s ring seq 0x0B = some c → dispRuns s = true → answers (.phase ring seq) s fun t =>
      (ringSt t ring).phase = bytesAt c.raw 16 1 ∧ (findCmd s ring c.no = some c → ∀ x ∈ t.disp.cmds, x.ring = ring → x.no = c.no → x.status = some (0, 0)))
  ∧ (∀ (s : State) (ring seq : Nat) (c : Cmd), waitingCmd s ring seq 0x0D = some c → dispRuns s = true →
      (bytesAt c.raw 16 8 = 0 ∨ ∀ n < 16, nbit (bytesAt c.raw 24 2) n = false) →
      exec (.snapshot ring seq) s = .next (endCmd ring c.no (0, 0) (if nbit (bytesAt c.raw 24 4) 16
        then snapTrigger 2 (updCmd ring c.no (fun x => { x with launched := true, worked := true }) s)
        else updCmd ring c.no (fun x => { x with launched := true, worked := true }) s)))
  ∧ ∀ (s s1 : State) (ring seq n : Nat) (c : Cmd) (ps : List Piece), waitingCmd s ring seq 0x0D = some c → dispRuns s = true → bytesAt c.raw 16 8 ≠ 0 →
      n < 16 → nbit (bytesAt c.raw 24 2) n = true → nbit (bytesAt c.raw 24 4) 16 = false →
      xlateRange c.ctx pDispatch c.pasid (bytesAt c.raw 16 8) (131072 * ((List.range 16).filter fun n => nbit (bytesAt c.raw 24 2) n).length) .write s = .ok ps s1 →
      ∃ u : State, u = updCmd ring c.no (fun x => { x with launched := true, worked := true }) (dropHeld pDispatch ring s1)
        ∧ exec (.snapshot ring seq) s = .next (endCmd ring c.no (0, 0) (writeFor ring c.no c.slice ps
            (((List.range 16).filter fun n => nbit (bytesAt c.raw 24 2) n).flatMap fun d => snapDieBytes u d) u))

/-- COPY, PUT, GET, SIGNAL and DIRTYLOG become messages of their engine and COLLECTIVE a plan of its slot; without fabric rights a transfer fails (10_translation.md R468 to R470, 11_submission.md R494, R495, R510, 13_fabric.md R584, R587, R606, R610, R612, R629). -/
def Obligations.EnginesTakeTheirCommands : Prop :=
  (∀ (s s1 : State) (ring seq d : Nat) (c : Cmd), waitingCmd s ring seq 3 = some c → dispRuns s = true → copyDie c s = .ok d s1 → dieAvail s1 d = .go →
      ∀ e ∈ [(0, Instr.copy ring seq, MsgKind.copy), (1, .copyFlush ring seq, .flush), (2, .copyFill ring seq, .fill)], c.fld 40 1 0 = e.1 →
      exec e.2.1 s = .next (takeCmd c (addMsgs [{ msgOf c e.2.2 d none with src := bytesAt c.raw 16 8, dst := bytesAt c.raw 24 8, len := c.fld 32 39 0, pattern := bytesAt c.raw 44 4 }] (dropHeld pDispatch c.ring s1))))
  ∧ (∀ (s : State) (ring seq q : Nat) (c : Cmd) (m : Msg), dispRuns s = true → q = c.fld 40 17 12 → queueAvail s q = .go → fabEn s (pCopyEngine (q % 8) (q / 8)) c.slice = true →
      ∀ e ∈ [(4, Instr.put ring seq, { msgOf c .put 0 none with src := bytesAt c.raw 16 8, dst := bytesAt c.raw 24 8, len := c.fld 32 39 0 }),
             (5, .get ring seq, { msgOf c .get 0 none with src := bytesAt c.raw 24 8, dst := bytesAt c.raw 16 8, len := c.fld 32 39 0 }),
             (6, .signal ring seq, { msgOf c .signal 0 none with dst := bytesAt c.raw 24 8, pattern := bytesAt c.raw 32 8 })],
      waitingCmd s ring seq e.1 = some c → m = { e.2.2 with die := q % 8, engine := some (q / 8), node := c.fld 40 11 0, queue := q, counter := c.fld 40 27 18, countEn := nbit (bytesAt c.raw 40 4) 28, holdMs := bytesAt c.raw 44 2 } →
      exec e.2.1 s = .next (takeCmd c (addMsgs [m] s)))
  ∧ (∀ (s : State) (ring seq q : Nat) (c : Cmd), dispRuns s = true → q = c.fld 40 17 12 → queueAvail s q = .go → fabEn s (pCopyEngine (q % 8) (q / 8)) c.slice = false →
      ∀ e ∈ [(4, Instr.put ring seq), (5, .get ring seq), (6, .signal ring seq)], waitingCmd s ring seq e.1 = some c →
      exec e.2 s = .next (unitFail c (pCopyEngine (q % 8) (q / 8)) 0x13 0x03 s))
  ∧ (∀ (s : State) (l : List Msg) (c : Cmd), (takeCmd c (addMsgs l s)).xfer.msgs.length = s.xfer.msgs.length + l.length
      ∧ (takeCmd c (addMsgs l s)).mem = s.mem ∧ ∀ x ∈ (takeCmd c (addMsgs l s)).disp.cmds, x.ring = c.ring → x.no = c.no → x.launched = true)
  ∧ (∀ (s : State) (ring seq sl : Nat) (c : Cmd) (dies : List Nat), waitingCmd s ring seq 0x0E = some c → dispRuns s = true → dirtyBad s c = none →
      dies = (List.range 8).filter (fun d => nbit (bytesAt c.raw 24 4) (8 + d)) → (∀ d ∈ dies, dieAvail s d = .go) →
      sl = (if nbit (bytesAt c.raw 24 4) 6 then nfld (bytesAt c.raw 24 4) 5 0 else c.slice) →
      exec (.dirtylog ring seq) s = .next (takeCmd c (addMsgs (dies.map fun d => { msgOf c (.dirty (nbit (bytesAt c.raw 24 4) 7) sl) d none with src := rd64B s sl (dlPage d) 0x108, dst := bytesAt c.raw 16 8 + 196608 * d, len := 196608 }) s)))
  ∧ ∀ (s s1 s2 s3 : State) (ring seq d slot n : Nat) (c : Cmd) (hd x y : List Byte), waitingCmd s ring seq 8 = some c → dispRuns s = true →
      readRange c pDispatch (bytesAt c.raw 16 8) 64 s = .ok (hd, false) s1 → d = nfld (bytesAt hd 0 4) 10 7 → d < 8 → n = nfld (bytesAt hd 8 4) 15 0 + 1 →
      64 + 32 * n ≤ bytesAt c.raw 24 4 → availOf (pageState s1 (pCollective d)) = .go →
      (List.range 16).find? (fun k => (slook s1.xfer.plans (d * 16 + k)).isNone) = some slot →
      readRange c (pCollective d) (bytesAt c.raw 16 8 + 64) (32 * n) s1 = .ok (x, false) s2 →
      readRange c (pCollective d) (bytesAt hd 16 8) (2 * (nfld (bytesAt hd 4 4) 11 0 + 1)) s2 = .ok (y, false) s3 →
      planBad s3 c hd ((List.range n).map fun i => stepOf ((x.drop (32 * i)).take 32)) y (pCollective d) = none →
      answers (.collective ring seq) s fun t => slook t.xfer.plans (d * 16 + slot)
        = some (planOf c hd (((List.range n).map fun i => stepOf ((x.drop (32 * i)).take 32)).map fun e => e.1) y) ∧ t.mem = s3.mem

/-- The best command's next task goes to the tiles placed; claims, promotions, spills and restores of residency follow R516 to R520 (11_submission.md R511, R513, R515 to R520). -/
def Obligations.TasksAreIssuedClaimedAndSpilled : Prop :=
  (∀ (s s1 : State) (c : Cmd) (rest : List Cmd) (aff : Option Nat) (miss : Bool) (lts : List Nat), dispRuns s = true → issuable s = c :: rest →
      affinity s c c.nextTask = (aff, miss, s1) → placeTiles s1 c aff = some lts →
      exec .taskIssue s = .next (issueTasks c lts (if miss then satInc (pDsp s1) 0x114 1 s1 else s1)))
  ∧ (∀ (s : State) (c : Cmd) (lt m b : Nat) (mates : List Nat), ∃ k, (tileSt (issueOn c lt m b mates s) (lt / 12) ((tileUnit s lt).getD 0)).issued = some k
      ∧ k.index = c.nextTask + m ∧ k.pasid = c.pasid ∧ k.ring = c.ring ∧ k.no = c.no ∧ k.member = m ∧ k.slice = c.slice
      ∧ (tileSt (issueOn c lt m b mates s) (lt / 12) ((tileUnit s lt).getD 0)).task = (tileSt s (lt / 12) ((tileUnit s lt).getD 0)).task
      ∧ slook (issueOn c lt m b mates s).disp.resid lt = none)
  ∧ (∀ (s : State) (ring seq : Nat) (k : Cmd), s.disp.cmds.find? (fun c => c.ring == ring && c.seq == seq && c.unissued) = some k → dispRuns s = true →
      slicePlays s pDispatch k.slice = true → placeTiles s k none = none → claimSet s k ≠ [] → answers (.claim ring seq) s fun t =>
      (∀ lt ∈ claimSet s k, ∃ cl, slook t.disp.claims lt = some cl ∧ cl.ring = ring ∧ cl.no = k.no)
        ∧ (∀ lt, lt ∉ claimSet s k → slook t.disp.claims lt = slook s.disp.claims lt) ∧ t.mem = s.mem ∧ t.tiles = s.tiles)
  ∧ (∀ (s : State) (ring seq : Nat) (c : Cmd), s.disp.cmds.find? (fun c => c.ring == ring && c.seq == seq && c.unissued) = some c →
      c.promo < min 4 (max c.promo (c.ageNow s.now / (ageMs s * 1000000))) → answers (.promotion ring seq) s fun t =>
      ∀ x ∈ t.disp.cmds, x.ring = ring → x.no = c.no → x.promo = min 4 (max c.promo (c.ageNow s.now / (ageMs s * 1000000))))
  ∧ (∀ (s : State) (lt pa n : Nat) (x : Resid), slook s.disp.resid lt = some x → s.inHold = false → spillDue s lt x = true → saveVa s x.pasid lt = some (pa, n) →
      answers (.spill lt) s fun t => slook t.disp.resid lt = none ∧ (x.pasid, lt, x.pin) ∈ t.disp.saved ∧ t.mem = s.mem)
  ∧ ∀ (s : State) (d u pa n : Nat) (k : Task) (e : Nat × Nat × Nat), (tileSt s d u).issued = some k → k.restore = true → (tileSt s d u).task = none → s.inHold = false →
      s.disp.saved.find? (fun e => e.1 == k.pasid && e.2.1 == 12 * d + logicalTile s d u) = some e → saveVa s k.pasid (12 * d + logicalTile s d u) = some (pa, n) →
      answers (.restore d u) s fun t => (tileSt t d u).issued = some { k with restore := false, pinned := true }
        ∧ (tileSt t d u).scratch = (cellsFrom 0 (cohBytes s true pa (e.2.2 * 65536))).filter (fun c => decide (c.2 ≠ 0)) ∧ e ∉ t.disp.saved

/-- The oldest command's record, once complete, goes to the completion queue; the tail advances and the command is gone (11_submission.md R481, R504 to R507, R532, 15_recovery.md R686). -/
def Obligations.CompletionRecordsAreWritten : Prop :=
  (∀ (s s1 : State) (ring : Nat) (c : Cmd) (rest : List Cmd) (ps : List Piece), ringCmds s ring = c :: rest → dispRuns s = true → c.status.isSome = true →
      (ringSt s ring).stuck = false → xlateRange c.ctx pDispatch (ringSt s ring).ent.pasid
        ((ringSt s ring).ent.cqVa + 32 * ((ringSt s ring).cqTail % 2 ^ (ringSt s ring).ent.cqLog2)) 32 .write s = .ok ps s1 →
      exec (.completionRecord ring) s = .next (recordWritten c (writePieces c.slice ps (recordBytes s1 c (ringSt s ring).cqTail)
        (tickFree (if c.nextTask = 0 then 1 else 0) (dropHeld pDispatch ring s1)))))
  ∧ (∀ (s : State) (c : Cmd) (i : Nat), (recordBytes s c i).length = 32 ∧ bytesAt (recordBytes s c i) 0 4 = c.seq % 2 ^ 32
      ∧ bytesAt (recordBytes s c i) 4 1 = (c.status.getD (0, 0)).1 % 256 ∧ bytesAt (recordBytes s c i) 8 8 = c.startTs % 2 ^ 64
      ∧ bytesAt (recordBytes s c i) 16 8 = c.endTs % 2 ^ 64)
  ∧ (∀ (s s1 : State) (ring va : Nat) (c : Cmd) (rest : List Cmd), ringCmds s ring = c :: rest → dispRuns s = true → c.status.isSome = true →
      (ringSt s ring).stuck = false → xlateRange c.ctx pDispatch (ringSt s ring).ent.pasid
        ((ringSt s ring).ent.cqVa + 32 * ((ringSt s ring).cqTail % 2 ^ (ringSt s ring).ent.cqLog2)) 32 .write s = .migrating va s1 →
      exec (.completionRecord ring) s = .next (holdStream pDispatch ring (ringSt s ring).ent.pasid va s1))
  ∧ ∀ (s : State) (ring : Nat), (ringCmds s ring = [] ∨ ∀ c ∈ ringCmds s ring, c.status = none) → exec (.completionRecord ring) s = .next s

/-- A good data flit in order is queued and acknowledged; others are NAKed; a peer in HOLD stops data; its resumption and a retrain request retrain the port (12_birore_links.md R541, R543, R547, R548, R551, R554, R569, R572 to R574). -/
def Obligations.FlitsAndHoldOnALink : Prop :=
  (∀ (s : State) (k : Nat) (f : Flit), portUp s k = true → s.inHold = false → f.idle = false → f.fseq = (portSt s k).rxNext →
      ∃ u : State, u = setInQueue (k * 4 + f.vc % 4) (inQueue s (k * 4 + f.vc % 4) ++ [f]) (setPort k { portSt s k with rxNext := ((portSt s k).rxNext + 1) % 4096, rxAny := true, nak := false } s)
        ∧ exec (.dataFlit k f true) s = .next (pump (if f.last then addProg (pPort k) 5 1 u else u))
        ∧ inQueue u (k * 4 + f.vc % 4) = inQueue s (k * 4 + f.vc % 4) ++ [f] ∧ (portSt u k).rxNext = ((portSt s k).rxNext + 1) % 4096)
  ∧ (∀ (s : State) (k : Nat) (f : Flit), portUp s k = true → s.inHold = false →
      exec (.dataFlit k f false) s = .next (satInc (pPort k) 0x12C 1 (setPort k { portSt s k with nak := true } s))
      ∧ (f.idle = false → f.fseq ≠ (portSt s k).rxNext → exec (.dataFlit k f true) s = .next (setPort k { portSt s k with nak := true } s)))
  ∧ (∀ (s : State) (k : Nat) (c : CtlFlit), s.inHold = false → portLState s k = 6 → c.hold = false → c.nak = false → c.msgs = [] →
      bitOf (rd s (pPort k) 0x114) 18 = false → exec (.controlFlit k c true) s = .next (pump (takeCredits k c (if c.ackV then takeAck k c.ackSeq s else s))))
  ∧ (∀ (s : State) (k ack i : Nat), (portSt s k).sent.findIdx? (fun f => f.fseq == ack) = some i →
      (portSt (takeAck k ack s) k).sent = (portSt s k).sent.drop (i + 1) ∧ (portSt (takeAck k ack s) k).lastAck = ack)
  ∧ (∀ (s : State) (k : Nat), s.inHold = false → portUp s k = true → portPeerHold s k = false → (portSt s k).sent ≠ [] →
      (portSt s k).ackAt + 2 * fld (rd s (pPort k) 0x118) 15 0 + 1000 ≤ s.now → (portSt s k).replays < 15 →
      exec (.replayTimeout k) s = .next (replaySent k (setPort k { portSt s k with replays := (portSt s k).replays + 1 } s)))
  ∧ (∀ (s : State) (k : Nat), k < 48 → portLState s k = 6 → ∀ c ∈ [Instr.linkHold k, .peerBeacon k], answers c s fun t =>
      portPeerHold t k = true ∧ portLState t k = 6 ∧ t.links = s.links ∧ t.mem = s.mem)
  ∧ (∀ (s : State) (k r : Nat), k < 48 → s.inHold = false → portLState s k = 6 →
      (portPeerHold s k = true → answers (.linkResume k) s fun t => portLState t k = 7 ∧ (portSt t k).retraining = true)
      ∧ answers (.retrainReq k r) s fun t => portLState t k = 7 ∧ (portSt t k).retraining = true)
  ∧ (∀ (s : State) (k : Nat), s.inHold = false → portPeerHold s k = true → exec (.beaconLoss k) s = .next (portDown k 9 s))
  ∧ ∀ (s : State) (k cause : Nat), k < 48 → cause < 16 → portLState (portDown k cause s) k = 8
      ∧ fld (rd (portDown k cause s) (pPort k) 0x110) 13 10 = cause ∧ (portDown k cause s).mem = s.mem

/-- A port steps through detection, tuning, alignment, parameters and credit to UP; a failed step, lost light or LINK_CMD takes it back (12_birore_links.md R543 to R550, R569, R579). -/
def Obligations.LinksTrainAndGoDown : Prop :=
  (∀ (s : State) (k n : Nat), k < 48 → s.inHold = false → portLState s k = 1 → answers (.lightDetect k false n) s fun t =>
      portLState t k = 2 ∧ t = { s with regs := t.regs })
  ∧ (∀ (s : State) (k n : Nat), k < 48 → s.inHold = false → portLState s k = 1 → nbit (portSt s k).cfg 1 = true → (portSt s k).number < n →
      answers (.lightDetect k true n) s fun t => portLState t k = 2 ∧ bitOf (rd t (pPort k) 0x110) 8 = !bitOf (rd s (pPort k) 0x110) 8)
  ∧ (∀ (s : State) (k : Nat) (a b : BitVec 9), k < 48 → s.inHold = false → portLState s k = 2 → answers (.lambdaTuneDone k a b) s fun t =>
      portLState t k = 3 ∧ failedWls t k true = a.toNat ∧ failedWls t k false = b.toNat ∧ t = { s with regs := t.regs })
  ∧ (∀ (s : State) (k : Nat), k < 48 → s.inHold = false → (portLState s k = 3 ∨ portLState s k = 7) → ∀ w ∈ [0, 4, 8], answers (.alignDone k w) s fun t =>
      portLState t k = 4 ∧ (portSt t k).agreedWidth = min w (allowedWidth s k))
  ∧ (∀ (s : State) (k node peer echo : Nat) (v w4 : Bool), k < 48 → s.inHold = false → portLState s k = 4 →
      (paramRefused s k node v peer w4 = none → answers (.param k node v peer w4 echo) s fun t =>
        (portSt t k).gotParam = true ∧ (portSt t k).peerW4 = w4 ∧ rd t (pPort k) 0x114 = BitVec.ofNat 32 (node % 4096 + 0x1000 * (peer % 64) + 0x40000)
          ∧ Out.linkMsg k (.paramAck (nodeId s) (bitOf (rd s (pPort 0) 0x100) 12) k (minW4 s k) echo) ∈ t.out)
      ∧ (paramRefused s k node v peer w4 = some 2 → exec (.param k node v peer w4 echo) s
          = .next (portDown k 2 (wr (pPort k) 0x114 (BitVec.ofNat 32 (node % 4096 + 0x1000 * (peer % 64) + 0x40000)) s))))
  ∧ (∀ (s : State) (k echo m : Nat), k < 48 → s.inHold = false → portLState s k = 4 → nbit (portSt s k).cfg 2 = false →
      (m ≤ 2000 → answers (.paramAck k echo m) s fun t => (portSt t k).gotAck = true
        ∧ rd t (pPort k) 0x118 = BitVec.ofNat 32 (min ((s.now + 2 ^ 32 - echo % 2 ^ 32) % 2 ^ 32) 0xFFFF + 0x10000 * m))
      ∧ (2000 < m → answers (.paramAck k echo m) s fun t => portLState t k = 8 ∧ fld (rd t (pPort k) 0x110) 13 10 = 6))
  ∧ (∀ (s : State) (k : Nat), k < 48 → s.inHold = false → portLState s k = 5 → (portSt s k).agreedWidth < 16 → answers (.creditDone k) s fun t =>
      portLState t k = 6 ∧ portWidth t k = (portSt s k).agreedWidth ∧ portPeerHold t k = false ∧ t.mem = s.mem)
  ∧ (∀ (s : State) (k : Nat), k < 48 → s.inHold = false → (portLState s k = 2 ∨ portLState s k = 3 ∨ portLState s k = 4 ∨ portLState s k = 5 ∨ portLState s k = 7) →
      ((portSt s k).retraining = false → answers (.trainingTimeout k) s fun t => portLState t k = 1 ∧ rd t (pPort k) 0x11C = sat32 ((rd s (pPort k) 0x11C).toNat + 1))
      ∧ ((portSt s k).retraining = true → exec (.trainingTimeout k) s = .next (retrainFailed k s)))
  ∧ (∀ (s : State) (k : Nat), k < 48 → s.inHold = false → (portSt s k).retraining = true →
      ((portSt s k).fails < 2 → answers (.retrainDone k false) s fun t => portLState t k = 7 ∧ (portSt t k).fails = (portSt s k).fails + 1)
      ∧ (2 ≤ (portSt s k).fails → answers (.retrainDone k false) s fun t => portLState t k = 8 ∧ fld (rd t (pPort k) 0x110) 13 10 = 2)
      ∧ (allowedWidth s k = 8 → (portLState s k = 4 ∨ portLState s k = 5 → (portSt s k).agreedWidth = 8) → answers (.retrainDone k true) s fun t => portLState t k = 6 ∧ portWidth t k = 8 ∧ (portSt t k).retraining = false)
      ∧ (allowedWidth s k = 0 → exec (.retrainDone k true) s = .next (portDown k 4 s)))
  ∧ (∀ (s : State) (k : Nat), k < 48 → (portLState s k = 9 → answers (.lossOfLight k) s fun t => (portSt t k).lostLight = true ∧ t.regs = s.regs)
      ∧ (portPeerHold s k = true → portLState s k ≠ 9 → exec (.lossOfLight k) s = .next s)
      ∧ (portLState s k ≠ 0 → portLState s k ≠ 1 → portLState s k ≠ 8 → portLState s k ≠ 9 → portPeerHold s k = false → exec (.lossOfLight k) s = .next (portDown k 1 s)))
  ∧ (∀ (s : State) (k : Nat), k < 48 → s.inHold = false → portLState s k = 8 → (portSt s k).heldDown = false → nbit (portSt s k).cfg 3 = true →
      (portSt s k).downAt + (if (portSt s k).cfg / 16 % 4096 = 0 then 10 else (portSt s k).cfg / 16 % 4096) * 1000000 ≤ s.now →
      answers (.downHoldoff k) s fun t => portLState t k = 1 ∧ (portSt t k).cfg = (rd s (pPort k) 0x104).toNat)
  ∧ ∀ (s : State) (k : Nat), k < 48 → s.inHold = false →
      (portLState s k = 6 → answers (.linkCmdRetrain k) s fun t => portLState t k = 7)
      ∧ (portLState s k = 8 → answers (.linkCmdRetrain k) s fun t => portLState t k = 1)
      ∧ (portLState s k ≠ 0 → portLState s k ≠ 8 → answers (.linkCmdDown k) s fun t =>
          portLState t k = 8 ∧ fld (rd t (pPort k) 0x110) 13 10 = 0x0A ∧ (portSt t k).heldDown = true)

/-- Lanes move to spares by agreement; inner paths and lasers fail over; routes, the node number and credits are written where the port allows (01_organisation.md R29, R30, R40 to R42, 12_birore_links.md R549, R550, R565, R579, R581 to R583). -/
def Obligations.WavelengthsPathsAndRoutes : Prop :=
  (∀ (s : State) (k lane wl a : Nat) (dir : Bool), s.inHold = false → portLState s k = 6 → answers (.lambdaReq k lane wl a dir) s fun t =>
      (portSt t k).subst = some { lane := lane, wl := wl, atFseq := a, tx := dir, agreed := true } ∧ Out.linkMsg k (.lambdaAck lane wl a dir) ∈ t.out ∧ t.regs = s.regs)
  ∧ (∀ (s : State) (k lane wl a : Nat) (dir ag : Bool), (portSt s k).subst = some { lane := lane, wl := wl, atFseq := a, tx := !dir, agreed := ag } →
      answers (.lambdaAck k lane wl a dir) s fun t => (portSt t k).subst = some { lane := lane, wl := wl, atFseq := a, tx := !dir, agreed := true } ∧ t.regs = s.regs)
  ∧ (∀ (s : State) (k lane wl a : Nat) (tx : Bool), k < 48 → lane < 8 → wl < 9 → s.inHold = false → portLState s k = 6 → wearFull s = false →
      (portSt s k).subst = some { lane := lane, wl := wl, atFseq := a, tx := tx, agreed := true } → answers (.lambdaSwitch k) s fun t =>
      laneWl t k tx lane = wl ∧ (portSt t k).subst = none ∧ t.nor.wear = s.nor.wear + 1 ∧ bitOf (rd t (pPort k) 0x10) 3 = true)
  ∧ (∀ (s : State) (k wl e sy hr : Nat), wl < 9 → s.inHold = false → portLState s k = 6 → e = 0 → fld (rd s (pOptics k) 0x10C) 15 8 ≤ hr →
      exec (.serMeasure k wl e sy hr) s = .next (wr (pOptics k) (0x110 + 4 * wl) 0 s))
  ∧ (∀ (s : State) (k wl sy hr : Nat), wl < 9 → s.inHold = false → portLState s k = 6 → hr < fld (rd s (pOptics k) 0x10C) 15 8 →
      exec (.serMeasure k wl 0 sy hr) s = .next (wlFails k false wl (wr (pOptics k) (0x110 + 4 * wl) 0 s)))
  ∧ (∀ (s : State) (k wl : Nat) (rx : Bool), k < 48 → wl < 9 → exec (.lambdaCmdFail k wl rx) s = .next (wlFails k (!rx) wl s)
      ∧ answers (.lambdaCmdClear k wl rx) s fun t => nbit (failedWls t k (!rx)) wl = false ∧ t = { s with regs := t.regs })
  ∧ (∀ (s : State) (a b wl : Nat), a < 9 → b < 9 → a ≠ b → wl < 18 → (pathSt s a b).failed.contains wl = false → answers (.innerWavelengthFail a b wl) s fun t =>
      (pathSt t a b).failed = (pathSt s a b).failed ++ [wl] ∧ ((pathSt s a b).failed.length < 2 → wearFull s = false → t.nor.wear = s.nor.wear + 1) ∧ t.mem = s.mem)
  ∧ (∀ (s : State) (a b r : Nat), a < 9 → b < 9 → a ≠ b → r < 8 → r ≠ a → r ≠ b → (pathSt s a b).down = false → 18 ≤ (pathSt s a b).failed.length →
      answers (.innerPathDown a b r) s fun t => (pathSt t a b).down = true ∧ (pathSt t a b).relay = r ∧ t.mem = s.mem)
  ∧ (∀ (s : State) (d g wl : Nat), d < 9 → wl < 9 → g < 3 → (d ≠ 8 ∨ g ≠ 2) → s.org.lasersFailed.contains (d * 32 + g * 9 + wl) = false →
      answers (.laserFail d g wl) s fun t => (d * 32 + g * 9 + wl) ∈ t.org.lasersFailed)
  ∧ (∀ (s : State) (k : Nat) (w : DWord), k < 48 → answers (.rtEntryCommit k 0x108 w true) s fun t =>
      (∀ q < 48, (q = k ∨ bitOf (rd s (pRoute k) 0x104) 0 = true) → routeEntry t q (fld (rd s (pRoute k) 0x100) 11 0) = w.toNat % 2 ^ 45)
        ∧ (bitOf (rd s (pRoute k) 0x104) 0 = false → ∀ q n, q ≠ k → n < 4096 → routeEntry t q n = routeEntry s q n))
  ∧ (∀ (s : State) (k : Nat) (w : Word), k < 48 → (∀ q < 48, portLState s q = 0) → answers (.nodeIdWrite k w) s fun t =>
      (∀ q < 48, rd t (pPort q) 0x100 = w &&& 0x1FFF) ∧ t = { s with regs := t.regs })
  ∧ (∀ (s : State) (k : Nat) (w : Word), k < 48 → (∃ q < 48, portLState s q ≠ 0) → exec (.nodeIdWrite k w) s = .next (event (pPort k) 8 s))
  ∧ (∀ (s : State) (k : Nat) (w : Word), k < 48 → (portLState s k = 0 ∨ portLState s k = 8) → answers (.crCfgWrite k w) s fun t => rd t (pCredit k) 0x100 = w &&& 0x7FF)
  ∧ ∀ (s : State) (k : Nat) (w : Word), k < 48 → portLState s k ≠ 0 → portLState s k ≠ 8 → exec (.crCfgWrite k w) s = .next (event (pPort k) 8 s)

/-- A transfer engine takes the oldest packet of each type; a chunk sent takes the flow's next CSEQ; counted and answered chunks leave it (13_fabric.md R588, R591, R593 to R597, R599 to R602, R607, R620, R625). -/
def Obligations.PacketsReachTheirHandlers : Prop :=
  (∀ (s s1 : State) (d : Nat) (p : Packet) (e : Instr × Nat × (Packet → XHead → State → State)),
      e ∈ [(Instr.putData d, 0x01, takeData 1 d), (.signalPacket d, 0x02, takeData 2 d), (.getReq d, 0x03, takeData 3 d), (.cancel d, 0x04, cancelPkt d),
        (.getData d, 0x10, getDataPkt d s), (.transferAck d, 0x11, ackPkt), (.busy d, 0x12, busyPkt), (.refuse d, 0x13, refusePkt),
        (.held d, 0x14, fun p h t => heldPkt { p with src := h.value % 4096 } h t), (.unreach d, 0x15, fun _ h t => unreachPkt h t),
        (.getFail d, 0x16, getFailPkt), (.pacePing d, 0x17, fun _ _ t => t)] → s.inHold = false → takePkt d e.2.1 s = some (p, s1) →
      exec e.1 s = .next (pump (e.2.2 p (headOf p.payload) (notePace p.src (headOf p.payload).pace s1))))
  ∧ (∀ (s : State) (d n : Nat) (m : Msg), d < 8 → n < 8 → s.inHold = false → engState s d n = .active → engineNext s d n = some m →
      ∃ u : State, exec (.chunkSend d n) s = .next (pump (if m.isFlow then flowChunk m u else localStep m n u))
        ∧ u.mem = s.mem ∧ u.felt = s.felt ∧ u.xfer.msgs = s.xfer.msgs ∧ u.xfer.tx = s.xfer.tx)
  ∧ (∀ (s : State) (m : Msg), m.kind = .signal → (txFlow s m.queue m.node).cancelled = [] → ∃ c : TxChunk,
      (txFlow (flowChunk m s) m.queue m.node).next = ((txFlow s m.queue m.node).next + 1) % 0x10000
      ∧ (txFlow (flowChunk m s) m.queue m.node).chunks = (txFlow s m.queue m.node).chunks ++ [c] ∧ c.cseq = (txFlow s m.queue m.node).next ∧ c.msg = some m.id)
  ∧ (∀ (s : State) (p : Packet) (h : XHead) (c : TxChunk), findChunk s p.queue p.src h.cseq = some c → c.isGet = false → c.msg = none →
      findChunk (ackPkt p h s) p.queue p.src h.cseq = none ∧ (ackPkt p h s).mem = s.mem)
  ∧ (∀ (s : State) (p : Packet) (h : XHead) (c : TxChunk), findChunk s p.queue p.src h.cseq = some c → c.msg = none →
      ∃ x, findChunk (busyPkt p h s) p.queue p.src h.cseq = some x ∧ x.busy = c.busy + 1 ∧ x.busyAt = some (s.now + min (16000 * (c.busy + 1)) 1000000))
  ∧ (∀ (s : State) (q node cseq at' : Nat) (c : TxChunk), findChunk s q node cseq = some c → c.busyAt = some at' → at' ≤ s.now → s.inHold = false →
      engState s (q % 8) (q / 8) = .active → exec (.busyRetry q node cseq) s = .next (pump (resendChunk q node c s)))
  ∧ (∀ (s : State) (typ d : Nat) (p : Packet) (h : XHead), rxFlow s (rxKey p.src p.queue) = {} → endpointSlice s (pCopyGrp d) h.ep = none →
      ∃ u : State, u.mem = s.mem ∧ u.regs = s.regs ∧ takeData typ d p h s = refuseChunk d (rxKey p.src p.queue) h.cseq 1 0 0 false u)
  ∧ ∀ (s s1 : State) (d sl va : Nat) (p : Packet) (h : XHead), rxFlow s (rxKey p.src p.queue) = {} → endpointSlice s (pCopyGrp d) h.ep = some sl →
      fabJob s (pCopyGrp d) sl = h.job →
      xlateRange { ctxValid := true, pasid := fabPasid s (pCopyGrp d) sl, slice := sl } (rxPage d (rxKey p.src p.queue)) (fabPasid s (pCopyGrp d) sl) h.addr 8 .write
        (setRxFlow (rxKey p.src p.queue) {} s) = .migrating va s1 →
      takeData 2 d p h s = busyChunk d (rxKey p.src p.queue) h.cseq (turnAway (rxKey p.src p.queue) h s1)

/-- REFUSE, UNREACH and GET_FAIL fail a chunk with their status; HELD starts the bound; a flow reset forgets what was received (13_fabric.md R593, R598, R599, R603, R620, R624, R625). -/
def Obligations.TransfersFailAndAreHeld : Prop :=
  (∀ (s : State) (p : Packet) (h : XHead) (c : TxChunk) (m : Msg), findChunk s p.queue p.src h.cseq = some c → chunkMsg s c = some m → m.fail = none →
      (h.value % 4 = 0 → refusePkt p h s = chunkFailed p.queue p.src c m 0x10 4 s) ∧ (h.value % 4 ≠ 0 → refusePkt p h s = chunkFailed p.queue p.src c m 0x40 5 s)
      ∧ (c.isGet = true → getFailPkt p h s = chunkFailed p.queue p.src c m 0x40 7 s))
  ∧ (∀ (s : State) (q node cseq pseq : Nat) (c : TxChunk) (m : Msg), findChunk s q node cseq = some c → chunkMsg s c = some m → m.fail = none → c.isCancel = none →
      ofSending c.pseq pseq = true →
      (c.resend < 3 → unreachTx q node cseq pseq unreachDown s = resendChunk q node c (updChunk q node cseq (fun x => { x with resend := x.resend + 1 }) s))
      ∧ (3 ≤ c.resend → unreachTx q node cseq pseq unreachDown s = chunkFailed q node c m 0x40 7 s)
      ∧ unreachTx q node cseq pseq unreachNoRoute s = chunkFailed q node c m 0x40 6 s ∧ unreachTx q node cseq pseq unreachHops s = chunkFailed q node c m 0x40 6 s)
  ∧ (∀ (s : State) (p : Packet) (h : XHead) (c : TxChunk) (m : Msg) (i : Nat), findChunk s p.queue p.src h.cseq = some c → c.msg = some i → findMsg s i = some m →
      m.heldAt = none → ∃ m', findMsg (heldPkt p h s) i = some m' ∧ m'.heldAt = some s.now)
  ∧ (∀ (s : State) (key k v hp : Nat) (f : Flit) (rest : List Flit), inQueue s key = f :: rest → routeAt s key = some (.out k v hp) → s.inHold = false →
      portPeerHold s k = true → f.first = true → (f.typ ≤ 4 ∨ f.typ = 0x10) →
      s.xfer.heldNotes.contains (f.src * 4096 + f.dst, f.squeue, bytesAt f.payload 12 2) = false → ∃ u : State,
      u = { s with xfer := { s.xfer with heldNotes := (f.src * 4096 + f.dst, f.squeue, bytesAt f.payload 12 2) :: s.xfer.heldNotes } }
      ∧ exec (.heldNotice key) s = .next (pump (injectPkt (inputDie key) none 8 { src := nodeId s, dst := f.src, queue := f.squeue, typ := 0x14, payload := noticeBytes s (bytesAt f.payload 12 2) f.dst } u)))
  ∧ (∀ (s : State) (id at' : Nat) (m : Msg), findMsg s id = some m → m.heldAt = some at' → s.inHold = false → m.holdMs ≠ 0 → at' + m.holdMs * 1000000 ≤ s.now →
      exec (.peerHoldTimeout id) s = .next (pump (endMsg m 0 (0x41, 0x08) s)))
  ∧ (∀ (s : State) (d : Nat), d < 8 → s.inHold = false → matchActive s = true →
      exec (.pacePingTimer d) s = .next (pump ((planPeers s d).foldl (fun t n => answerPkt d d n 0x17 0 0 t) s)))
  ∧ ∀ (s : State) (w : Word), answers (.xeFlowReset w) s fun t => t = { s with xfer := { s.xfer with rx := t.xfer.rx } }
      ∧ (bitOf w 18 = true → t.xfer.rx = [])
      ∧ (bitOf w 18 = false → rxFlow t (rxKey (fld w 11 0) (fld w 17 12)) = {} ∧ ∀ key, key ≠ rxKey (fld w 11 0) (fld w 17 12) → rxFlow t key = rxFlow s key)

/-- A plan's next step is issued in order: a transfer, a wait, a reduction, a copy; lag windows close; the pace word and matching follow (13_fabric.md R606, R610, R613 to R615, R617, R618, R621 to R623, R627). -/
def Obligations.PlansStepAndPeersLag : Prop :=
  (∀ (s : State) (d slot op : Nat) (p : Plan) (x : PlanStep), slot < 16 → nextStep s (d * 16 + slot) op = some (p, x) →
      (op = 0 → exec (.collectiveSend d slot) s = .next (handOver (d * 16 + slot) p x { id := 0, die := 0, ring := 0, no := 0, slice := 0, pasid := 0, kind := .put, src := x.a, dst := x.b, len := x.len } s))
      ∧ (op = 4 → exec (.collectiveSignal d slot) s = .next (handOver (d * 16 + slot) p x { id := 0, die := 0, ring := 0, no := 0, slice := 0, pasid := 0, kind := .signal, dst := x.b, pattern := x.a } s))
      ∧ (op = 1 → exec (.collectiveWait d slot) s = .next (collectiveWait (d * 16 + slot) p x s))
      ∧ (op = 3 → exec (.collectiveCopy d slot) s = .next (collectiveCopy (d * 16 + slot) p x s)))
  ∧ (∀ (s : State) (d slot op : Nat), slot < 16 → nextStep s (d * 16 + slot) op = none →
      ∀ e ∈ [(0, Instr.collectiveSend d slot), (4, .collectiveSignal d slot), (1, .collectiveWait d slot), (3, .collectiveCopy d slot)], e.1 = op → exec e.2 s = .next s)
  ∧ (∀ (s : State) (d slot : Nat) (p : Plan) (x : PlanStep), d < 8 → slot < 16 → planRuns s d = true → slook s.xfer.plans (d * 16 + slot) = some p → p.pend = [] →
      nextStep s (d * 16 + slot) 2 = some (p, x) →
      exec (.collectiveReduce d slot) s = .next (runReduce (d * 16 + slot) (issueStep (d * 16 + slot) s) (p.next, List.range (x.len / 256))))
  ∧ (∀ (s s1 : State) (key : Nat) (p : Plan) (x : PlanStep) (ps : List Piece),
      xlateRange (planCtx s p) (pCollective (key / 16)) (fabPasid s (pCollective (key / 16)) p.slice) (fabCtrVa s (pCollective (key / 16)) p.slice + 16 * x.counter) 8 .read s = .ok ps s1 →
      piecesPoison s1 ps = false → p.waitFrom = none →
      collectiveWait key p x s = (if x.b ≤ leNat (readPieces s1 ps) then planStepDone key p.next none (updPlan key (fun q => { q with waitFrom := none }) (issueStep key (readTouch (some p.slice) ps s1)))
        else updPlan key (fun q => { q with waitFrom := some s.now }) (readTouch (some p.slice) ps s1)))
  ∧ (∀ (s s1 s2 : State) (key : Nat) (p : Plan) (x : PlanStep) (a b : List Piece),
      xlateRange (planCtx s p) (pCollective (key / 16)) p.pasid x.a x.len .read s = .ok a s1 →
      xlateRange (planCtx s p) (pCollective (key / 16)) p.pasid x.b x.len .write s1 = .ok b s2 → piecesPoison s2 a = false →
      collectiveCopy key p x s = planStepDone key p.next none (issueStep key (readTouch (some p.slice) a (writeFor p.ring p.no p.slice b (readPieces s2 a) s2))))
  ∧ (∀ (s : State) (d : Nat), d < 8 → s.inHold = false → (∀ e ∈ s.xfer.plans, e.1 / 16 = d → e.2.waitFrom = none) → answers (.lagWindow d) s fun t =>
      sget (fun _ => []) t.xfer.lag d = (sget (fun _ => []) s.xfer.lag d).map (closeWindow (lagPct s d)))
  ∧ (∀ (pct : Nat) (e : LagEntry), e.win < 1024 → (closeWindow pct e).charged = 0 ∧ ((closeWindow pct e).lagging = true ↔ (e.win % 512 = 511 ∧ pct * 100000 ≤ e.charged * 100)))
  ∧ (∀ (s : State) (m : Option Nat), s.power.up = true → answers (.pacePublish m) s fun t => nbit (rd t pPace 0x100).toNat 9 = s.inHold
      ∧ fld (rd t pPace 0x100) 8 0 = (if s.inHold then 0 else paceField m s % 512) ∧ fld (rd t pPace 0x100) 15 12 = (fld (rd s pPace 0x100) 15 12 + 1) % 16 ∧ t.mem = s.mem)
  ∧ (∀ s : State, s.inHold = false → phase s = 5 → matchActive s = true → bitOf (rd s pPace 0x104) 18 = false → answers .paceMatchEval s fun t =>
      matchActive t = false ∧ t.xfer.causes = [])
  ∧ ∀ (s : State) (e : Nat × LagEntry) (l : List (Nat × LagEntry)), s.inHold = false → phase s = 5 → bitOf (rd s pPace 0x104) 18 = true → paceCauses s = e :: l →
      answers .paceMatchEval s fun t => matchActive t = true ∧ 83 ≤ fld (rd t pPace 0x108) 8 0

/-- COMMIT checks its snapshot and waits for every unit; COMMIT_ACK adopts; DISCARD restores; slices quiesce, reset, leave CONTAINED; MIG_LOAD; FLR (14_slices.md R643 to R649, R651, R656 to R659, R665, R666, R673, 16_power.md R762). -/
def Obligations.CommitsAndSliceDomains : Prop :=
  (∀ s : State, s.prot.phase ≠ .idle → exec .commit s = .next (event pProt 2 s))
  ∧ (∀ (s : State) (dt : Nat) (l : List Binding), s.prot.phase = .idle → commitCheck s (stagedNow s) = (some dt, l) → answers .commit s fun t =>
      t.prot = s.prot ∧ t.committed = s.committed ∧ t.mem = s.mem ∧ t.disp = s.disp ∧ rd t pProt 0x108 = BitVec.ofNat 32 (4 + 8 * dt) ∧ bitOf (rd t pProt 0x10) 1 = true)
  ∧ (∀ (s : State) (l : List Binding), s.prot.phase = .idle → commitCheck s (stagedNow s) = (none, l) → ∃ u : State, exec .commit s = .next (commitFollow u)
      ∧ u = { s with regs := u.regs, prot := { phase := .committing, snapshot := stagedNow s, pbt := s.prot.pbt, pbtNew := l, waiting := ackPages } }
      ∧ fld (rd u pProt 0x108) 1 0 = 2)
  ∧ (∀ s : State, s.prot.phase = .committing → s.prot.waiting ≠ [] → (∀ p ∈ s.prot.waiting, acksAtOnce s p = false) → commitFollow s = s)
  ∧ (∀ s : State, s.prot.phase = .committing → s.prot.waiting = [] → (commitFollow s).committed = s.prot.snapshot ∧ (commitFollow s).prot = { pbt := s.prot.pbtNew }
      ∧ (commitFollow s).mem = s.mem ∧ (commitFollow s).units = s.units)
  ∧ (∀ (s : State) (p : Nat), s.prot.phase = .committing → s.prot.waiting.contains p = true → ackState s p ≠ .hold → mayAck s p = true →
      exec (.commitAck p) s = .next (commitFollow (adopt p s))
      ∧ (pageKind p = some .copyEngine ∨ pageKind p = some .collective → (adopt p s).prot = { s.prot with waiting := setDel p s.prot.waiting } ∧ (adopt p s).committed = s.committed
          ∧ tlbOf (adopt p s) p = (tlbOf s p).filter fun e => !(changedPasids s).contains e.pasid))
  ∧ (∀ (s : State) (p : Nat), (s.prot.phase ≠ .committing ∨ s.prot.waiting.contains p = false ∨ ackState s p = .hold ∨ mayAck s p = false) → exec (.commitAck p) s = .next s)
  ∧ (∀ s : State, answers .discard s fun t => t = { s with regs := t.regs }
      ∧ (∀ key v, (key, v) ∈ s.committed → (∀ e ∈ s.committed, e.1 = key → e.2 = v) → rdKey t key = v)
      ∧ ∀ key, (∀ e ∈ s.committed, e.1 ≠ key) → rdKey t key = if isStg key then regReset key else rdKey s key)
  ∧ (∀ (s : State) (slice : Nat), slice < 64 →
      (answers (.quiesce slice true) s fun t => bitOf (rd t (sliceReg slice 4).1 (sliceReg slice 4).2) 0 = true ∧ t.mem = s.mem ∧ t.tiles = s.tiles
        ∧ ∀ r, sliceOfRing s r = some slice → (ringSt t r).state ≠ .active)
      ∧ (answers (.quiesce slice false) s fun t => bitOf (rd t (sliceReg slice 4).1 (sliceReg slice 4).2) 0 = false ∧ t.disp = s.disp ∧ t.mem = s.mem))
  ∧ (∀ (s : State) (slice : Nat), slice < 64 → exec (.sliceReset slice) s = .next (sliceDomainReset (0x30, 4) slice s)
      ∧ ((∀ r, (ringSt s r).state = .off) → sliceSt (sliceDomainReset (0x30, 4) slice s) slice = { sliceSt s slice with gen := (sliceSt s slice).gen + 1 }
          ∧ (sliceDomainReset (0x30, 4) slice s).mem = s.mem ∧ ∀ r, r < 8192 → ringSt (sliceDomainReset (0x30, 4) slice s) r
            = if sliceOfRing s r = some slice then { ringSt s r with gen := (ringSt s r).gen + 1 } else ringSt s r))
  ∧ (∀ (s : State) (slice : Nat), slice < 64 → (sliceSt s slice).contained = true → answers (.release slice) s fun t =>
      sliceSt t slice = { sliceSt s slice with contained := false } ∧ bitOf (rd t pSlice 0x10) 1 = true ∧ t.mem = s.mem ∧ t.tiles = s.tiles)
  ∧ (∀ (s : State) (ring h tl ch ct : Nat), ring = fld (rd s pSlice 0x180) 12 0 → h = fld (rd s pSlice 0x184) 16 0 → tl = fld (rd s pSlice 0x188) 16 0 →
      ch = fld (rd s pSlice 0x18C) 16 0 → ct = fld (rd s pSlice 0x190) 16 0 →
      ((ringSt s ring).state = .off → idxDiff tl h ≤ 0x10000 → idxDiff ct ch ≤ 0x10000 → answers .migLoad s fun t => t = { s with disp := { s.disp with rings := t.disp.rings } }
        ∧ ringSt t ring = { ringSt s ring with head := h, tail := tl, cqHead := ch, cqTail := ct, expSeq := (rd s pSlice 0x194).toNat } ∧ ∀ r, r ≠ ring → ringSt t r = ringSt s r)
      ∧ ((ringSt s ring).state ≠ .off → exec .migLoad s = .next (event pSlice 3 s)))
  ∧ (∀ (s : State) (fn : Nat) (u : List (Nat × Nat)), 0 < fn → fn < 64 →
      (s.inHold = false → answers (.flr fn u) s fun t => t = flrVf fn s ∧ rdB t fn pDspRings 0x108 = regReset (regKey fn pDspRings 0x108))
      ∧ (s.inHold = true → exec (.flr fn u) s = .next { s with power := { s.power with hold := { s.power.hold with flr := s.power.hold.flr ++ [fn] } } }))
  ∧ ∀ (s : State) (u : List (Nat × Nat)), exec (.flr 0 u) s = .next (deviceResetReq 3 u s)

/-- BAR4, CXL.mem and the boot window; BIRsp; a chiplet's requests, completions and events; a lost chiplet link and lane repair (14_slices.md R641, 16_power.md R759, 17_firmware.md R786, R790, 18_interfaces.md R817 to R819, R821, R826, R828 to R831, R853). -/
def Obligations.HostAndChipletAccess : Prop :=
  (∀ (s : State) (off pa : Nat), s.inHold = false → phase s = 5 → dpaMap s off = some pa → backed s pa = true → inReserved pa = false →
      (∀ len, hostWaits s { fn := some 0, off := off, len := len } pa = false → ∃ u : State, u = { s with regs := u.regs }
        ∧ exec (.bar4Access 0 off len none) s = .next (touch (hostIl s pa) none pa len (emit (.hostRead (some 0) off (cohBytes u (hostIl s pa) pa len) (cohPoisonN u (hostIl s pa) pa len)) u))
        ∧ exec (.cxlMemAccess off len 0 none) s = .next (touch (hostIl s pa) none pa len (emit (.hostRead none off (cohBytes u (hostIl s pa) pa len) (cohPoisonN u (hostIl s pa) pa len)) u)))
      ∧ (∀ len, hostWaits s { fn := none, off := off, len := len } pa = false → answers (.cxlMemAccess off len 1 none) s fun t => ∃ k, slook t.host.lines (pa / 1024) = some k)
      ∧ (∀ bs, hostWaits s { fn := some 0, off := off, write := some bs, len := 0 } pa = false → s.host.lines = [] → ∃ u : State, u = { s with regs := u.regs }
        ∧ exec (.bar4Access 0 off 0 (some bs)) s = .next (cohWrite (hostIl s pa) none pa bs u) ∧ exec (.cxlMemAccess off 0 0 (some bs)) s = .next (cohWrite (hostIl s pa) none pa bs u)))
  ∧ (∀ (s : State) (off len : Nat), s.inHold = false → phase s = 5 → dpaMap s off = none → ∃ u : State, exec (.bar4Access 0 off len none) s = .next (emit (.hostRead (some 0) off (List.replicate len 0xFF) false) u)
      ∧ u.mem = s.mem ∧ u.felt = s.felt)
  ∧ (∀ (s : State) (fn off len : Nat), 0 < fn → fn < 64 → s.inHold = false → phase s = 5 → bitOf (stg s pHostif fn pProt 0x120) 20 = false →
      ∃ u : State, exec (.bar4Access fn off len none) s = .next (emit (.hostRead (some fn) off (List.replicate len 0xFF) false) u) ∧ u.mem = s.mem ∧ u.felt = s.felt)
  ∧ (∀ (s : State) (fn off len : Nat), fn < 64 → s.inHold = true → phase s = 5 → s.power.hold.host.length < 256 → answers (.bar4Access fn off len none) s fun t =>
      t = { s with power := t.power } ∧ t.power.hold.host = s.power.hold.host ++ [{ fn := some fn, off := off, len := len }])
  ∧ (∀ (s : State) (off : Nat) (data : List Byte), phase s ≠ 5 →
      (windowOpen s = true → off + data.length ≤ 0x400000 → answers (.bootWindowWrite off data) s fun t => t = { s with boot := { s.boot with image := t.boot.image } }
        ∧ (∀ i, i < data.length → imageByte t (off + i) = data.getD i 0) ∧ ∀ a, a < off ∨ off + data.length ≤ a → imageByte t a = imageByte s a)
      ∧ (windowOpen s = false → exec (.bootWindowWrite off data) s = .next (satInc pBoot 0x114 1 s)))
  ∧ (∀ (s : State) (line : Nat) (w : BiWait) (rest : List BiWait), takeFirst (fun x : BiWait => x.line == line) s.host.biWait = some (w, rest) →
      exec (.birsp line none) s = .next (giveUp w.seg line 8 { s with host := { s.host with biWait := rest, lines := serase line s.host.lines } }))
  ∧ (∀ (s : State) (line : Nat) (d : Option (List Byte)), (∀ w ∈ s.host.biWait, w.line ≠ line) → exec (.birsp line d) s = .next s)
  ∧ (∀ (s : State) (k pa : Nat) (r : FReq), siteLive s k = true → siteRaw s k = false → s.inHold = false → phase s = 5 →
      (stg64 s (pUcie k) 0 (pUcie k) 0x108 ≤ pa → pa < stg64 s (pUcie k) 0 (pUcie k) 0x108 + stg64 s (pUcie k) 0 (pUcie k) 0x110 → inTier pa = true → backed s pa = true →
        (∃ t, exec (.chipletRequest k pa r) s = .next t) ∧ (r.kind = .rdOnce → exec (.chipletRequest k pa r) s = exec (.rdOnce (homeSeg (pa / 1024 * 1024) (hostIl s pa)) (pa / 1024)
          { r with agent := 9 + k, slice := some (sget (fun _ => 0) s.host.siteSlice k), agen := agentGen s (9 + k) }) s))
      ∧ (¬ (stg64 s (pUcie k) 0 (pUcie k) 0x108 ≤ pa ∧ pa < stg64 s (pUcie k) 0 (pUcie k) 0x108 + stg64 s (pUcie k) 0 (pUcie k) 0x110) → r.kind = .rdOnce →
        ∃ u : State, exec (.chipletRequest k pa r) s = .next (emit (.chipletRefused k pa) u) ∧ u.mem = s.mem ∧ u.felt = s.felt ∧ bitOf (rd u (pUcie k) 0x10) 1 = true))
  ∧ (∀ (s s1 : State) (k tag : Nat) (data : List Byte) (poison : Bool) (r : RawReq), siteLive s k = true → siteRaw s k = true → s.inHold = false → takeRaw s k tag = some (r, s1) →
      exec (.cpl k tag true poison data) s = .next (rawFail r 3 s1) ∧ exec (.csTimeout k tag) s = .next (rawFail r 2 s1)
      ∧ (r.write = true → exec (.cpl k tag false poison data) s = .next (rawWritten r s1)) ∧ (r.write = false → exec (.cpl k tag false poison data) s = .next (rawData r data poison s1))
      ∧ s1 = { s with host := s1.host } ∧ r ∈ s.host.raw ∧ r.site = k ∧ r.tag = tag)
  ∧ (∀ (s : State) (k b : Nat), siteLive s k = true → siteRaw s k = true → s.inHold = false → b < 28 → answers (.evt k b) s fun t =>
      bitOf (rd t (pChiplet k) 0x10) b = true ∧ t.mem = s.mem ∧ t.host = s.host)
  ∧ (∀ (s : State) (k : Nat), siteLive s k = true → s.felt.dead.contains (9 + k) = true → (∀ r ∈ s.host.raw, r.site ≠ k) → answers (.ucieLinkLost k) s fun t =>
      (unitSt t (pUcie k)).state = .faulted ∧ (unitSt t (pChiplet k)).state = .faulted ∧ bitOf (rd t (pUcie k) 0x10) 0 = true ∧ t.mem = s.mem ∧ t.felt = s.felt)
  ∧ (∀ (s : State) (k : Nat) (r : RawReq), siteLive s k = true → s.felt.dead.contains (9 + k) = true → s.host.raw = [r] → r.site = k → ∃ u : State,
      exec (.ucieLinkLost k) s = .next (rawFail r 2 u) ∧ u.host = { s.host with raw := [] } ∧ (unitSt u (pUcie k)).state = .faulted ∧ u.mem = s.mem)
  ∧ ∀ (s : State) (k : Nat), siteLive s k = true →
      (answers (.ucieLaneRepair k true) s fun t => fld (rd t (pUcie k + 2) 0x108) 3 0 = min (fld (rd s (pUcie k + 2) 0x108) 3 0 + 1) 15 ∧ bitOf (rd t (pUcie k) 0x10) 3 = true ∧ t.mem = s.mem)
      ∧ (answers (.ucieLaneRepair k false) s fun t => fld (rd t (pUcie k) 0x104) 15 9 = 32 ∧ bitOf (rd t (pUcie k) 0x10) 3 = true ∧ t.mem = s.mem)

/-- HEARTBEAT counts; three missed samples start a failover or a device fault; FAILOVER ends it; WD_DECLARE; Hatbox images held, released, copied (15_recovery.md R688, R690, R692, R695, R711, R712, R714, R718, 17_firmware.md R792, R797, R799). -/
def Obligations.WatchdogFailoverAndHatbox : Prop :=
  (∀ s : State, s.inHold = false → phase s = 5 → answers .heartbeat s fun t => t = { s with regs := t.regs } ∧ rd t pWatchdog 0x100 = rd s pWatchdog 0x100 + 1)
  ∧ (∀ s : State, s.inHold = false → phase s = 5 →
      (s.recov.hbLast = none → exec .watchdogSample s = .next { s with recov := { s.recov with hbLast := some (rd s pWatchdog 0x100).toNat, misses := 0 } })
      ∧ (∀ x, s.recov.hbLast = some x → x ≠ (rd s pWatchdog 0x100).toNat → answers .watchdogSample s fun t => t = { s with regs := t.regs, recov := { s.recov with hbLast := some (rd s pWatchdog 0x100).toNat, misses := 0 } })
      ∧ (s.recov.hbLast = some (rd s pWatchdog 0x100).toNat → s.recov.misses < 2 → exec .watchdogSample s = .next { s with recov := { s.recov with misses := s.recov.misses + 1 } })
      ∧ (s.recov.hbLast = some (rd s pWatchdog 0x100).toNat → 2 ≤ s.recov.misses → bitOf (rd s pWatchdog 0x104) 0 = true → s.disp.failover = false →
          (hasStandby s = true → s.disp.primary ≤ 1 → (∀ x ∈ s.recov.takeover, x + 10000000 ≤ s.now) → answers .watchdogSample s fun t =>
            t.disp.failover = true ∧ t.disp.primary = 1 - s.disp.primary ∧ (unitSt t (pDsp s)).state = .faulted ∧ bitOf (rd t pWatchdog 0x108) 0 = true ∧ t.mem = s.mem)
          ∧ (hasStandby s = false → answers .watchdogSample s fun t => devFault t = true ∧ t.mem = s.mem)))
  ∧ (∀ s : State, s.disp.failover = true → s.inHold = false → devFault s = false → answers .failover s fun t =>
      t.disp.failover = false ∧ t.recov.takeover = some s.now ∧ (unitSt t (pDsp s)).state = .active ∧ bitOf (rd t pWatchdog 0x108) 0 = false ∧ t.mem = s.mem
      ∧ ∀ r, ringSt t r = { ringSt s r with pend := decide ((ringSt s r).state = .active) && decide (idxDiff (ringSt s r).tail (ringSt s r).head ≠ 0) })
  ∧ (∀ s : State, (devFault s = false → answers .deviceFault s fun t => devFault t = true ∧ t.alertN = true ∧ bitOf (rd t pWatchdog 0x10) 7 = true ∧ t.mem = s.mem ∧ t.units = s.units)
      ∧ (devFault s = true → exec .deviceFault s = .next s))
  ∧ (∀ (s : State) (ring : Nat), ring < 8192 → (ringSt s ring).state ≠ .guilty →
      (∀ c, oldestOpen s ring = some c → ∃ u : State, exec (.wdDeclare ring) s = .next (guiltyEnter ring c.no (0x31, 0x20) u) ∧ u.disp = s.disp ∧ u.mem = s.mem ∧ u.tiles = s.tiles
        ∧ bitOf (rd u pWatchdog 0x10) 2 = true)
      ∧ (oldestOpen s ring = none → exec (.wdDeclare ring) s = .next s))
  ∧ (∀ (s : State) (code : Nat) (rest : List Nat), s.recov.hatReq = code :: rest →
      (hatValid s = false → answers .hatbox s fun t => rd t pWatchdog 0x14C = BitVec.ofNat 32 (1 + 2 * code) ∧ bitOf (rd t pWatchdog 0x10) 3 = true)
      ∧ (hatValid s = true → answers .hatbox s fun t => t = { s with regs := t.regs, recov := { s.recov with hatReq := rest } } ∧ rd t pWatchdog 0x158 = sat32 ((rd s pWatchdog 0x158).toNat + 1)))
  ∧ (∀ s : State, (hatValid s = false → exec .hbReq s = .next { s with recov := { s.recov with hatReq := s.recov.hatReq ++ [6] } })
      ∧ (hatValid s = true → answers .hbReq s fun t => t = { s with regs := t.regs } ∧ rd t pWatchdog 0x158 = sat32 ((rd s pWatchdog 0x158).toNat + 1)))
  ∧ (∀ s : State, hatValid s = true → answers .hbStatClear s fun t => t = { s with regs := t.regs } ∧ rd t pWatchdog 0x14C = 0)
  ∧ ∀ s : State, hatValid s = true → s.inHold = false → 40000 ≤ s.power.vin → bitOf (rd s pWatchdog 0x14C) 4 = false → answers .hatboxNorCopy s fun t =>
      t = { s with regs := t.regs, nor := t.nor, freeCtr := s.freeCtr + 4096 } ∧ bitOf (rd t pWatchdog 0x14C) 4 = true ∧ (∀ i, i < 0x100000 → rdNor t (0xB01000 + i) = cohByte s true (hatHubBase + i))
      ∧ ∀ d i, d < 8 → i < 0x40000 → rdNor t (0x901000 + d * 0x40000 + i) = cohByte s true (rsvdBase d + i)

/-- A recovery ends once every unit is back; a teardown that lasts resets its tile; Pounce tests, counts, fits rows and substitutes tiles (15_recovery.md R684, R694, R697, R700, R704 to R708, R710, 03_tiles.md R120, R154). -/
def Obligations.RecoveryAndPounce : Prop :=
  (∀ (s : State) (l : List Nat), s.recov.running = true → s.recov.faulty = [] → s.inHold = false → devFault s = false → answers (.recoveryEnd l) s fun t =>
      t.recov.running = false ∧ t.recov.order = false ∧ t.recov.segs = [] ∧ t.disp.paused = false ∧ bitOf (rd t pPolicy 0x10) 1 = true)
  ∧ (∀ (s : State) (l : List Nat), s.recov.faulty ≠ [] → exec (.recoveryEnd l) s = .next s)
  ∧ (∀ (s : State) (d u : Nat) (k : Task), (tileSt s d u).task = some k → s.inHold = false → k.aborted = true →
      (k.abortAt + 1000000 ≤ s.now → exec (.teardownTimeout d u) s = .next (unitReset (pTile d u) [] s)) ∧ (s.now < k.abortAt + 1000000 → exec (.teardownTimeout d u) s = .next s))
  ∧ (∀ (s : State) (p : Nat) (ok : Bool), s.inHold = false → devFault s = false → s.recov.faulty.contains p = true → inTile p = false → pageKind p ≠ some .segment → (unitSt s p).state = .faulted →
      exec (.spareTest p ok) s = .next (commitFollow (testReset p ok s)) ∧ (testReset p ok s).recov.faulty.contains p = false
      ∧ (pageKind p = some .copyEngine → (unitSt (testReset p true s) p).state = .active))
  ∧ (∀ (s : State) (d u : Nat), d < 8 → u < 15 → s.recov.faulty.contains (pTile d u) = false → (unitSt s (pTile d u)).state = .spare → pounceRuns s = true → devFault s = false → wearFull s = false →
      (answers (.spareTest (pTile d u) false) s fun t => (unitSt t (pTile d u)).state = .retired ∧ t.nor.wear = s.nor.wear + 1 ∧ t.mem = s.mem) ∧ exec (.spareTest (pTile d u) true) s = .next s)
  ∧ (∀ s : State, pounceRuns s = true → s.disp.failover = false → (unitSt s (pOther s)).state ≠ .retired →
      (answers (.pathTest true [] []) s fun t => (unitSt t (pOther s)).state = .spare ∧ t.mem = s.mem)
      ∧ (answers (.pathTest false [] []) s fun t => (unitSt t (pOther s)).state = .retired ∧ bitOf (rd t pWatchdog 0x108) 1 = true ∧ t.mem = s.mem))
  ∧ (∀ (s : State) (p rate off : Nat), ceThresh p = some off → pounceRuns s = true →
      ((rd s p off).toNat ≤ rate → ∀ left, answers (.ceRateEval p rate left) s fun t => bitOf (rd t p 0x10) 1 = true ∧ t.mem = s.mem
        ∧ (left = true → wearFull s = false → fittedLately s p = false → (pageKind p = some .tstore ∨ pageKind p = some .segment) → p ∈ t.recov.due))
      ∧ (rate < (rd s p off).toNat → ∀ left, exec (.ceRateEval p rate left) s = .next s))
  ∧ (∀ (s : State) (p loc sector : Nat), pageKind p = some .tstore → pounceRuns s = true →
      (answers (.arrayScrub p loc sector true false) s fun t => t = { s with regs := t.regs } ∧ rd t p 0x104 = sat32 ((rd s p 0x104).toNat + 1))
      ∧ (loc < 0x20000 → answers (.arrayScrub p loc sector false true) s fun t => (tileSt t (pageDie p) (pageUnit p)).scratchPoison.contains loc = true
          ∧ rd t p 0x110 = BitVec.ofNat 32 (loc + 0x80000000) ∧ rd t p 0x108 = sat32 ((rd s p 0x108).toNat + 1) ∧ bitOf (rd t p 0x10) 0 = true ∧ t.mem = s.mem))
  ∧ (∀ (s : State) (p loc : Nat) (c : Bool), pounceRuns s = true → s.recov.due.contains p = true → wearFull s = false → answers (.spareRowFit p loc c) s fun t =>
      t.recov.due.contains p = false ∧ slook t.recov.fitted p = some s.now ∧ t.nor.wear = s.nor.wear + 1 ∧ bitOf (rd t pWatchdog 0x10) 4 = true ∧ t.mem = s.mem)
  ∧ ∀ (s : State) (d u : Nat), d < 8 → u < 15 → logicalTile s d u < 12 → s.inHold = false → devFault s = false → pounceRuns s = true → s.disp.leaving.contains (12 * d + logicalTile s d u) = true →
      tileBusy s (12 * d + logicalTile s d u) = false → (slook s.disp.resid (12 * d + logicalTile s d u)).isSome = false → wearFull s = false → s.prot.phase = .idle →
      (∀ v rest, spareTiles s d (u / 5) = v :: rest → v ≠ u → answers (.tileSubstitution d u) s fun t => tileUnit t (12 * d + logicalTile s d u) = some v
        ∧ (unitSt t (pTile d u)).state = .retired ∧ (unitSt t (pTile d v)).state = .active ∧ t.mem = s.mem)
      ∧ (spareTiles s d (u / 5) = [] → answers (.tileSubstitution d u) s fun t => tileUnit t (12 * d + logicalTile s d u) = none ∧ (unitSt t (pTile d u)).state = .retired ∧ t.mem = s.mem)

/-- Each cause enters HOLD: HOLD_STAT, every unit keeps its state; each clearing condition clears its cause; RESUMPTION gives the units their states back (16_power.md R734, R755 to R763, R775, 02_register_pages.md R76). -/
def Obligations.HoldBeginsAndEnds : Prop :=
  (∀ s : State, exec .pwrFailN s = .next (enterHold 0 s))
  ∧ (∀ (s : State) (v : Nat), (v < 39400 → exec (.inputUndervoltage v) s = .next (enterHold 1 (setVin v s))) ∧ (61600 < v → exec (.inputOvervoltage v) s = .next (enterHold 2 (setVin v s))))
  ∧ (∀ (s : State) (d x : Nat) (l : List Nat), d < 11 → s.power.up = true → dieDeg (setSensors d l s) d = some x → deg 110 ≤ x → ∃ u : State, exec (.thermalHold d l) s = .next (enterHold 3 u)
      ∧ u.inHold = s.inHold ∧ u.power = (setSensors d l s).power ∧ u.units = s.units ∧ u.mem = s.mem)
  ∧ (∀ (s : State) (w : Word), s.inHold = false → s.power.up = true → fld w 15 0 ≠ 0 → answers (.holdTest w) s fun t => t.power.hold.testUntil = some (s.now + fld w 15 0 * 1000000)
      ∧ t = { enterHold 4 s with power := t.power } ∧ t.inHold = true)
  ∧ (∀ (s : State) (c : Nat), c < 5 → s.power.up = true → s.inHold = false → (enterHold c s).inHold = true
      ∧ rd (enterHold c s) pBlocker 0x158 = BitVec.ofNat 32 (1 + 2 * 2 ^ c + 64 * min (fld (rd s pBlocker 0x158) 21 6 + 1) 65535)
      ∧ (enterHold c s).power.hold.enteredAt = s.now ∧ (enterHold c s).mem = s.mem ∧ (enterHold c s).tiles = s.tiles ∧ (enterHold c s).felt = s.felt
      ∧ ∀ p ∈ allHeaderPages, isLeaf p = true → ((unitSt s p).state = .off ∨ (unitSt s p).state = .active ∨ (unitSt s p).state = .draining) →
          unitSt (enterHold c s) p = { unitSt s p with state := .hold, held := (unitSt s p).state })
  ∧ (∀ (s : State) (c : Nat), c < 5 → s.power.up = true → s.inHold = true → enterHold c s = { s with regs := (enterHold c s).regs }
      ∧ nbit (holdCauses (enterHold c s)) c = true ∧ ∀ j, j ≠ c → j < 5 → nbit (holdCauses (enterHold c s)) j = nbit (holdCauses s) j)
  ∧ (∀ (s : State) (e : Instr × Nat), e ∈ [(Instr.pwrFailNDeassert, 0), (.holdTestExpire, 4)] → s.inHold = true → (e.2 = 4 → ∃ x, s.power.hold.testUntil = some x ∧ x ≤ s.now) → answers e.1 s fun t =>
      t = { s with regs := t.regs, power := t.power } ∧ nbit (holdCauses t) e.2 = false ∧ ∀ j, j ≠ e.2 → j < 5 → nbit (holdCauses t) j = nbit (holdCauses s) j)
  ∧ (∀ (s : State) (v : Nat), s.inHold = true → 39600 ≤ v → v ≤ 61000 → answers (.inputClear v) s fun t =>
      t = { s with regs := t.regs, power := { s.power with vin := v } } ∧ nbit (holdCauses t) 1 = false ∧ nbit (holdCauses t) 2 = false
      ∧ ∀ j, j ≠ 1 → j ≠ 2 → j < 5 → nbit (holdCauses t) j = nbit (holdCauses s) j)
  ∧ (∀ (s : State) (l : List (List Nat)), s.inHold = true → (∀ x ∈ l, ∀ b ∈ x, degOf b ≤ deg 95) → answers (.thermalClear l) s fun t =>
      t = { s with regs := t.regs, power := t.power } ∧ nbit (holdCauses t) 3 = false ∧ ∀ j, j ≠ 3 → j < 5 → nbit (holdCauses t) j = nbit (holdCauses s) j)
  ∧ (∀ (s : State) (n : Nat), s.inHold = true → n = (if fld (rd s pBlocker 0x174) 7 0 = 0 then 10 else fld (rd s pBlocker 0x174) 7 0) →
      (s.power.hold.enteredAt + n * 1000000000 ≤ s.now → answers .holdLong s fun t => bitOf (rd t pBlocker 0x10) 5 = true ∧ t.mem = s.mem ∧ t.units = s.units)
      ∧ (s.now < s.power.hold.enteredAt + n * 1000000000 → exec .holdLong s = .next s))
  ∧ (∀ s : State, s.inHold = true → holdCauses s = 0 → s.power.up = true → s.power.hold.reset = none → ∃ u : State,
      exec .resumption s = .next (pump (commitFollow (pacePublish none (event pBlocker 4 (setClocks (capSync (dispSync (applyHeld s.power.hold (resumeBoot ((List.range 48).foldl resumePort u))))))))))
      ∧ u.inHold = false ∧ bitOf (rd u pBlocker 0x158) 0 = false ∧ u.mem = s.mem ∧ u.felt = s.felt ∧ u.tiles = s.tiles ∧ (∀ d, d < 8 → (memCtl u d).selfRefresh = false)
      ∧ ∀ p ∈ allHeaderPages, isLeaf p = true → (unitSt s p).state = .hold → (unitSt s p).held ≠ .hold → unitSt u p = { unitSt s p with state := (unitSt s p).held })
  ∧ ∀ s : State, holdCauses s ≠ 0 → exec .resumption s = .next s

/-- What ends the supply writes the armed journal slot and leaves NOR and MMC; the eFuse latches, retries and clears; rail faults; journal erase; NOR_DATA (16_power.md R723 to R726, R728, R731, R734, R764 to R768, R770, 17_firmware.md R800, R810, 18_interfaces.md R834, R841). -/
def Obligations.PowerLossJournalAndRails : Prop :=
  (∀ (s : State) (m : PMeas), (s.power.up = true → m.vin < 36400 → exec (.finalJournal m) s = .next (losePower 0x20 .off m (setVin m.vin s)))
      ∧ (65500 < m.vin → s.power.efuse = .on → ∃ u : State, exec (.efuseOvOpen m) s = .next (losePower 0x80 .off m u) ∧ u = { setVin m.vin s with mmc := u.mmc } ∧ bitOf u.mmc.psStat 4 = true)
      ∧ (∀ d l x, d < 11 → s.power.up = true → dieDeg (setSensors d l s) d = some x → deg 120 ≤ x → ∃ u : State, exec (.thermalTrip d l m) s = .next (losePower 0x100 .off m u)
          ∧ u = { setSensors d l s with mmc := u.mmc }))
  ∧ (∀ (s : State) (m : PMeas) (i : Instr), (i = .efuseLatch m ∨ (i = .fastTrip m ∧ 2000 ≤ m.iinPeak)) → s.power.efuse ≠ .latched → answers i s fun t =>
      t.power.efuse = .latched ∧ t.power.up = false ∧ t.alertN = true ∧ bitOf t.mmc.psStat 0 = true ∧ bitOf t.mmc.psStat 5 = true ∧ t.pending = s.pending)
  ∧ (∀ (s : State) (c : Nat) (e : EFuse) (m : PMeas), s.power.up = true →
      (losePower c e m s).power.up = false ∧ (losePower c e m s).power.efuse = e ∧ (losePower c e m s).mem = [] ∧ (losePower c e m s).regs = [] ∧ (losePower c e m s).units = []
      ∧ (losePower c e m s).pending = s.pending ∧ (losePower c e m s).inHold = false ∧ (journalRecord c m s).length = 3072
      ∧ (armed s = true → (losePower c e m s).nor.slots = s.nor.slots.set (freeSlot s) { valid := true, seq := nextJournalSeq s, boot := s.nor.boots, erased := false }
          ∧ ∀ i, i < 3072 → rdNor (losePower c e m s) (0x20000 + 0x1000 * freeSlot s + i) = (journalRecord c m s).getD i 0)
      ∧ (armed s = false → (losePower c e m s).nor = { s.nor with erasing := none }))
  ∧ (∀ s : State, s.power.efuse = .latched → (s.power.retries < 3 → exec .efuseRetry s = .next { s with power := { s.power with efuse := .off, retries := s.power.retries + 1 } })
      ∧ (3 ≤ s.power.retries → exec .efuseRetry s = .next s) ∧ exec .efuseLatchClear s = .next { s with power := { s.power with efuse := .off, retries := 0 } })
  ∧ (∀ s : State, answers .reversePolarity s fun t => t = { s with mmc := t.mmc } ∧ t.mmc.psStat = s.mmc.psStat ||| 8)
  ∧ (∀ (s : State) (d r : Nat), s.power.up = true → d < 8 → answers (.senseOpen d r) s fun t => bitOf (rd t (pPwrtherm d) 0x118) (min r 2) = true ∧ bitOf (rd t (pPwrtherm d) 0x10) 2 = true
      ∧ bitOf (rd t pBlocker 0x10) 8 = true ∧ bitOf t.mmc.psStat 6 = true ∧ t.mem = s.mem)
  ∧ (∀ (s : State) (d pkg : Nat), s.power.up = true → d < 8 →
      (pkg < 2 → ∃ u : State, exec (.railShort d (.lpddr pkg)) s = .next (unitFault (pLpddrc d) 0x20 5 u) ∧ (memCtl u d).present.getD pkg false = false ∧ bitOf (rd u (pPwrtherm d) 0x118) 3 = true ∧ u.mem = s.mem)
      ∧ (∃ u : State, exec (.railShort d .stack) s = .next (unitFault (pSdramc d) 0x20 5 u) ∧ (memCtl u d).nearShort = true ∧ bitOf (rd u (pPwrtherm d) 0x118) 4 = true ∧ u.mem = s.mem)
      ∧ (answers (.railShort d .core) s fun t => devFault t = true) ∧ (answers (.vdiff d) s fun t => devFault t = true))
  ∧ (∀ (s : State) (d : Nat), s.power.up = true → (d = 9 ∨ d = 10) → s.felt.dead.contains d = true → answers (.railShort d .site) s fun t => (unitSt t (pageOf d 1 0)).state = .faulted ∧ t.mem = s.mem)
  ∧ (∀ (s : State) (i : Nat), s.nor.erasing = some i →
      (answers (.journalEraseDone true) s fun t => t.nor.erasing = none ∧ t.nor.slots = s.nor.slots.set i {} ∧ bitOf (rd t pJournal 0x100) 3 = true ∧ bitOf (rd t pJournal 0x10) 0 = true
        ∧ (∀ a, 0x20000 + 0x1000 * i ≤ a → a < 0x21000 + 0x1000 * i → rdNor t a = 0xFF) ∧ ∀ a, (a < 0x20000 + 0x1000 * i ∨ 0x21000 + 0x1000 * i ≤ a) → rdNor t a = rdNor s a)
      ∧ (answers (.journalEraseDone false) s fun t => t.nor = { s.nor with erasing := none } ∧ bitOf (rd t pJournal 0x10) 2 = true ∧ t.mem = s.mem))
  ∧ ∀ (s : State) (req : Nat), (req = 0 ∨ 64 ≤ req) →
      (s.nor.erasing = none → ∃ u : State, exec (.norDataRead req) s = .next (emit (.readData req (pJournal * 0x1000 + 0x114) (leNat (rdNorN s (4 * fld (rd s pJournal 0x110) 25 2) 4))) u)
        ∧ u = { s with regs := u.regs } ∧ (bitOf (rd s pJournal 0x110) 31 = true → fld (rd u pJournal 0x110) 25 2 = (fld (rd s pJournal 0x110) 25 2 + 1) % 0x1000000)
        ∧ (bitOf (rd s pJournal 0x110) 31 = false → rd u pJournal 0x110 = rd s pJournal 0x110))
      ∧ (s.nor.erasing ≠ none → ∃ u : State, exec (.norDataRead req) s = .next (emit (.readData req (pJournal * 0x1000 + 0x114) 0xFFFFFFFF) u) ∧ bitOf (rd u pJournal 0x10) 1 = true ∧ u.nor = s.nor)

/-- Blocker: temperatures, clamp, gradient, periods, droop, caps, phase models and energy; each die's clock is the least of its bounds (16_power.md R732 to R735, R739, R740, R742 to R744, R748, R752, R753, R775). -/
def Obligations.BlockerClocksCapsAndEnergy : Prop :=
  (∀ s : State, s.inHold = false → s.power.up = true → phase s = 5 → ∀ d, d < 8 → tclkN (setClocks s) d = (dieClock s d).2 % 2048
      ∧ ((dieB s d).clamp = true → (dieClock s d).2 ≤ max 332 ((leastBound (boundList s d (dieTarget s d).1)).2 / 2)))
  ∧ (∀ (s : State) (d x : Nat) (l : List Nat), d < 8 → s.power.up = true → dieDeg (setSensors d l s) d = some x →
      (deg 105 ≤ x → (dieB s d).clamp = false → ∃ u : State, exec (.clamp105 d l) s = .next (setClocks u) ∧ (dieB u d).clamp = true ∧ u.mem = s.mem
        ∧ rd u (pPwrtherm d) 0x12C = sat32 ((rd s (pPwrtherm d) 0x12C).toNat + 1) ∧ bitOf (rd u (pPwrtherm d) 0x10) 0 = true)
      ∧ (x ≤ deg 102 → (dieB s d).clamp = true → ∃ u : State, exec (.clamp105 d l) s = .next (setClocks u) ∧ (dieB u d).clamp = false ∧ u = { s with power := u.power }))
  ∧ (∀ (s s1 : State) (l : List (List Nat)), s1 = { s with power := { s.power with temps := (List.range 11).map fun i => l.getD i [] } } → s.power.up = true →
      (s.inHold = true → exec (.gradientCheck l) s = .next s1)
      ∧ (s.inHold = false → phase s = 5 → ∃ u : State, exec (.gradientCheck l) s = .next (setClocks (gradGate u)) ∧ u.power.temps = s1.power.temps ∧ u.mem = s.mem
        ∧ ∀ d, gradWarn s1 < spread s1 → gradDie s1 = some d → msSince s1 (dieB s1 d).gradAt = true →
            (dieB u d).grad = max 332 ((dieB s d).grad - 32) ∧ (dieB u d).gradAt = some s.now ∧ bitOf (rd u (pPwrtherm d) 0x10) 1 = true))
  ∧ (∀ (s : State) (m : BlkMeas), s.inHold = false → s.power.up = true → phase s = 5 → answers (.blockerPeriod m) s fun t =>
      rd t pBlocker 0x110 = BitVec.ofNat 32 (m.pin % 65536) ∧ rd t pBlocker 0x118 = BitVec.ofNat 32 (m.iin % 4096) ∧ t.power.vin = m.vin ∧ t.power.shares.length = 11 ∧ t.mem = s.mem
      ∧ ∀ d, d < 8 → m.hot.contains d = true → (dieB t d).memHot = max 332 ((dieB s d).memHot - 32))
  ∧ (∀ (s : State) (d mv c : Nat), d < 8 → s.inHold = false → s.power.up = true → bitOf (rd s (pPwrtherm d + 1) 0x100) 9 = true →
      mv + (if fld (rd s (pPwrtherm d + 1) 0x100) 7 0 = 0 then 40 else fld (rd s (pPwrtherm d + 1) 0x100) 7 0) ≤ fld (rd s (pPwrtherm d) 0x104) 9 0 → answers (.droop d mv c) s fun t =>
      t = { s with regs := t.regs } ∧ rd t (pPwrtherm d + 1) 0x104 = sat32 ((rd s (pPwrtherm d + 1) 0x104).toNat + 1) ∧ rd64 t (pPwrtherm d + 1) 0x108 = (rd64 s (pPwrtherm d + 1) 0x108 + c) % 2 ^ 64
      ∧ rd t (pPwrtherm d + 1) 0x110 = BitVec.ofNat 32 (min (fld (rd s (pPwrtherm d + 1) 0x110) 9 0) mv))
  ∧ (∀ (s : State) (on : Bool), s.power.up = true → s.power.throttle ≠ on → ∃ u : State, exec (.throttleN on) s = .next (setClocks (capSync u)) ∧ u.power = { s.power with throttle := on }
      ∧ bitOf (rd u pBlocker 0x170) 0 = on ∧ bitOf (rd u pBlocker 0x10) 1 = true ∧ u.mem = s.mem ∧ (on = true → (capOf u).1 ≤ 1200))
  ∧ (∀ s : State, s.power.throttle = true → bitOf (rd s pBlocker 0x170) 1 = false → ∃ u : State, exec .throttleStuck s = .next (capSync u) ∧ u.power = s.power
      ∧ bitOf (rd u pBlocker 0x170) 1 = true ∧ bitOf (rd u pBlocker 0x10) 2 = true ∧ u.mem = s.mem)
  ∧ (∀ s : State, s.inHold = false → s.power.up = true → fld (rd (capSync s) pBlocker 0x10C) 12 0 = (capOf s).1 % 8192 ∧ (capSync s).power = s.power ∧ (capSync s).mem = s.mem)
  ∧ (∀ (s : State) (w : Word), (1200 ≤ fld w 12 0 → fld w 12 0 ≤ 4600 → exec (.blkCapWrite w) s = .next (setClocks (capSync (wr pBlocker 0x100 (BitVec.ofNat 32 (fld w 12 0)) s))))
      ∧ (fld w 12 0 < 1200 ∨ 4600 < fld w 12 0 → answers (.blkCapWrite w) s fun t => bitOf (rd t pBlocker 0x10) 7 = true ∧ rd t pBlocker 0x100 = rd s pBlocker 0x100 ∧ t.power = s.power))
  ∧ (∀ (s : State) (sl tag p n : Nat), sl < 64 → tag < 256 → s.inHold = false → phase s = 5 → answers (.phaseModelUpdate sl tag p n) s fun t =>
      t = { s with freeCtr := s.freeCtr + 1, power := { s.power with models := t.power.models } } ∧ (phaseModel t sl tag).samples = min 127 ((phaseModel s sl tag).samples + 1)
      ∧ (∃ r ≤ 15, (phaseModel t sl tag).pnom = min 65535 ((15 * (phaseModel s sl tag).pnom + p + r) / 16))
      ∧ (∃ r ≤ 15, (phaseModel t sl tag).sens = min 256 ((15 * (phaseModel s sl tag).sens + n + r) / 16))
      ∧ ∀ a b, b < 256 → (a ≠ sl ∨ b ≠ tag) → phaseModel t a b = phaseModel s a b)
  ∧ ∀ (s : State) (total own ring no e : Nat) (dies : List Nat) (c : Cmd), s.power.up = true → s.inHold = false → findCmd s ring no = some c → c.status = none → 0 < e → own + e ≤ total →
      answers (.energyInterval total own [(ring, no, e)] dies) s fun t => rd64 t pBlocker 0x120 = (rd64 s pBlocker 0x120 + (s.power.moduleFrac + total) / 1000000) % 2 ^ 64
        ∧ t.power.moduleFrac = (s.power.moduleFrac + total) % 1000000 ∧ t.power.uncharged = (s.power.uncharged + own) % 1000000 ∧ t.mem = s.mem
        ∧ ∃ x, findCmd t ring no = some x ∧ x.energy = c.energy + (c.frac + (total - own)) / 1000000 ∧ x.frac = (c.frac + (total - own)) % 1000000

/-- Power-on, PERST_N and device reset; the ROM; discovery; link training; image check; Holog's START; what each leaves in BOOT_STAT (15_recovery.md R715, R716, 16_power.md R722, R762, 17_firmware.md R778 to R784, R788 to R794, R798, R799, 18_interfaces.md R811, R812, R827). -/
def Obligations.ResetBootAndHostLink : Prop :=
  (∀ (s : State) (x : Part) (v : Nat), (s.power.up = false → s.power.efuse = .off → 40000 ≤ v → v ≤ 60000 → ∃ u : State, exec (.powerOn x v) s = .next (romRun u)
        ∧ u.power = { s.power with efuse := .on, up := true, vin := v, retries := 0 } ∧ u.boot = { s.boot with part := x, fresh := true } ∧ rd u pBoot 0x164 = 0 ∧ u.mem = s.mem)
      ∧ (s.power.up = true → exec (.powerOn x v) s = .next s))
  ∧ (∀ s : State, (∀ c d, romBreach s.boot.part = some (c, d) → rd (romRun s) pBoot 0x100 = BitVec.ofNat 32 (6 + 0x100 * (c % 256) + 0x10000 * (d % 16)) ∧ bitOf (rd (romRun s) pBoot 0x10) 1 = true)
      ∧ (romBreach s.boot.part = none → (phase (romRun s) = 1 ∨ phase (romRun s) = 2) ∧ (romRun s).nor.boots = s.nor.boots + 1 ∧ rd (romRun s) pBoot 0x160 = BitVec.ofNat 32 (s.nor.boots + 1)))
  ∧ (∀ (s : State) (l : List (Nat × Nat)), s.power.up = true → s.inHold = false → exec (.deviceReset l) s = .next (deviceReset (if devFault s then 4 else 2) l s)
      ∧ exec (.perstN l) s = .next (deviceReset 1 l { s with boot := { s.boot with perst := true } }))
  ∧ (∀ (s : State) (l : List (Nat × Nat)), s.power.up = true → s.inHold = true → (answers (.deviceReset l) s fun t => t = { s with power := t.power } ∧ t.power.hold.reset.isSome = true)
      ∧ (answers (.perstN l) s fun t => t.boot.perst = true ∧ t.power.hold.reset.isSome = true ∧ bitOf (rd t pHostif 0x100) 13 = false ∧ t.mem = s.mem))
  ∧ (∀ (s : State) (c : Nat) (l : List (Nat × Nat)), (deviceReset c l s).disp.cmds = [] ∧ (deviceReset c l s).tiles = {} ∧ (deviceReset c l s).felt = {} ∧ (deviceReset c l s).xfer = {}
      ∧ (deviceReset c l s).prot = {} ∧ (deviceReset c l s).committed = [] ∧ (deviceReset c l s).inHold = false ∧ (deviceReset c l s).now = 0 ∧ rd (deviceReset c l s) pBoot 0x164 = BitVec.ofNat 32 c
      ∧ (c = 1 → phase (deviceReset c l s) = 0))
  ∧ (∀ (s : State) (b : Bool), s.power.up = true → s.boot.perst = true → phase s = 0 → s.inHold = false → ∃ u : State, exec (.perstNDeassert b) s = .next (romRun u)
      ∧ u = { s with regs := u.regs, boot := { s.boot with perst := false } } ∧ bitOf (rd u pHostif 0x100) 9 = b)
  ∧ (∀ (s : State) (k : Nat) (cxl raw : Bool) (rates : List Nat) (id : List Word), k < 2 → s.boot.toFind.contains k = true → phase s = 1 → s.inHold = false →
      (answers (.chipletDiscovery k false cxl raw rates id) s fun t => (unitSt t (pChiplet k)).state = .faulted ∧ rd t (pUcie k) 0x104 = 1 ∧ t.boot.toFind.contains k = false)
      ∧ (raw = true → ucieRate s k rates ≠ 0 → answers (.chipletDiscovery k true cxl raw rates id) s fun t => rd t (pUcie k + 1) 0x100 = id.getD 0 0 ∧ t.boot.toFind.contains k = false
          ∧ rd t (pUcie k) 0x104 = BitVec.ofNat 32 (3 + 4 * b2n (!(cxl && !bitOf (rd s (pUcie k) 0x100) 0)) + 8 * ucieRate s k rates + 0x8000)))
  ∧ (∀ (s : State) (r w : Nat) (f a b c d : Bool), s.power.up = true → s.boot.perst = false → answers (.hostLinkUp r w f a b c d) s fun t => bitOf (rd t pHostif 0x100) 13 = true
      ∧ fld (rd t pHostif 0x100) 2 0 = r % 8 ∧ fld (rd t pHostif 0x100) 7 3 = w % 32 ∧ (f = false → fld (rd t pHostif 0x100) 12 10 = 0)
      ∧ (phase s = 1 → s.boot.toFind = [] → s.inHold = false → phase t = 2) ∧ (d = true → bitOf (rd t pHostif 0x10) 2 = true) ∧ t.mem = s.mem)
  ∧ (∀ s : State, bitOf (rd s pHostif 0x100) 13 = true → answers .hostLinkDown s fun t => bitOf (rd t pHostif 0x100) 13 = false ∧ bitOf (rd t pHostif 0x10) 1 = true ∧ t.mem = s.mem ∧ t.host = s.host)
  ∧ (∀ s : State, (windowOpen s = true → s.inHold = false → answers .bootCmdLoad s fun t => phase t = (if imageCode (addProg pBoot 0 1 s) = 0 then 4 else 6)
        ∧ fld (rd t pBoot 0x100) 15 8 = imageCode (addProg pBoot 0 1 s) % 256 ∧ t.mem = s.mem)
      ∧ (windowOpen s = true → s.inHold = true → answers .bootCmdLoad s fun t => phase t = 3 ∧ t = { s with regs := t.regs }) ∧ (windowOpen s = false → exec .bootCmdLoad s = .next (event pBoot 2 s)))
  ∧ (∀ s : State, phase s = 5 → fld (rd s pBoot 0x124) 5 0 < fld (rd s pBoot 0x124) 13 8 → (exec (.raiseSvn false) s = .next (event pBoot 5 s))
      ∧ (answers (.raiseSvn true) s fun t => fld (rd t pBoot 0x124) 5 0 = fld (rd s pBoot 0x124) 13 8 ∧ t.boot.part.svn = fld (rd s pBoot 0x124) 13 8 ∧ t.mem = s.mem))
  ∧ (∀ (s : State) (pk : List (List Bool)) (pa : List Nat) (ds : List (Nat × Word)), phase s = 4 → s.inHold = false →
      (∀ d, answers (.bringUp (some d) pk pa ds) s fun t => rd t pBoot 0x100 = BitVec.ofNat 32 (0x2006 + 0x10000 * (d % 16)) ∧ bitOf (rd t pBoot 0x10) 1 = true ∧ t.mem = s.mem)
      ∧ (answers (.bringUp none pk pa ds) s fun t => phase t = 5 ∧ bitOf (rd t pBoot 0x10) 0 = true ∧ rd t pWatchdog 0x100 = 0 ∧ t.boot.fresh = false)
      ∧ (s.boot.startAt + 2000000000 ≤ s.now → answers .startTimeout s fun t => rd t pBoot 0x100 = 0x2106 ∧ bitOf (rd t pBoot 0x10) 1 = true ∧ t.mem = s.mem)
      ∧ (s.now < s.boot.startAt + 2000000000 → exec .startTimeout s = .next s))

/-- SPDM requests are answered in the negotiation's order; sessions open, complete, rekey and end; IDE keys and failures; nothing is answered before the ROM (17_firmware.md R805, R806, 18_interfaces.md R823 to R825, R851). -/
def Obligations.SpdmAndIdeOverDoe : Prop :=
  (∀ s : State, spdmUp s = false → ∀ i ∈ [Instr.getVersion, .getDigests, .getCapabilities 0x11, .negotiateAlgorithms true, .challenge 0, .getCertificate 0 0 4, .getMeasurements 1 false, .keyExchange 1 0, .finish 1,
        .heartbeatSpdm 1, .keyUpdate 1, .endSession 1, .ideKm 1 0 true], exec i s = .next s)
  ∧ (∀ (s : State) (c : Nat) (b : Bool) (l : List Byte), (doeAnswer c b l s).out = .spdm c b l :: s.out ∧ rd (doeAnswer c b l s) pDoe 0x104 = rd s pDoe 0x104 + 1 ∧ (doeAnswer c b l s).spdm = s.spdm
      ∧ doeAnswer c b l s = { s with regs := (doeAnswer c b l s).regs, out := (doeAnswer c b l s).out })
  ∧ (∀ s : State, spdmUp s = true → ∃ u : State, exec .getVersion s = .next (doeAnswer 0x84 true [0x11, 0x12] u) ∧ u = { s with regs := u.regs, spdm := { stage := 1, sessions := [] } }
      ∧ fld (rd u pDoe 0x100) 2 0 = 0)
  ∧ (∀ (s : State) (v : Nat), spdmUp s = true → (s.spdm.stage = 1 → (v = 0x11 ∨ v = 0x12) → exec (.getCapabilities v) s = .next (setStage 2 (doeAnswer 0xE1 true [] s)))
      ∧ ((s.spdm.stage ≠ 1 ∨ (v ≠ 0x11 ∧ v ≠ 0x12)) → exec (.getCapabilities v) s = .next (doeAnswer 0xE1 false [] s)))
  ∧ (∀ s : State, spdmUp s = true → (s.spdm.stage = 2 → exec (.negotiateAlgorithms true) s = .next (setStage 3 (doeAnswer 0xE3 true [] s)))
      ∧ (s.spdm.stage ≠ 2 → exec (.negotiateAlgorithms true) s = .next (doeAnswer 0xE3 false [] s)))
  ∧ (∀ s : State, spdmUp s = true → s.spdm.stage = 3 → exec .getDigests s = .next (doeAnswer 0x81 true (digestBytes (Config.sha384 Config.certChain)) s)
      ∧ (∀ off n, off ≤ Config.certChain.length → exec (.getCertificate 0 off n) s = .next (doeAnswer 0x82 true ((Config.certChain.drop off).take n) s))
      ∧ (∀ sl off n, sl ≠ 0 → exec (.getCertificate sl off n) s = .next (doeAnswer 0x82 false [] s) ∧ exec (.challenge sl) s = .next (doeAnswer 0x83 false [] s))
      ∧ (∃ l : List Byte, l.length = 96 ∧ exec (.challenge 0) s = .next (tickFree 96 (doeAnswer 0x83 true l s)))
      ∧ (∀ i, 1 ≤ i → i ≤ 7 → exec (.getMeasurements i false) s = .next (doeAnswer 0xE0 true (measurement s i) s)
          ∧ ∃ l : List Byte, l.length = 96 ∧ exec (.getMeasurements i true) s = .next (tickFree 96 (doeAnswer 0xE0 true (measurement s i ++ l) s)))
      ∧ exec (.getMeasurements 0 false) s = .next (doeAnswer 0xE0 true [7] s) ∧ (∀ i, 7 < i → i ≠ 0xFF → exec (.getMeasurements i false) s = .next (doeAnswer 0xE0 false [] s)))
  ∧ (∀ (s : State) (id : Nat), spdmUp s = true → s.spdm.stage = 3 → sessionOf s id = none →
      (s.spdm.sessions.length < 4 → ∃ u : State, exec (.keyExchange id 0) s = .next (doeAnswer 0xE4 true (leBytes 4 id) u) ∧ u = { s with regs := u.regs, spdm := u.spdm }
        ∧ u.spdm.sessions = s.spdm.sessions ++ [{ id := id }] ∧ fld (rd u pDoe 0x100) 2 0 = s.spdm.sessions.length + 1)
      ∧ (4 ≤ s.spdm.sessions.length → exec (.keyExchange id 0) s = .next (doeAnswer 0xE4 false [] s)))
  ∧ (∀ (s : State) (id : Nat) (x : SpdmSession), spdmUp s = true → sessionOf s id = some x →
      (x.established = false → answers (.finish id) s fun t => sessionUp t id = true ∧ t.out = .spdm 0xE5 true [] :: s.out ∧ t.mem = s.mem)
      ∧ (x.established = true → exec (.heartbeatSpdm id) s = .next (doeAnswer 0xE8 true [] s)
          ∧ (answers (.keyUpdate id) s fun t => (∃ y, sessionOf t id = some y ∧ y.updates = x.updates + 1 ∧ y.established = true) ∧ t.out = .spdm 0xE9 true [] :: s.out)
          ∧ (answers (.endSession id) s fun t => sessionOf t id = none ∧ t.out = .spdm 0xEC true [] :: s.out ∧ ∀ j, j ≠ id → sessionOf t j = sessionOf s j)
          ∧ (∀ st on, st < 4 → answers (.ideKm id st on) s fun t => bitOf (rd t pIde 0x100) st = on ∧ t.out = .spdm 0 true [] :: s.out ∧ t.spdm = s.spdm)))
  ∧ (∀ (s : State) (id : Nat), spdmUp s = true → sessionUp s id = false → exec (.heartbeatSpdm id) s = .next (doeAnswer 0xE8 false [] s) ∧ exec (.keyUpdate id) s = .next (doeAnswer 0xE9 false [] s)
      ∧ exec (.endSession id) s = .next (doeAnswer 0xEC false [] s))
  ∧ ∀ (s : State) (st : Nat), st < 4 → bitOf (rd s pIde 0x100) st = true → answers (.ideFail st) s fun t => bitOf (rd t pIde 0x100) st = false ∧ rd t pIde 0x104 = sat32 ((rd s pIde 0x104).toNat + 1)
      ∧ bitOf (rd t pHostif 0x10) 6 = true ∧ t.mem = s.mem ∧ t.spdm = s.spdm

/-- The MMC's commands, PLDM, firmware, leak and flow reports once it is ready; AUX power; Holog's log entries and their export ring (17_firmware.md R803, R804, R808, 18_interfaces.md R832 to R836, R841, R842, R845, R853). -/
def Obligations.ManagementControllerAndLog : Prop :=
  (∀ s : State, s.mmc.ready = false → ∀ i ∈ [Instr.getStatus, .setCap 2000, .clearEfuse, .clearAlert, .moduleReset {}, .readLog 0, .pldmMonitoring .leak 0, .pldmFirmwareUpdate [], .leak, .flowLow 0], exec i s = .next s)
  ∧ (∀ (s : State) (n : Nat) (b : Bool), answers (.auxPowerUp n b) s fun t => t = { s with mmc := t.mmc } ∧ t.mmc.ready = true ∧ t.mmc.modId = n % 16 ∧ t.mmc.i3c = b ∧ t.mmc.psStat = 0 ∧ t.mmc.cap = 4600
      ∧ t.mmc.bank = (if s.mmc.newBank then s.mmc.spareBank else s.mmc.bank) ∧ t.mmc.log = s.mmc.log)
  ∧ (∀ s : State, s.mmc.ready = true → exec .getStatus s = .next (emit (mmcStatusOut s) s) ∧ (∀ n, exec (.readLog n) s = .next (emit (.mmcLog n (s.mmc.log.drop n)) s))
      ∧ (∀ x n, exec (.pldmMonitoring x n) s = .next (emit (.pldm x (pldmValue s x n)) s)) ∧ (∀ n, pldmValue s .inputVoltage n = some s.power.vin ∧ (s.power.up = false → pldmValue s .cap n = none))
      ∧ (answers .clearAlert s fun t => t = { s with alertN := false, mmc := t.mmc }) ∧ (∀ w, w < 1200 ∨ 4600 < w → exec (.setCap w) s = .next (emit (.mmcRefused 2) s))
      ∧ (∀ w, 1200 ≤ w → w ≤ 4600 → (s.power.up = false → answers (.setCap w) s fun t => t = { s with mmc := t.mmc } ∧ t.mmc.cap = w)
          ∧ (s.power.up = true → ∃ u : State, exec (.setCap w) s = .next (setClocks (capSync u)) ∧ u = { s with regs := u.regs, mmc := u.mmc } ∧ u.mmc.cap = w ∧ rd u pBlocker 0x104 = BitVec.ofNat 32 w))
      ∧ (s.power.efuse = .latched → answers .clearEfuse s fun t => t = { s with mmc := t.mmc, power := { s.power with efuse := .off, retries := 0 } })
      ∧ (∀ m, s.power.up = true → ∃ u : State, exec (.moduleReset m) s = .next (losePower 0 .off m u) ∧ u = { s with mmc := u.mmc })
      ∧ (∀ l, answers (.pldmFirmwareUpdate l) s fun t => t = { s with out := .pldmFirmware :: s.out, mmc := { s.mmc with spareBank := l, newBank := true } })
      ∧ (answers .leak s fun t => t.alertN = true ∧ t.mmc.leak = true ∧ (s.power.up = true → bitOf (rd t pMmcBox 0x10) 1 = true) ∧ (s.power.up = false → t.regs = s.regs) ∧ t.mem = s.mem)
      ∧ (∀ n, n < 60 → answers (.flowLow n) s fun t => t.alertN = true ∧ .pldmFlow n ∈ t.out ∧ (s.power.up = true → bitOf (rd t pMmcBox 0x10) 2 = true) ∧ t.mmc = s.mmc ∧ t.mem = s.mem)
      ∧ (∀ n, 60 ≤ n → exec (.flowLow n) s = .next s))
  ∧ (∀ (s : State) (e : MmcEvent), s.mmc.ready = true → (mmcLogAdd e s).mmc.log = (s.mmc.log ++ [(mmcTime s, e)]).drop (s.mmc.log.length + 1 - 4096) ∧ mmcLogAdd e s = { s with mmc := (mmcLogAdd e s).mmc })
  ∧ (∀ (s : State) (tp sev src : Nat) (a : List Word), s.power.up = true → s.inHold = false → ∃ (e : List Byte) (u : State), e.length = 32 ∧ e.take 8 = leBytes 8 s.now
      ∧ u = { s with regs := u.regs, boot := { s.boot with log := (s.boot.log ++ [e]).drop (s.boot.log.length + 1 - 2048), logSeq := s.boot.logSeq + 1 } }
      ∧ (logExports s = false → exec (.logEntry tp sev src a) s = .next u)
      ∧ (logExports s = true → rd64 s pBoot 0x170 / 4096 ≠ 0 → exec (.logEntry tp sev src a) s = .next (logExport e u))
      ∧ (logExports s = true → rd64 s pBoot 0x170 / 4096 = 0 → exec (.logEntry tp sev src a) s = .next { u with boot := { u.boot with unsent := (s.boot.unsent ++ [e]).take 0x100000 } }))
  ∧ (∀ (s : State) (e : List Byte), fld (rd s pBoot 0x188) 1 0 ≤ (e.getD 10 0).toNat → (logProd s + 0x200000 - logCons s) % 0x200000 = 2 ^ logSize s →
      (logExport e s).mem = s.mem ∧ rd (logExport e s) pBoot 0x184 = sat32 ((rd s pBoot 0x184).toNat + 1) ∧ bitOf (rd (logExport e s) pBoot 0x10) 4 = true)
  ∧ ∀ (s : State) (off : Nat) (v : DWord) (b : Bool), (off = 0x170 ∨ off = 0x174 ∨ off = 0x178) → (logProd s ≠ logCons s → exec (.logBaseWrite off v b) s = .next s)
      ∧ (logProd s = logCons s → s.boot.unsent = [] → exec (.logBaseWrite off v b) s = .next (stReg 0 pBoot off v b s))

/-- After reset memory lists nothing, which is its canonical form (what an unlisted byte reads as is the model's choice, log 4) (09_device_memory.md R393, 01_organisation.md R44). -/
def Obligations.ResetMemoryIsCanonical : Prop :=
  State.reset.inv ∧ State.reset.mem = [] ∧ State.reset.pending = []

/-- Every step keeps memory in its one canonical form, whatever command stands at the front of the queue (09_device_memory.md R393, 01_organisation.md R44). -/
def Obligations.EveryStepKeepsMemoryCanonical : Prop :=
  ∀ s t : State, s.inv → step s = .next t → t.inv
end

