-- ==== Sys2Proof/Laws/Sparse.lean ====
section
/-! SUPPORT. The laws of sparse maps: reading after writing, and the canonical form that every writer keeps. -/

namespace Sys2Proof.Machine

variable {β : Type}

@[simp] theorem sget_nil (d : Nat → β) (k : Nat) : sget d [] k = d k := rfl
@[simp] theorem slook_nil (k : Nat) : slook ([] : List (Nat × β)) k = none := rfl

theorem serase_cons (k : Nat) (e : Nat × β) (t : List (Nat × β)) :
    serase k (e :: t) = if e.1 = k then serase k t else e :: serase k t := by
  unfold serase
  by_cases h : e.1 = k <;> simp [h]

theorem sget_serase_same (d : Nat → β) (m : List (Nat × β)) (k : Nat) : sget d (serase k m) k = d k := by
  induction m with
  | nil => rfl
  | cons e t ih => by_cases h : e.1 = k <;> simp [serase_cons, h, ih, sget]

theorem sget_serase_ne (d : Nat → β) (m : List (Nat × β)) {j k : Nat} (h : j ≠ k) : sget d (serase k m) j = sget d m j := by
  induction m with
  | nil => rfl
  | cons e t ih =>
    by_cases hk : e.1 = k
    · simp [serase_cons, hk, ih, sget, h.symm]
    · simp [serase_cons, hk, ih, sget]

theorem sget_sinsert_same (d : Nat → β) (m : List (Nat × β)) (k : Nat) (v : β) (h : ∀ e ∈ m, e.1 ≠ k) :
    sget d (sinsert k v m) k = v := by
  induction m with
  | nil => simp [sinsert, sget]
  | cons e t ih =>
    have he := h e (by simp)
    unfold sinsert
    by_cases hk : k < e.1
    · simp [hk, sget]
    · simp [hk, sget, he, ih fun x hx => h x (by simp [hx])]

theorem sget_sinsert_ne (d : Nat → β) (m : List (Nat × β)) {j k : Nat} (v : β) (h : j ≠ k) :
    sget d (sinsert k v m) j = sget d m j := by
  induction m with
  | nil => simp [sinsert, sget, h.symm]
  | cons e t ih =>
    unfold sinsert
    by_cases hk : k < e.1
    · simp [hk, sget, h.symm]
    · simp [hk, sget, ih]

theorem serase_ne (m : List (Nat × β)) (k : Nat) : ∀ e ∈ serase k m, e.1 ≠ k := by
  intro e he
  simp [serase] at he
  exact he.2

/-- A key reads as what was last written to it. -/
@[simp] theorem sget_sput_same [DecidableEq β] (d : Nat → β) (m : List (Nat × β)) (k : Nat) (v : β) :
    sget d (sput d m k v) k = v := by
  unfold sput
  split
  · next h => rw [sget_serase_same, h]
  · exact sget_sinsert_same d _ k v (serase_ne m k)

/-- A write leaves every other key alone. -/
theorem sget_sput_ne [DecidableEq β] (d : Nat → β) (m : List (Nat × β)) {j k : Nat} (v : β) (h : j ≠ k) :
    sget d (sput d m k v) j = sget d m j := by
  unfold sput
  split
  · exact sget_serase_ne d m h
  · rw [sget_sinsert_ne d _ v h, sget_serase_ne d m h]

theorem slook_sinsert_same (m : List (Nat × β)) (k : Nat) (v : β) (h : ∀ e ∈ m, e.1 ≠ k) :
    slook (sinsert k v m) k = some v := by
  induction m with
  | nil => simp [sinsert, slook]
  | cons e t ih =>
    have he := h e (by simp)
    unfold sinsert
    by_cases hk : k < e.1
    · simp [hk, slook]
    · simp [hk, slook, he, ih fun x hx => h x (by simp [hx])]

theorem slook_sinsert_ne (m : List (Nat × β)) {j k : Nat} (v : β) (h : j ≠ k) : slook (sinsert k v m) j = slook m j := by
  induction m with
  | nil => simp [sinsert, slook, h.symm]
  | cons e t ih =>
    unfold sinsert
    by_cases hk : k < e.1
    · simp [hk, slook, h.symm]
    · simp [hk, slook, ih]

theorem slook_serase_same (m : List (Nat × β)) (k : Nat) : slook (serase k m) k = none := by
  induction m with
  | nil => rfl
  | cons e t ih => by_cases h : e.1 = k <;> simp [serase_cons, h, ih, slook]

theorem slook_serase_ne (m : List (Nat × β)) {j k : Nat} (h : j ≠ k) : slook (serase k m) j = slook m j := by
  induction m with
  | nil => rfl
  | cons e t ih =>
    by_cases hk : e.1 = k
    · simp [serase_cons, hk, ih, slook, h.symm]
    · simp [serase_cons, hk, ih, slook]

/-- A key added is found. -/
@[simp] theorem slook_sadd_same (m : List (Nat × β)) (k : Nat) (v : β) : slook (sadd m k v) k = some v :=
  slook_sinsert_same _ k v (serase_ne m k)

/-- Adding a key leaves every other key alone. -/
theorem slook_sadd_ne (m : List (Nat × β)) {j k : Nat} (v : β) (h : j ≠ k) : slook (sadd m k v) j = slook m j := by
  unfold sadd
  rw [slook_sinsert_ne _ v h, slook_serase_ne m h]

/-! ### The canonical form -/

theorem sparseWf_serase (d : Nat → β) {m : List (Nat × β)} (k : Nat) (h : sparseWf d m) : sparseWf d (serase k m) :=
  ⟨h.1.filter _, fun e he => h.2 e (List.mem_filter.mp he).1⟩

theorem mem_sinsert {m : List (Nat × β)} {k : Nat} {v : β} {x : Nat × β} (hx : x ∈ sinsert k v m) : x = (k, v) ∨ x ∈ m := by
  induction m with
  | nil => simpa [sinsert] using hx
  | cons a l ih =>
    unfold sinsert at hx
    split at hx
    · simpa using hx
    · rcases List.mem_cons.mp hx with rfl | hx
      · simp
      · rcases ih hx with h | h <;> simp [h]

theorem pairwise_sinsert {m : List (Nat × β)} (k : Nat) (v : β) (hne : ∀ e ∈ m, e.1 ≠ k)
    (h : List.Pairwise (fun a b => a.1 < b.1) m) : List.Pairwise (fun a b => a.1 < b.1) (sinsert k v m) := by
  induction m with
  | nil => simp [sinsert]
  | cons e t ih =>
    have h' := List.pairwise_cons.mp h
    have he := hne e (by simp)
    unfold sinsert
    by_cases hk : k < e.1
    · simp only [hk, if_true]
      refine List.pairwise_cons.mpr ⟨fun x hx => ?_, h⟩
      rcases List.mem_cons.mp hx with rfl | hx
      · exact hk
      · exact Nat.lt_trans hk (h'.1 x hx)
    · simp only [hk, if_false]
      refine List.pairwise_cons.mpr ⟨fun x hx => ?_, ih (fun x hx => hne x (by simp [hx])) h'.2⟩
      rcases mem_sinsert hx with rfl | hx
      · exact Nat.lt_of_le_of_ne (Nat.le_of_not_lt hk) he
      · exact h'.1 x hx

/-- A write keeps the canonical form. -/
theorem sparseWf_sput [DecidableEq β] (d : Nat → β) {m : List (Nat × β)} (k : Nat) (v : β) (h : sparseWf d m) :
    sparseWf d (sput d m k v) := by
  unfold sput
  split
  · exact sparseWf_serase d k h
  · next hv =>
    have he := sparseWf_serase d k h
    refine ⟨pairwise_sinsert k v (serase_ne m k) he.1, fun e hm => ?_⟩
    rcases mem_sinsert hm with rfl | hm
    · exact hv
    · exact he.2 e hm

/-- An empty map is canonical. -/
theorem sparseWf_nil (d : Nat → β) : sparseWf d ([] : List (Nat × β)) := ⟨List.Pairwise.nil, by simp⟩

end Sys2Proof.Machine
end

