-- ==== Sys2Proof/Laws/State.lean ====
section
/-! SUPPORT. Each basic update of the state leaves every other field as it was, and what it wrote reads back. -/

namespace Sys2Proof.Machine

variable (s : State)

/-! ### wrKey changes regs -/

@[simp] theorem wrKey_pending (k : Nat) (v : Word) : (wrKey k v s).pending = s.pending := rfl
@[simp] theorem wrKey_now (k : Nat) (v : Word) : (wrKey k v s).now = s.now := rfl
@[simp] theorem wrKey_out (k : Nat) (v : Word) : (wrKey k v s).out = s.out := rfl
@[simp] theorem wrKey_freeCtr (k : Nat) (v : Word) : (wrKey k v s).freeCtr = s.freeCtr := rfl
@[simp] theorem wrKey_alertN (k : Nat) (v : Word) : (wrKey k v s).alertN = s.alertN := rfl
@[simp] theorem wrKey_inHold (k : Nat) (v : Word) : (wrKey k v s).inHold = s.inHold := rfl
@[simp] theorem wrKey_mem (k : Nat) (v : Word) : (wrKey k v s).mem = s.mem := rfl
@[simp] theorem wrKey_nearMarks (k : Nat) (v : Word) : (wrKey k v s).nearMarks = s.nearMarks := rfl
@[simp] theorem wrKey_committed (k : Nat) (v : Word) : (wrKey k v s).committed = s.committed := rfl
@[simp] theorem wrKey_units (k : Nat) (v : Word) : (wrKey k v s).units = s.units := rfl
@[simp] theorem wrKey_prot (k : Nat) (v : Word) : (wrKey k v s).prot = s.prot := rfl
@[simp] theorem wrKey_slices (k : Nat) (v : Word) : (wrKey k v s).slices = s.slices := rfl
@[simp] theorem wrKey_shadows (k : Nat) (v : Word) : (wrKey k v s).shadows = s.shadows := rfl
@[simp] theorem wrKey_org (k : Nat) (v : Word) : (wrKey k v s).org = s.org := rfl
@[simp] theorem wrKey_snap (k : Nat) (v : Word) : (wrKey k v s).snap = s.snap := rfl
@[simp] theorem wrKey_xlate (k : Nat) (v : Word) : (wrKey k v s).xlate = s.xlate := rfl
@[simp] theorem wrKey_memctl (k : Nat) (v : Word) : (wrKey k v s).memctl = s.memctl := rfl
@[simp] theorem wrKey_felt (k : Nat) (v : Word) : (wrKey k v s).felt = s.felt := rfl
@[simp] theorem wrKey_tiles (k : Nat) (v : Word) : (wrKey k v s).tiles = s.tiles := rfl
@[simp] theorem wrKey_nor (k : Nat) (v : Word) : (wrKey k v s).nor = s.nor := rfl
@[simp] theorem wrKey_disp (k : Nat) (v : Word) : (wrKey k v s).disp = s.disp := rfl
@[simp] theorem wrKey_steward (k : Nat) (v : Word) : (wrKey k v s).steward = s.steward := rfl
@[simp] theorem wrKey_xfer (k : Nat) (v : Word) : (wrKey k v s).xfer = s.xfer := rfl
@[simp] theorem wrKey_links (k : Nat) (v : Word) : (wrKey k v s).links = s.links := rfl
@[simp] theorem wrKey_recov (k : Nat) (v : Word) : (wrKey k v s).recov = s.recov := rfl
@[simp] theorem wrKey_power (k : Nat) (v : Word) : (wrKey k v s).power = s.power := rfl
@[simp] theorem wrKey_boot (k : Nat) (v : Word) : (wrKey k v s).boot = s.boot := rfl
@[simp] theorem wrKey_spdm (k : Nat) (v : Word) : (wrKey k v s).spdm = s.spdm := rfl
@[simp] theorem wrKey_host (k : Nat) (v : Word) : (wrKey k v s).host = s.host := rfl
@[simp] theorem wrKey_mmc (k : Nat) (v : Word) : (wrKey k v s).mmc = s.mmc := rfl
@[simp] theorem wrKey_ringProg (k : Nat) (v : Word) : (wrKey k v s).ringProg = s.ringProg := rfl

/-! ### wr changes regs -/

@[simp] theorem wr_pending (p o : Nat) (v : Word) : (wr p o v s).pending = s.pending := wrKey_pending s _ _
@[simp] theorem wr_now (p o : Nat) (v : Word) : (wr p o v s).now = s.now := wrKey_now s _ _
@[simp] theorem wr_out (p o : Nat) (v : Word) : (wr p o v s).out = s.out := wrKey_out s _ _
@[simp] theorem wr_freeCtr (p o : Nat) (v : Word) : (wr p o v s).freeCtr = s.freeCtr := wrKey_freeCtr s _ _
@[simp] theorem wr_alertN (p o : Nat) (v : Word) : (wr p o v s).alertN = s.alertN := wrKey_alertN s _ _
@[simp] theorem wr_inHold (p o : Nat) (v : Word) : (wr p o v s).inHold = s.inHold := wrKey_inHold s _ _
@[simp] theorem wr_mem (p o : Nat) (v : Word) : (wr p o v s).mem = s.mem := wrKey_mem s _ _
@[simp] theorem wr_nearMarks (p o : Nat) (v : Word) : (wr p o v s).nearMarks = s.nearMarks := wrKey_nearMarks s _ _
@[simp] theorem wr_committed (p o : Nat) (v : Word) : (wr p o v s).committed = s.committed := wrKey_committed s _ _
@[simp] theorem wr_units (p o : Nat) (v : Word) : (wr p o v s).units = s.units := wrKey_units s _ _
@[simp] theorem wr_prot (p o : Nat) (v : Word) : (wr p o v s).prot = s.prot := wrKey_prot s _ _
@[simp] theorem wr_slices (p o : Nat) (v : Word) : (wr p o v s).slices = s.slices := wrKey_slices s _ _
@[simp] theorem wr_shadows (p o : Nat) (v : Word) : (wr p o v s).shadows = s.shadows := wrKey_shadows s _ _
@[simp] theorem wr_org (p o : Nat) (v : Word) : (wr p o v s).org = s.org := wrKey_org s _ _
@[simp] theorem wr_snap (p o : Nat) (v : Word) : (wr p o v s).snap = s.snap := wrKey_snap s _ _
@[simp] theorem wr_xlate (p o : Nat) (v : Word) : (wr p o v s).xlate = s.xlate := wrKey_xlate s _ _
@[simp] theorem wr_memctl (p o : Nat) (v : Word) : (wr p o v s).memctl = s.memctl := wrKey_memctl s _ _
@[simp] theorem wr_felt (p o : Nat) (v : Word) : (wr p o v s).felt = s.felt := wrKey_felt s _ _
@[simp] theorem wr_tiles (p o : Nat) (v : Word) : (wr p o v s).tiles = s.tiles := wrKey_tiles s _ _
@[simp] theorem wr_nor (p o : Nat) (v : Word) : (wr p o v s).nor = s.nor := wrKey_nor s _ _
@[simp] theorem wr_disp (p o : Nat) (v : Word) : (wr p o v s).disp = s.disp := wrKey_disp s _ _
@[simp] theorem wr_steward (p o : Nat) (v : Word) : (wr p o v s).steward = s.steward := wrKey_steward s _ _
@[simp] theorem wr_xfer (p o : Nat) (v : Word) : (wr p o v s).xfer = s.xfer := wrKey_xfer s _ _
@[simp] theorem wr_links (p o : Nat) (v : Word) : (wr p o v s).links = s.links := wrKey_links s _ _
@[simp] theorem wr_recov (p o : Nat) (v : Word) : (wr p o v s).recov = s.recov := wrKey_recov s _ _
@[simp] theorem wr_power (p o : Nat) (v : Word) : (wr p o v s).power = s.power := wrKey_power s _ _
@[simp] theorem wr_boot (p o : Nat) (v : Word) : (wr p o v s).boot = s.boot := wrKey_boot s _ _
@[simp] theorem wr_spdm (p o : Nat) (v : Word) : (wr p o v s).spdm = s.spdm := wrKey_spdm s _ _
@[simp] theorem wr_host (p o : Nat) (v : Word) : (wr p o v s).host = s.host := wrKey_host s _ _
@[simp] theorem wr_mmc (p o : Nat) (v : Word) : (wr p o v s).mmc = s.mmc := wrKey_mmc s _ _
@[simp] theorem wr_ringProg (p o : Nat) (v : Word) : (wr p o v s).ringProg = s.ringProg := wrKey_ringProg s _ _

/-! ### wrB changes regs -/

@[simp] theorem wrB_pending (b p o : Nat) (v : Word) : (wrB b p o v s).pending = s.pending := wrKey_pending s _ _
@[simp] theorem wrB_now (b p o : Nat) (v : Word) : (wrB b p o v s).now = s.now := wrKey_now s _ _
@[simp] theorem wrB_out (b p o : Nat) (v : Word) : (wrB b p o v s).out = s.out := wrKey_out s _ _
@[simp] theorem wrB_freeCtr (b p o : Nat) (v : Word) : (wrB b p o v s).freeCtr = s.freeCtr := wrKey_freeCtr s _ _
@[simp] theorem wrB_alertN (b p o : Nat) (v : Word) : (wrB b p o v s).alertN = s.alertN := wrKey_alertN s _ _
@[simp] theorem wrB_inHold (b p o : Nat) (v : Word) : (wrB b p o v s).inHold = s.inHold := wrKey_inHold s _ _
@[simp] theorem wrB_mem (b p o : Nat) (v : Word) : (wrB b p o v s).mem = s.mem := wrKey_mem s _ _
@[simp] theorem wrB_nearMarks (b p o : Nat) (v : Word) : (wrB b p o v s).nearMarks = s.nearMarks := wrKey_nearMarks s _ _
@[simp] theorem wrB_committed (b p o : Nat) (v : Word) : (wrB b p o v s).committed = s.committed := wrKey_committed s _ _
@[simp] theorem wrB_units (b p o : Nat) (v : Word) : (wrB b p o v s).units = s.units := wrKey_units s _ _
@[simp] theorem wrB_prot (b p o : Nat) (v : Word) : (wrB b p o v s).prot = s.prot := wrKey_prot s _ _
@[simp] theorem wrB_slices (b p o : Nat) (v : Word) : (wrB b p o v s).slices = s.slices := wrKey_slices s _ _
@[simp] theorem wrB_shadows (b p o : Nat) (v : Word) : (wrB b p o v s).shadows = s.shadows := wrKey_shadows s _ _
@[simp] theorem wrB_org (b p o : Nat) (v : Word) : (wrB b p o v s).org = s.org := wrKey_org s _ _
@[simp] theorem wrB_snap (b p o : Nat) (v : Word) : (wrB b p o v s).snap = s.snap := wrKey_snap s _ _
@[simp] theorem wrB_xlate (b p o : Nat) (v : Word) : (wrB b p o v s).xlate = s.xlate := wrKey_xlate s _ _
@[simp] theorem wrB_memctl (b p o : Nat) (v : Word) : (wrB b p o v s).memctl = s.memctl := wrKey_memctl s _ _
@[simp] theorem wrB_felt (b p o : Nat) (v : Word) : (wrB b p o v s).felt = s.felt := wrKey_felt s _ _
@[simp] theorem wrB_tiles (b p o : Nat) (v : Word) : (wrB b p o v s).tiles = s.tiles := wrKey_tiles s _ _
@[simp] theorem wrB_nor (b p o : Nat) (v : Word) : (wrB b p o v s).nor = s.nor := wrKey_nor s _ _
@[simp] theorem wrB_disp (b p o : Nat) (v : Word) : (wrB b p o v s).disp = s.disp := wrKey_disp s _ _
@[simp] theorem wrB_steward (b p o : Nat) (v : Word) : (wrB b p o v s).steward = s.steward := wrKey_steward s _ _
@[simp] theorem wrB_xfer (b p o : Nat) (v : Word) : (wrB b p o v s).xfer = s.xfer := wrKey_xfer s _ _
@[simp] theorem wrB_links (b p o : Nat) (v : Word) : (wrB b p o v s).links = s.links := wrKey_links s _ _
@[simp] theorem wrB_recov (b p o : Nat) (v : Word) : (wrB b p o v s).recov = s.recov := wrKey_recov s _ _
@[simp] theorem wrB_power (b p o : Nat) (v : Word) : (wrB b p o v s).power = s.power := wrKey_power s _ _
@[simp] theorem wrB_boot (b p o : Nat) (v : Word) : (wrB b p o v s).boot = s.boot := wrKey_boot s _ _
@[simp] theorem wrB_spdm (b p o : Nat) (v : Word) : (wrB b p o v s).spdm = s.spdm := wrKey_spdm s _ _
@[simp] theorem wrB_host (b p o : Nat) (v : Word) : (wrB b p o v s).host = s.host := wrKey_host s _ _
@[simp] theorem wrB_mmc (b p o : Nat) (v : Word) : (wrB b p o v s).mmc = s.mmc := wrKey_mmc s _ _
@[simp] theorem wrB_ringProg (b p o : Nat) (v : Word) : (wrB b p o v s).ringProg = s.ringProg := wrKey_ringProg s _ _

/-! ### wr64 changes regs -/

@[simp] theorem wr64_pending (p o v : Nat) : (wr64 p o v s).pending = s.pending := (wrB_pending _ _ _ _ _).trans (wrB_pending s _ _ _ _)
@[simp] theorem wr64_now (p o v : Nat) : (wr64 p o v s).now = s.now := (wrB_now _ _ _ _ _).trans (wrB_now s _ _ _ _)
@[simp] theorem wr64_out (p o v : Nat) : (wr64 p o v s).out = s.out := (wrB_out _ _ _ _ _).trans (wrB_out s _ _ _ _)
@[simp] theorem wr64_freeCtr (p o v : Nat) : (wr64 p o v s).freeCtr = s.freeCtr := (wrB_freeCtr _ _ _ _ _).trans (wrB_freeCtr s _ _ _ _)
@[simp] theorem wr64_alertN (p o v : Nat) : (wr64 p o v s).alertN = s.alertN := (wrB_alertN _ _ _ _ _).trans (wrB_alertN s _ _ _ _)
@[simp] theorem wr64_inHold (p o v : Nat) : (wr64 p o v s).inHold = s.inHold := (wrB_inHold _ _ _ _ _).trans (wrB_inHold s _ _ _ _)
@[simp] theorem wr64_mem (p o v : Nat) : (wr64 p o v s).mem = s.mem := (wrB_mem _ _ _ _ _).trans (wrB_mem s _ _ _ _)
@[simp] theorem wr64_nearMarks (p o v : Nat) : (wr64 p o v s).nearMarks = s.nearMarks := (wrB_nearMarks _ _ _ _ _).trans (wrB_nearMarks s _ _ _ _)
@[simp] theorem wr64_committed (p o v : Nat) : (wr64 p o v s).committed = s.committed := (wrB_committed _ _ _ _ _).trans (wrB_committed s _ _ _ _)
@[simp] theorem wr64_units (p o v : Nat) : (wr64 p o v s).units = s.units := (wrB_units _ _ _ _ _).trans (wrB_units s _ _ _ _)
@[simp] theorem wr64_prot (p o v : Nat) : (wr64 p o v s).prot = s.prot := (wrB_prot _ _ _ _ _).trans (wrB_prot s _ _ _ _)
@[simp] theorem wr64_slices (p o v : Nat) : (wr64 p o v s).slices = s.slices := (wrB_slices _ _ _ _ _).trans (wrB_slices s _ _ _ _)
@[simp] theorem wr64_shadows (p o v : Nat) : (wr64 p o v s).shadows = s.shadows := (wrB_shadows _ _ _ _ _).trans (wrB_shadows s _ _ _ _)
@[simp] theorem wr64_org (p o v : Nat) : (wr64 p o v s).org = s.org := (wrB_org _ _ _ _ _).trans (wrB_org s _ _ _ _)
@[simp] theorem wr64_snap (p o v : Nat) : (wr64 p o v s).snap = s.snap := (wrB_snap _ _ _ _ _).trans (wrB_snap s _ _ _ _)
@[simp] theorem wr64_xlate (p o v : Nat) : (wr64 p o v s).xlate = s.xlate := (wrB_xlate _ _ _ _ _).trans (wrB_xlate s _ _ _ _)
@[simp] theorem wr64_memctl (p o v : Nat) : (wr64 p o v s).memctl = s.memctl := (wrB_memctl _ _ _ _ _).trans (wrB_memctl s _ _ _ _)
@[simp] theorem wr64_felt (p o v : Nat) : (wr64 p o v s).felt = s.felt := (wrB_felt _ _ _ _ _).trans (wrB_felt s _ _ _ _)
@[simp] theorem wr64_tiles (p o v : Nat) : (wr64 p o v s).tiles = s.tiles := (wrB_tiles _ _ _ _ _).trans (wrB_tiles s _ _ _ _)
@[simp] theorem wr64_nor (p o v : Nat) : (wr64 p o v s).nor = s.nor := (wrB_nor _ _ _ _ _).trans (wrB_nor s _ _ _ _)
@[simp] theorem wr64_disp (p o v : Nat) : (wr64 p o v s).disp = s.disp := (wrB_disp _ _ _ _ _).trans (wrB_disp s _ _ _ _)
@[simp] theorem wr64_steward (p o v : Nat) : (wr64 p o v s).steward = s.steward := (wrB_steward _ _ _ _ _).trans (wrB_steward s _ _ _ _)
@[simp] theorem wr64_xfer (p o v : Nat) : (wr64 p o v s).xfer = s.xfer := (wrB_xfer _ _ _ _ _).trans (wrB_xfer s _ _ _ _)
@[simp] theorem wr64_links (p o v : Nat) : (wr64 p o v s).links = s.links := (wrB_links _ _ _ _ _).trans (wrB_links s _ _ _ _)
@[simp] theorem wr64_recov (p o v : Nat) : (wr64 p o v s).recov = s.recov := (wrB_recov _ _ _ _ _).trans (wrB_recov s _ _ _ _)
@[simp] theorem wr64_power (p o v : Nat) : (wr64 p o v s).power = s.power := (wrB_power _ _ _ _ _).trans (wrB_power s _ _ _ _)
@[simp] theorem wr64_boot (p o v : Nat) : (wr64 p o v s).boot = s.boot := (wrB_boot _ _ _ _ _).trans (wrB_boot s _ _ _ _)
@[simp] theorem wr64_spdm (p o v : Nat) : (wr64 p o v s).spdm = s.spdm := (wrB_spdm _ _ _ _ _).trans (wrB_spdm s _ _ _ _)
@[simp] theorem wr64_host (p o v : Nat) : (wr64 p o v s).host = s.host := (wrB_host _ _ _ _ _).trans (wrB_host s _ _ _ _)
@[simp] theorem wr64_mmc (p o v : Nat) : (wr64 p o v s).mmc = s.mmc := (wrB_mmc _ _ _ _ _).trans (wrB_mmc s _ _ _ _)
@[simp] theorem wr64_ringProg (p o v : Nat) : (wr64 p o v s).ringProg = s.ringProg := (wrB_ringProg _ _ _ _ _).trans (wrB_ringProg s _ _ _ _)

/-! ### satInc changes regs -/

@[simp] theorem satInc_pending (p o n : Nat) : (satInc p o n s).pending = s.pending := wr_pending s _ _ _
@[simp] theorem satInc_now (p o n : Nat) : (satInc p o n s).now = s.now := wr_now s _ _ _
@[simp] theorem satInc_out (p o n : Nat) : (satInc p o n s).out = s.out := wr_out s _ _ _
@[simp] theorem satInc_freeCtr (p o n : Nat) : (satInc p o n s).freeCtr = s.freeCtr := wr_freeCtr s _ _ _
@[simp] theorem satInc_alertN (p o n : Nat) : (satInc p o n s).alertN = s.alertN := wr_alertN s _ _ _
@[simp] theorem satInc_inHold (p o n : Nat) : (satInc p o n s).inHold = s.inHold := wr_inHold s _ _ _
@[simp] theorem satInc_mem (p o n : Nat) : (satInc p o n s).mem = s.mem := wr_mem s _ _ _
@[simp] theorem satInc_nearMarks (p o n : Nat) : (satInc p o n s).nearMarks = s.nearMarks := wr_nearMarks s _ _ _
@[simp] theorem satInc_committed (p o n : Nat) : (satInc p o n s).committed = s.committed := wr_committed s _ _ _
@[simp] theorem satInc_units (p o n : Nat) : (satInc p o n s).units = s.units := wr_units s _ _ _
@[simp] theorem satInc_prot (p o n : Nat) : (satInc p o n s).prot = s.prot := wr_prot s _ _ _
@[simp] theorem satInc_slices (p o n : Nat) : (satInc p o n s).slices = s.slices := wr_slices s _ _ _
@[simp] theorem satInc_shadows (p o n : Nat) : (satInc p o n s).shadows = s.shadows := wr_shadows s _ _ _
@[simp] theorem satInc_org (p o n : Nat) : (satInc p o n s).org = s.org := wr_org s _ _ _
@[simp] theorem satInc_snap (p o n : Nat) : (satInc p o n s).snap = s.snap := wr_snap s _ _ _
@[simp] theorem satInc_xlate (p o n : Nat) : (satInc p o n s).xlate = s.xlate := wr_xlate s _ _ _
@[simp] theorem satInc_memctl (p o n : Nat) : (satInc p o n s).memctl = s.memctl := wr_memctl s _ _ _
@[simp] theorem satInc_felt (p o n : Nat) : (satInc p o n s).felt = s.felt := wr_felt s _ _ _
@[simp] theorem satInc_tiles (p o n : Nat) : (satInc p o n s).tiles = s.tiles := wr_tiles s _ _ _
@[simp] theorem satInc_nor (p o n : Nat) : (satInc p o n s).nor = s.nor := wr_nor s _ _ _
@[simp] theorem satInc_disp (p o n : Nat) : (satInc p o n s).disp = s.disp := wr_disp s _ _ _
@[simp] theorem satInc_steward (p o n : Nat) : (satInc p o n s).steward = s.steward := wr_steward s _ _ _
@[simp] theorem satInc_xfer (p o n : Nat) : (satInc p o n s).xfer = s.xfer := wr_xfer s _ _ _
@[simp] theorem satInc_links (p o n : Nat) : (satInc p o n s).links = s.links := wr_links s _ _ _
@[simp] theorem satInc_recov (p o n : Nat) : (satInc p o n s).recov = s.recov := wr_recov s _ _ _
@[simp] theorem satInc_power (p o n : Nat) : (satInc p o n s).power = s.power := wr_power s _ _ _
@[simp] theorem satInc_boot (p o n : Nat) : (satInc p o n s).boot = s.boot := wr_boot s _ _ _
@[simp] theorem satInc_spdm (p o n : Nat) : (satInc p o n s).spdm = s.spdm := wr_spdm s _ _ _
@[simp] theorem satInc_host (p o n : Nat) : (satInc p o n s).host = s.host := wr_host s _ _ _
@[simp] theorem satInc_mmc (p o n : Nat) : (satInc p o n s).mmc = s.mmc := wr_mmc s _ _ _
@[simp] theorem satInc_ringProg (p o n : Nat) : (satInc p o n s).ringProg = s.ringProg := wr_ringProg s _ _ _

/-! ### add64 changes regs -/

@[simp] theorem add64_pending (p o n : Nat) : (add64 p o n s).pending = s.pending := wr64_pending s _ _ _
@[simp] theorem add64_now (p o n : Nat) : (add64 p o n s).now = s.now := wr64_now s _ _ _
@[simp] theorem add64_out (p o n : Nat) : (add64 p o n s).out = s.out := wr64_out s _ _ _
@[simp] theorem add64_freeCtr (p o n : Nat) : (add64 p o n s).freeCtr = s.freeCtr := wr64_freeCtr s _ _ _
@[simp] theorem add64_alertN (p o n : Nat) : (add64 p o n s).alertN = s.alertN := wr64_alertN s _ _ _
@[simp] theorem add64_inHold (p o n : Nat) : (add64 p o n s).inHold = s.inHold := wr64_inHold s _ _ _
@[simp] theorem add64_mem (p o n : Nat) : (add64 p o n s).mem = s.mem := wr64_mem s _ _ _
@[simp] theorem add64_nearMarks (p o n : Nat) : (add64 p o n s).nearMarks = s.nearMarks := wr64_nearMarks s _ _ _
@[simp] theorem add64_committed (p o n : Nat) : (add64 p o n s).committed = s.committed := wr64_committed s _ _ _
@[simp] theorem add64_units (p o n : Nat) : (add64 p o n s).units = s.units := wr64_units s _ _ _
@[simp] theorem add64_prot (p o n : Nat) : (add64 p o n s).prot = s.prot := wr64_prot s _ _ _
@[simp] theorem add64_slices (p o n : Nat) : (add64 p o n s).slices = s.slices := wr64_slices s _ _ _
@[simp] theorem add64_shadows (p o n : Nat) : (add64 p o n s).shadows = s.shadows := wr64_shadows s _ _ _
@[simp] theorem add64_org (p o n : Nat) : (add64 p o n s).org = s.org := wr64_org s _ _ _
@[simp] theorem add64_snap (p o n : Nat) : (add64 p o n s).snap = s.snap := wr64_snap s _ _ _
@[simp] theorem add64_xlate (p o n : Nat) : (add64 p o n s).xlate = s.xlate := wr64_xlate s _ _ _
@[simp] theorem add64_memctl (p o n : Nat) : (add64 p o n s).memctl = s.memctl := wr64_memctl s _ _ _
@[simp] theorem add64_felt (p o n : Nat) : (add64 p o n s).felt = s.felt := wr64_felt s _ _ _
@[simp] theorem add64_tiles (p o n : Nat) : (add64 p o n s).tiles = s.tiles := wr64_tiles s _ _ _
@[simp] theorem add64_nor (p o n : Nat) : (add64 p o n s).nor = s.nor := wr64_nor s _ _ _
@[simp] theorem add64_disp (p o n : Nat) : (add64 p o n s).disp = s.disp := wr64_disp s _ _ _
@[simp] theorem add64_steward (p o n : Nat) : (add64 p o n s).steward = s.steward := wr64_steward s _ _ _
@[simp] theorem add64_xfer (p o n : Nat) : (add64 p o n s).xfer = s.xfer := wr64_xfer s _ _ _
@[simp] theorem add64_links (p o n : Nat) : (add64 p o n s).links = s.links := wr64_links s _ _ _
@[simp] theorem add64_recov (p o n : Nat) : (add64 p o n s).recov = s.recov := wr64_recov s _ _ _
@[simp] theorem add64_power (p o n : Nat) : (add64 p o n s).power = s.power := wr64_power s _ _ _
@[simp] theorem add64_boot (p o n : Nat) : (add64 p o n s).boot = s.boot := wr64_boot s _ _ _
@[simp] theorem add64_spdm (p o n : Nat) : (add64 p o n s).spdm = s.spdm := wr64_spdm s _ _ _
@[simp] theorem add64_host (p o n : Nat) : (add64 p o n s).host = s.host := wr64_host s _ _ _
@[simp] theorem add64_mmc (p o n : Nat) : (add64 p o n s).mmc = s.mmc := wr64_mmc s _ _ _
@[simp] theorem add64_ringProg (p o n : Nat) : (add64 p o n s).ringProg = s.ringProg := wr64_ringProg s _ _ _

/-! ### inc32 changes regs -/

@[simp] theorem inc32_pending (p o n : Nat) : (inc32 p o n s).pending = s.pending := wr_pending s _ _ _
@[simp] theorem inc32_now (p o n : Nat) : (inc32 p o n s).now = s.now := wr_now s _ _ _
@[simp] theorem inc32_out (p o n : Nat) : (inc32 p o n s).out = s.out := wr_out s _ _ _
@[simp] theorem inc32_freeCtr (p o n : Nat) : (inc32 p o n s).freeCtr = s.freeCtr := wr_freeCtr s _ _ _
@[simp] theorem inc32_alertN (p o n : Nat) : (inc32 p o n s).alertN = s.alertN := wr_alertN s _ _ _
@[simp] theorem inc32_inHold (p o n : Nat) : (inc32 p o n s).inHold = s.inHold := wr_inHold s _ _ _
@[simp] theorem inc32_mem (p o n : Nat) : (inc32 p o n s).mem = s.mem := wr_mem s _ _ _
@[simp] theorem inc32_nearMarks (p o n : Nat) : (inc32 p o n s).nearMarks = s.nearMarks := wr_nearMarks s _ _ _
@[simp] theorem inc32_committed (p o n : Nat) : (inc32 p o n s).committed = s.committed := wr_committed s _ _ _
@[simp] theorem inc32_units (p o n : Nat) : (inc32 p o n s).units = s.units := wr_units s _ _ _
@[simp] theorem inc32_prot (p o n : Nat) : (inc32 p o n s).prot = s.prot := wr_prot s _ _ _
@[simp] theorem inc32_slices (p o n : Nat) : (inc32 p o n s).slices = s.slices := wr_slices s _ _ _
@[simp] theorem inc32_shadows (p o n : Nat) : (inc32 p o n s).shadows = s.shadows := wr_shadows s _ _ _
@[simp] theorem inc32_org (p o n : Nat) : (inc32 p o n s).org = s.org := wr_org s _ _ _
@[simp] theorem inc32_snap (p o n : Nat) : (inc32 p o n s).snap = s.snap := wr_snap s _ _ _
@[simp] theorem inc32_xlate (p o n : Nat) : (inc32 p o n s).xlate = s.xlate := wr_xlate s _ _ _
@[simp] theorem inc32_memctl (p o n : Nat) : (inc32 p o n s).memctl = s.memctl := wr_memctl s _ _ _
@[simp] theorem inc32_felt (p o n : Nat) : (inc32 p o n s).felt = s.felt := wr_felt s _ _ _
@[simp] theorem inc32_tiles (p o n : Nat) : (inc32 p o n s).tiles = s.tiles := wr_tiles s _ _ _
@[simp] theorem inc32_nor (p o n : Nat) : (inc32 p o n s).nor = s.nor := wr_nor s _ _ _
@[simp] theorem inc32_disp (p o n : Nat) : (inc32 p o n s).disp = s.disp := wr_disp s _ _ _
@[simp] theorem inc32_steward (p o n : Nat) : (inc32 p o n s).steward = s.steward := wr_steward s _ _ _
@[simp] theorem inc32_xfer (p o n : Nat) : (inc32 p o n s).xfer = s.xfer := wr_xfer s _ _ _
@[simp] theorem inc32_links (p o n : Nat) : (inc32 p o n s).links = s.links := wr_links s _ _ _
@[simp] theorem inc32_recov (p o n : Nat) : (inc32 p o n s).recov = s.recov := wr_recov s _ _ _
@[simp] theorem inc32_power (p o n : Nat) : (inc32 p o n s).power = s.power := wr_power s _ _ _
@[simp] theorem inc32_boot (p o n : Nat) : (inc32 p o n s).boot = s.boot := wr_boot s _ _ _
@[simp] theorem inc32_spdm (p o n : Nat) : (inc32 p o n s).spdm = s.spdm := wr_spdm s _ _ _
@[simp] theorem inc32_host (p o n : Nat) : (inc32 p o n s).host = s.host := wr_host s _ _ _
@[simp] theorem inc32_mmc (p o n : Nat) : (inc32 p o n s).mmc = s.mmc := wr_mmc s _ _ _
@[simp] theorem inc32_ringProg (p o n : Nat) : (inc32 p o n s).ringProg = s.ringProg := wr_ringProg s _ _ _

/-! ### setUnit changes units -/

@[simp] theorem setUnit_pending (p : Nat) (u : UnitSt) : (setUnit p u s).pending = s.pending := rfl
@[simp] theorem setUnit_now (p : Nat) (u : UnitSt) : (setUnit p u s).now = s.now := rfl
@[simp] theorem setUnit_out (p : Nat) (u : UnitSt) : (setUnit p u s).out = s.out := rfl
@[simp] theorem setUnit_freeCtr (p : Nat) (u : UnitSt) : (setUnit p u s).freeCtr = s.freeCtr := rfl
@[simp] theorem setUnit_alertN (p : Nat) (u : UnitSt) : (setUnit p u s).alertN = s.alertN := rfl
@[simp] theorem setUnit_inHold (p : Nat) (u : UnitSt) : (setUnit p u s).inHold = s.inHold := rfl
@[simp] theorem setUnit_mem (p : Nat) (u : UnitSt) : (setUnit p u s).mem = s.mem := rfl
@[simp] theorem setUnit_nearMarks (p : Nat) (u : UnitSt) : (setUnit p u s).nearMarks = s.nearMarks := rfl
@[simp] theorem setUnit_regs (p : Nat) (u : UnitSt) : (setUnit p u s).regs = s.regs := rfl
@[simp] theorem setUnit_committed (p : Nat) (u : UnitSt) : (setUnit p u s).committed = s.committed := rfl
@[simp] theorem setUnit_prot (p : Nat) (u : UnitSt) : (setUnit p u s).prot = s.prot := rfl
@[simp] theorem setUnit_slices (p : Nat) (u : UnitSt) : (setUnit p u s).slices = s.slices := rfl
@[simp] theorem setUnit_shadows (p : Nat) (u : UnitSt) : (setUnit p u s).shadows = s.shadows := rfl
@[simp] theorem setUnit_org (p : Nat) (u : UnitSt) : (setUnit p u s).org = s.org := rfl
@[simp] theorem setUnit_snap (p : Nat) (u : UnitSt) : (setUnit p u s).snap = s.snap := rfl
@[simp] theorem setUnit_xlate (p : Nat) (u : UnitSt) : (setUnit p u s).xlate = s.xlate := rfl
@[simp] theorem setUnit_memctl (p : Nat) (u : UnitSt) : (setUnit p u s).memctl = s.memctl := rfl
@[simp] theorem setUnit_felt (p : Nat) (u : UnitSt) : (setUnit p u s).felt = s.felt := rfl
@[simp] theorem setUnit_tiles (p : Nat) (u : UnitSt) : (setUnit p u s).tiles = s.tiles := rfl
@[simp] theorem setUnit_nor (p : Nat) (u : UnitSt) : (setUnit p u s).nor = s.nor := rfl
@[simp] theorem setUnit_disp (p : Nat) (u : UnitSt) : (setUnit p u s).disp = s.disp := rfl
@[simp] theorem setUnit_steward (p : Nat) (u : UnitSt) : (setUnit p u s).steward = s.steward := rfl
@[simp] theorem setUnit_xfer (p : Nat) (u : UnitSt) : (setUnit p u s).xfer = s.xfer := rfl
@[simp] theorem setUnit_links (p : Nat) (u : UnitSt) : (setUnit p u s).links = s.links := rfl
@[simp] theorem setUnit_recov (p : Nat) (u : UnitSt) : (setUnit p u s).recov = s.recov := rfl
@[simp] theorem setUnit_power (p : Nat) (u : UnitSt) : (setUnit p u s).power = s.power := rfl
@[simp] theorem setUnit_boot (p : Nat) (u : UnitSt) : (setUnit p u s).boot = s.boot := rfl
@[simp] theorem setUnit_spdm (p : Nat) (u : UnitSt) : (setUnit p u s).spdm = s.spdm := rfl
@[simp] theorem setUnit_host (p : Nat) (u : UnitSt) : (setUnit p u s).host = s.host := rfl
@[simp] theorem setUnit_mmc (p : Nat) (u : UnitSt) : (setUnit p u s).mmc = s.mmc := rfl
@[simp] theorem setUnit_ringProg (p : Nat) (u : UnitSt) : (setUnit p u s).ringProg = s.ringProg := rfl

/-! ### setTile changes tiles -/

@[simp] theorem setTile_pending (d u : Nat) (t : TileSt) : (setTile d u t s).pending = s.pending := rfl
@[simp] theorem setTile_now (d u : Nat) (t : TileSt) : (setTile d u t s).now = s.now := rfl
@[simp] theorem setTile_out (d u : Nat) (t : TileSt) : (setTile d u t s).out = s.out := rfl
@[simp] theorem setTile_freeCtr (d u : Nat) (t : TileSt) : (setTile d u t s).freeCtr = s.freeCtr := rfl
@[simp] theorem setTile_alertN (d u : Nat) (t : TileSt) : (setTile d u t s).alertN = s.alertN := rfl
@[simp] theorem setTile_inHold (d u : Nat) (t : TileSt) : (setTile d u t s).inHold = s.inHold := rfl
@[simp] theorem setTile_mem (d u : Nat) (t : TileSt) : (setTile d u t s).mem = s.mem := rfl
@[simp] theorem setTile_nearMarks (d u : Nat) (t : TileSt) : (setTile d u t s).nearMarks = s.nearMarks := rfl
@[simp] theorem setTile_regs (d u : Nat) (t : TileSt) : (setTile d u t s).regs = s.regs := rfl
@[simp] theorem setTile_committed (d u : Nat) (t : TileSt) : (setTile d u t s).committed = s.committed := rfl
@[simp] theorem setTile_units (d u : Nat) (t : TileSt) : (setTile d u t s).units = s.units := rfl
@[simp] theorem setTile_prot (d u : Nat) (t : TileSt) : (setTile d u t s).prot = s.prot := rfl
@[simp] theorem setTile_slices (d u : Nat) (t : TileSt) : (setTile d u t s).slices = s.slices := rfl
@[simp] theorem setTile_shadows (d u : Nat) (t : TileSt) : (setTile d u t s).shadows = s.shadows := rfl
@[simp] theorem setTile_org (d u : Nat) (t : TileSt) : (setTile d u t s).org = s.org := rfl
@[simp] theorem setTile_snap (d u : Nat) (t : TileSt) : (setTile d u t s).snap = s.snap := rfl
@[simp] theorem setTile_xlate (d u : Nat) (t : TileSt) : (setTile d u t s).xlate = s.xlate := rfl
@[simp] theorem setTile_memctl (d u : Nat) (t : TileSt) : (setTile d u t s).memctl = s.memctl := rfl
@[simp] theorem setTile_felt (d u : Nat) (t : TileSt) : (setTile d u t s).felt = s.felt := rfl
@[simp] theorem setTile_nor (d u : Nat) (t : TileSt) : (setTile d u t s).nor = s.nor := rfl
@[simp] theorem setTile_disp (d u : Nat) (t : TileSt) : (setTile d u t s).disp = s.disp := rfl
@[simp] theorem setTile_steward (d u : Nat) (t : TileSt) : (setTile d u t s).steward = s.steward := rfl
@[simp] theorem setTile_xfer (d u : Nat) (t : TileSt) : (setTile d u t s).xfer = s.xfer := rfl
@[simp] theorem setTile_links (d u : Nat) (t : TileSt) : (setTile d u t s).links = s.links := rfl
@[simp] theorem setTile_recov (d u : Nat) (t : TileSt) : (setTile d u t s).recov = s.recov := rfl
@[simp] theorem setTile_power (d u : Nat) (t : TileSt) : (setTile d u t s).power = s.power := rfl
@[simp] theorem setTile_boot (d u : Nat) (t : TileSt) : (setTile d u t s).boot = s.boot := rfl
@[simp] theorem setTile_spdm (d u : Nat) (t : TileSt) : (setTile d u t s).spdm = s.spdm := rfl
@[simp] theorem setTile_host (d u : Nat) (t : TileSt) : (setTile d u t s).host = s.host := rfl
@[simp] theorem setTile_mmc (d u : Nat) (t : TileSt) : (setTile d u t s).mmc = s.mmc := rfl
@[simp] theorem setTile_ringProg (d u : Nat) (t : TileSt) : (setTile d u t s).ringProg = s.ringProg := rfl

/-! ### setSliceSt changes slices -/

@[simp] theorem setSliceSt_pending (n : Nat) (v : SliceSt) : (setSliceSt n v s).pending = s.pending := rfl
@[simp] theorem setSliceSt_now (n : Nat) (v : SliceSt) : (setSliceSt n v s).now = s.now := rfl
@[simp] theorem setSliceSt_out (n : Nat) (v : SliceSt) : (setSliceSt n v s).out = s.out := rfl
@[simp] theorem setSliceSt_freeCtr (n : Nat) (v : SliceSt) : (setSliceSt n v s).freeCtr = s.freeCtr := rfl
@[simp] theorem setSliceSt_alertN (n : Nat) (v : SliceSt) : (setSliceSt n v s).alertN = s.alertN := rfl
@[simp] theorem setSliceSt_inHold (n : Nat) (v : SliceSt) : (setSliceSt n v s).inHold = s.inHold := rfl
@[simp] theorem setSliceSt_mem (n : Nat) (v : SliceSt) : (setSliceSt n v s).mem = s.mem := rfl
@[simp] theorem setSliceSt_nearMarks (n : Nat) (v : SliceSt) : (setSliceSt n v s).nearMarks = s.nearMarks := rfl
@[simp] theorem setSliceSt_regs (n : Nat) (v : SliceSt) : (setSliceSt n v s).regs = s.regs := rfl
@[simp] theorem setSliceSt_committed (n : Nat) (v : SliceSt) : (setSliceSt n v s).committed = s.committed := rfl
@[simp] theorem setSliceSt_units (n : Nat) (v : SliceSt) : (setSliceSt n v s).units = s.units := rfl
@[simp] theorem setSliceSt_prot (n : Nat) (v : SliceSt) : (setSliceSt n v s).prot = s.prot := rfl
@[simp] theorem setSliceSt_shadows (n : Nat) (v : SliceSt) : (setSliceSt n v s).shadows = s.shadows := rfl
@[simp] theorem setSliceSt_org (n : Nat) (v : SliceSt) : (setSliceSt n v s).org = s.org := rfl
@[simp] theorem setSliceSt_snap (n : Nat) (v : SliceSt) : (setSliceSt n v s).snap = s.snap := rfl
@[simp] theorem setSliceSt_xlate (n : Nat) (v : SliceSt) : (setSliceSt n v s).xlate = s.xlate := rfl
@[simp] theorem setSliceSt_memctl (n : Nat) (v : SliceSt) : (setSliceSt n v s).memctl = s.memctl := rfl
@[simp] theorem setSliceSt_felt (n : Nat) (v : SliceSt) : (setSliceSt n v s).felt = s.felt := rfl
@[simp] theorem setSliceSt_tiles (n : Nat) (v : SliceSt) : (setSliceSt n v s).tiles = s.tiles := rfl
@[simp] theorem setSliceSt_nor (n : Nat) (v : SliceSt) : (setSliceSt n v s).nor = s.nor := rfl
@[simp] theorem setSliceSt_disp (n : Nat) (v : SliceSt) : (setSliceSt n v s).disp = s.disp := rfl
@[simp] theorem setSliceSt_steward (n : Nat) (v : SliceSt) : (setSliceSt n v s).steward = s.steward := rfl
@[simp] theorem setSliceSt_xfer (n : Nat) (v : SliceSt) : (setSliceSt n v s).xfer = s.xfer := rfl
@[simp] theorem setSliceSt_links (n : Nat) (v : SliceSt) : (setSliceSt n v s).links = s.links := rfl
@[simp] theorem setSliceSt_recov (n : Nat) (v : SliceSt) : (setSliceSt n v s).recov = s.recov := rfl
@[simp] theorem setSliceSt_power (n : Nat) (v : SliceSt) : (setSliceSt n v s).power = s.power := rfl
@[simp] theorem setSliceSt_boot (n : Nat) (v : SliceSt) : (setSliceSt n v s).boot = s.boot := rfl
@[simp] theorem setSliceSt_spdm (n : Nat) (v : SliceSt) : (setSliceSt n v s).spdm = s.spdm := rfl
@[simp] theorem setSliceSt_host (n : Nat) (v : SliceSt) : (setSliceSt n v s).host = s.host := rfl
@[simp] theorem setSliceSt_mmc (n : Nat) (v : SliceSt) : (setSliceSt n v s).mmc = s.mmc := rfl
@[simp] theorem setSliceSt_ringProg (n : Nat) (v : SliceSt) : (setSliceSt n v s).ringProg = s.ringProg := rfl

/-! ### setMemCtl changes memctl -/

@[simp] theorem setMemCtl_pending (d : Nat) (m : MemCtl) : (setMemCtl d m s).pending = s.pending := rfl
@[simp] theorem setMemCtl_now (d : Nat) (m : MemCtl) : (setMemCtl d m s).now = s.now := rfl
@[simp] theorem setMemCtl_out (d : Nat) (m : MemCtl) : (setMemCtl d m s).out = s.out := rfl
@[simp] theorem setMemCtl_freeCtr (d : Nat) (m : MemCtl) : (setMemCtl d m s).freeCtr = s.freeCtr := rfl
@[simp] theorem setMemCtl_alertN (d : Nat) (m : MemCtl) : (setMemCtl d m s).alertN = s.alertN := rfl
@[simp] theorem setMemCtl_inHold (d : Nat) (m : MemCtl) : (setMemCtl d m s).inHold = s.inHold := rfl
@[simp] theorem setMemCtl_mem (d : Nat) (m : MemCtl) : (setMemCtl d m s).mem = s.mem := rfl
@[simp] theorem setMemCtl_nearMarks (d : Nat) (m : MemCtl) : (setMemCtl d m s).nearMarks = s.nearMarks := rfl
@[simp] theorem setMemCtl_regs (d : Nat) (m : MemCtl) : (setMemCtl d m s).regs = s.regs := rfl
@[simp] theorem setMemCtl_committed (d : Nat) (m : MemCtl) : (setMemCtl d m s).committed = s.committed := rfl
@[simp] theorem setMemCtl_units (d : Nat) (m : MemCtl) : (setMemCtl d m s).units = s.units := rfl
@[simp] theorem setMemCtl_prot (d : Nat) (m : MemCtl) : (setMemCtl d m s).prot = s.prot := rfl
@[simp] theorem setMemCtl_slices (d : Nat) (m : MemCtl) : (setMemCtl d m s).slices = s.slices := rfl
@[simp] theorem setMemCtl_shadows (d : Nat) (m : MemCtl) : (setMemCtl d m s).shadows = s.shadows := rfl
@[simp] theorem setMemCtl_org (d : Nat) (m : MemCtl) : (setMemCtl d m s).org = s.org := rfl
@[simp] theorem setMemCtl_snap (d : Nat) (m : MemCtl) : (setMemCtl d m s).snap = s.snap := rfl
@[simp] theorem setMemCtl_xlate (d : Nat) (m : MemCtl) : (setMemCtl d m s).xlate = s.xlate := rfl
@[simp] theorem setMemCtl_felt (d : Nat) (m : MemCtl) : (setMemCtl d m s).felt = s.felt := rfl
@[simp] theorem setMemCtl_tiles (d : Nat) (m : MemCtl) : (setMemCtl d m s).tiles = s.tiles := rfl
@[simp] theorem setMemCtl_nor (d : Nat) (m : MemCtl) : (setMemCtl d m s).nor = s.nor := rfl
@[simp] theorem setMemCtl_disp (d : Nat) (m : MemCtl) : (setMemCtl d m s).disp = s.disp := rfl
@[simp] theorem setMemCtl_steward (d : Nat) (m : MemCtl) : (setMemCtl d m s).steward = s.steward := rfl
@[simp] theorem setMemCtl_xfer (d : Nat) (m : MemCtl) : (setMemCtl d m s).xfer = s.xfer := rfl
@[simp] theorem setMemCtl_links (d : Nat) (m : MemCtl) : (setMemCtl d m s).links = s.links := rfl
@[simp] theorem setMemCtl_recov (d : Nat) (m : MemCtl) : (setMemCtl d m s).recov = s.recov := rfl
@[simp] theorem setMemCtl_power (d : Nat) (m : MemCtl) : (setMemCtl d m s).power = s.power := rfl
@[simp] theorem setMemCtl_boot (d : Nat) (m : MemCtl) : (setMemCtl d m s).boot = s.boot := rfl
@[simp] theorem setMemCtl_spdm (d : Nat) (m : MemCtl) : (setMemCtl d m s).spdm = s.spdm := rfl
@[simp] theorem setMemCtl_host (d : Nat) (m : MemCtl) : (setMemCtl d m s).host = s.host := rfl
@[simp] theorem setMemCtl_mmc (d : Nat) (m : MemCtl) : (setMemCtl d m s).mmc = s.mmc := rfl
@[simp] theorem setMemCtl_ringProg (d : Nat) (m : MemCtl) : (setMemCtl d m s).ringProg = s.ringProg := rfl

/-! ### emit changes out -/

@[simp] theorem emit_pending (o : Out) : (emit o s).pending = s.pending := rfl
@[simp] theorem emit_now (o : Out) : (emit o s).now = s.now := rfl
@[simp] theorem emit_freeCtr (o : Out) : (emit o s).freeCtr = s.freeCtr := rfl
@[simp] theorem emit_alertN (o : Out) : (emit o s).alertN = s.alertN := rfl
@[simp] theorem emit_inHold (o : Out) : (emit o s).inHold = s.inHold := rfl
@[simp] theorem emit_mem (o : Out) : (emit o s).mem = s.mem := rfl
@[simp] theorem emit_nearMarks (o : Out) : (emit o s).nearMarks = s.nearMarks := rfl
@[simp] theorem emit_regs (o : Out) : (emit o s).regs = s.regs := rfl
@[simp] theorem emit_committed (o : Out) : (emit o s).committed = s.committed := rfl
@[simp] theorem emit_units (o : Out) : (emit o s).units = s.units := rfl
@[simp] theorem emit_prot (o : Out) : (emit o s).prot = s.prot := rfl
@[simp] theorem emit_slices (o : Out) : (emit o s).slices = s.slices := rfl
@[simp] theorem emit_shadows (o : Out) : (emit o s).shadows = s.shadows := rfl
@[simp] theorem emit_org (o : Out) : (emit o s).org = s.org := rfl
@[simp] theorem emit_snap (o : Out) : (emit o s).snap = s.snap := rfl
@[simp] theorem emit_xlate (o : Out) : (emit o s).xlate = s.xlate := rfl
@[simp] theorem emit_memctl (o : Out) : (emit o s).memctl = s.memctl := rfl
@[simp] theorem emit_felt (o : Out) : (emit o s).felt = s.felt := rfl
@[simp] theorem emit_tiles (o : Out) : (emit o s).tiles = s.tiles := rfl
@[simp] theorem emit_nor (o : Out) : (emit o s).nor = s.nor := rfl
@[simp] theorem emit_disp (o : Out) : (emit o s).disp = s.disp := rfl
@[simp] theorem emit_steward (o : Out) : (emit o s).steward = s.steward := rfl
@[simp] theorem emit_xfer (o : Out) : (emit o s).xfer = s.xfer := rfl
@[simp] theorem emit_links (o : Out) : (emit o s).links = s.links := rfl
@[simp] theorem emit_recov (o : Out) : (emit o s).recov = s.recov := rfl
@[simp] theorem emit_power (o : Out) : (emit o s).power = s.power := rfl
@[simp] theorem emit_boot (o : Out) : (emit o s).boot = s.boot := rfl
@[simp] theorem emit_spdm (o : Out) : (emit o s).spdm = s.spdm := rfl
@[simp] theorem emit_host (o : Out) : (emit o s).host = s.host := rfl
@[simp] theorem emit_mmc (o : Out) : (emit o s).mmc = s.mmc := rfl
@[simp] theorem emit_ringProg (o : Out) : (emit o s).ringProg = s.ringProg := rfl

/-! ### tickFree changes freeCtr -/

@[simp] theorem tickFree_pending (n : Nat) : (tickFree n s).pending = s.pending := rfl
@[simp] theorem tickFree_now (n : Nat) : (tickFree n s).now = s.now := rfl
@[simp] theorem tickFree_out (n : Nat) : (tickFree n s).out = s.out := rfl
@[simp] theorem tickFree_alertN (n : Nat) : (tickFree n s).alertN = s.alertN := rfl
@[simp] theorem tickFree_inHold (n : Nat) : (tickFree n s).inHold = s.inHold := rfl
@[simp] theorem tickFree_mem (n : Nat) : (tickFree n s).mem = s.mem := rfl
@[simp] theorem tickFree_nearMarks (n : Nat) : (tickFree n s).nearMarks = s.nearMarks := rfl
@[simp] theorem tickFree_regs (n : Nat) : (tickFree n s).regs = s.regs := rfl
@[simp] theorem tickFree_committed (n : Nat) : (tickFree n s).committed = s.committed := rfl
@[simp] theorem tickFree_units (n : Nat) : (tickFree n s).units = s.units := rfl
@[simp] theorem tickFree_prot (n : Nat) : (tickFree n s).prot = s.prot := rfl
@[simp] theorem tickFree_slices (n : Nat) : (tickFree n s).slices = s.slices := rfl
@[simp] theorem tickFree_shadows (n : Nat) : (tickFree n s).shadows = s.shadows := rfl
@[simp] theorem tickFree_org (n : Nat) : (tickFree n s).org = s.org := rfl
@[simp] theorem tickFree_snap (n : Nat) : (tickFree n s).snap = s.snap := rfl
@[simp] theorem tickFree_xlate (n : Nat) : (tickFree n s).xlate = s.xlate := rfl
@[simp] theorem tickFree_memctl (n : Nat) : (tickFree n s).memctl = s.memctl := rfl
@[simp] theorem tickFree_felt (n : Nat) : (tickFree n s).felt = s.felt := rfl
@[simp] theorem tickFree_tiles (n : Nat) : (tickFree n s).tiles = s.tiles := rfl
@[simp] theorem tickFree_nor (n : Nat) : (tickFree n s).nor = s.nor := rfl
@[simp] theorem tickFree_disp (n : Nat) : (tickFree n s).disp = s.disp := rfl
@[simp] theorem tickFree_steward (n : Nat) : (tickFree n s).steward = s.steward := rfl
@[simp] theorem tickFree_xfer (n : Nat) : (tickFree n s).xfer = s.xfer := rfl
@[simp] theorem tickFree_links (n : Nat) : (tickFree n s).links = s.links := rfl
@[simp] theorem tickFree_recov (n : Nat) : (tickFree n s).recov = s.recov := rfl
@[simp] theorem tickFree_power (n : Nat) : (tickFree n s).power = s.power := rfl
@[simp] theorem tickFree_boot (n : Nat) : (tickFree n s).boot = s.boot := rfl
@[simp] theorem tickFree_spdm (n : Nat) : (tickFree n s).spdm = s.spdm := rfl
@[simp] theorem tickFree_host (n : Nat) : (tickFree n s).host = s.host := rfl
@[simp] theorem tickFree_mmc (n : Nat) : (tickFree n s).mmc = s.mmc := rfl
@[simp] theorem tickFree_ringProg (n : Nat) : (tickFree n s).ringProg = s.ringProg := rfl

/-! ### wrMem changes mem -/

@[simp] theorem wrMem_pending (a : Nat) (b : Byte) : (wrMem a b s).pending = s.pending := rfl
@[simp] theorem wrMem_now (a : Nat) (b : Byte) : (wrMem a b s).now = s.now := rfl
@[simp] theorem wrMem_out (a : Nat) (b : Byte) : (wrMem a b s).out = s.out := rfl
@[simp] theorem wrMem_freeCtr (a : Nat) (b : Byte) : (wrMem a b s).freeCtr = s.freeCtr := rfl
@[simp] theorem wrMem_alertN (a : Nat) (b : Byte) : (wrMem a b s).alertN = s.alertN := rfl
@[simp] theorem wrMem_inHold (a : Nat) (b : Byte) : (wrMem a b s).inHold = s.inHold := rfl
@[simp] theorem wrMem_nearMarks (a : Nat) (b : Byte) : (wrMem a b s).nearMarks = s.nearMarks := rfl
@[simp] theorem wrMem_regs (a : Nat) (b : Byte) : (wrMem a b s).regs = s.regs := rfl
@[simp] theorem wrMem_committed (a : Nat) (b : Byte) : (wrMem a b s).committed = s.committed := rfl
@[simp] theorem wrMem_units (a : Nat) (b : Byte) : (wrMem a b s).units = s.units := rfl
@[simp] theorem wrMem_prot (a : Nat) (b : Byte) : (wrMem a b s).prot = s.prot := rfl
@[simp] theorem wrMem_slices (a : Nat) (b : Byte) : (wrMem a b s).slices = s.slices := rfl
@[simp] theorem wrMem_shadows (a : Nat) (b : Byte) : (wrMem a b s).shadows = s.shadows := rfl
@[simp] theorem wrMem_org (a : Nat) (b : Byte) : (wrMem a b s).org = s.org := rfl
@[simp] theorem wrMem_snap (a : Nat) (b : Byte) : (wrMem a b s).snap = s.snap := rfl
@[simp] theorem wrMem_xlate (a : Nat) (b : Byte) : (wrMem a b s).xlate = s.xlate := rfl
@[simp] theorem wrMem_memctl (a : Nat) (b : Byte) : (wrMem a b s).memctl = s.memctl := rfl
@[simp] theorem wrMem_felt (a : Nat) (b : Byte) : (wrMem a b s).felt = s.felt := rfl
@[simp] theorem wrMem_tiles (a : Nat) (b : Byte) : (wrMem a b s).tiles = s.tiles := rfl
@[simp] theorem wrMem_nor (a : Nat) (b : Byte) : (wrMem a b s).nor = s.nor := rfl
@[simp] theorem wrMem_disp (a : Nat) (b : Byte) : (wrMem a b s).disp = s.disp := rfl
@[simp] theorem wrMem_steward (a : Nat) (b : Byte) : (wrMem a b s).steward = s.steward := rfl
@[simp] theorem wrMem_xfer (a : Nat) (b : Byte) : (wrMem a b s).xfer = s.xfer := rfl
@[simp] theorem wrMem_links (a : Nat) (b : Byte) : (wrMem a b s).links = s.links := rfl
@[simp] theorem wrMem_recov (a : Nat) (b : Byte) : (wrMem a b s).recov = s.recov := rfl
@[simp] theorem wrMem_power (a : Nat) (b : Byte) : (wrMem a b s).power = s.power := rfl
@[simp] theorem wrMem_boot (a : Nat) (b : Byte) : (wrMem a b s).boot = s.boot := rfl
@[simp] theorem wrMem_spdm (a : Nat) (b : Byte) : (wrMem a b s).spdm = s.spdm := rfl
@[simp] theorem wrMem_host (a : Nat) (b : Byte) : (wrMem a b s).host = s.host := rfl
@[simp] theorem wrMem_mmc (a : Nat) (b : Byte) : (wrMem a b s).mmc = s.mmc := rfl
@[simp] theorem wrMem_ringProg (a : Nat) (b : Byte) : (wrMem a b s).ringProg = s.ringProg := rfl

/-! ### wrNor changes nor -/

@[simp] theorem wrNor_pending (a : Nat) (b : Byte) : (wrNor a b s).pending = s.pending := rfl
@[simp] theorem wrNor_now (a : Nat) (b : Byte) : (wrNor a b s).now = s.now := rfl
@[simp] theorem wrNor_out (a : Nat) (b : Byte) : (wrNor a b s).out = s.out := rfl
@[simp] theorem wrNor_freeCtr (a : Nat) (b : Byte) : (wrNor a b s).freeCtr = s.freeCtr := rfl
@[simp] theorem wrNor_alertN (a : Nat) (b : Byte) : (wrNor a b s).alertN = s.alertN := rfl
@[simp] theorem wrNor_inHold (a : Nat) (b : Byte) : (wrNor a b s).inHold = s.inHold := rfl
@[simp] theorem wrNor_mem (a : Nat) (b : Byte) : (wrNor a b s).mem = s.mem := rfl
@[simp] theorem wrNor_nearMarks (a : Nat) (b : Byte) : (wrNor a b s).nearMarks = s.nearMarks := rfl
@[simp] theorem wrNor_regs (a : Nat) (b : Byte) : (wrNor a b s).regs = s.regs := rfl
@[simp] theorem wrNor_committed (a : Nat) (b : Byte) : (wrNor a b s).committed = s.committed := rfl
@[simp] theorem wrNor_units (a : Nat) (b : Byte) : (wrNor a b s).units = s.units := rfl
@[simp] theorem wrNor_prot (a : Nat) (b : Byte) : (wrNor a b s).prot = s.prot := rfl
@[simp] theorem wrNor_slices (a : Nat) (b : Byte) : (wrNor a b s).slices = s.slices := rfl
@[simp] theorem wrNor_shadows (a : Nat) (b : Byte) : (wrNor a b s).shadows = s.shadows := rfl
@[simp] theorem wrNor_org (a : Nat) (b : Byte) : (wrNor a b s).org = s.org := rfl
@[simp] theorem wrNor_snap (a : Nat) (b : Byte) : (wrNor a b s).snap = s.snap := rfl
@[simp] theorem wrNor_xlate (a : Nat) (b : Byte) : (wrNor a b s).xlate = s.xlate := rfl
@[simp] theorem wrNor_memctl (a : Nat) (b : Byte) : (wrNor a b s).memctl = s.memctl := rfl
@[simp] theorem wrNor_felt (a : Nat) (b : Byte) : (wrNor a b s).felt = s.felt := rfl
@[simp] theorem wrNor_tiles (a : Nat) (b : Byte) : (wrNor a b s).tiles = s.tiles := rfl
@[simp] theorem wrNor_disp (a : Nat) (b : Byte) : (wrNor a b s).disp = s.disp := rfl
@[simp] theorem wrNor_steward (a : Nat) (b : Byte) : (wrNor a b s).steward = s.steward := rfl
@[simp] theorem wrNor_xfer (a : Nat) (b : Byte) : (wrNor a b s).xfer = s.xfer := rfl
@[simp] theorem wrNor_links (a : Nat) (b : Byte) : (wrNor a b s).links = s.links := rfl
@[simp] theorem wrNor_recov (a : Nat) (b : Byte) : (wrNor a b s).recov = s.recov := rfl
@[simp] theorem wrNor_power (a : Nat) (b : Byte) : (wrNor a b s).power = s.power := rfl
@[simp] theorem wrNor_boot (a : Nat) (b : Byte) : (wrNor a b s).boot = s.boot := rfl
@[simp] theorem wrNor_spdm (a : Nat) (b : Byte) : (wrNor a b s).spdm = s.spdm := rfl
@[simp] theorem wrNor_host (a : Nat) (b : Byte) : (wrNor a b s).host = s.host := rfl
@[simp] theorem wrNor_mmc (a : Nat) (b : Byte) : (wrNor a b s).mmc = s.mmc := rfl
@[simp] theorem wrNor_ringProg (a : Nat) (b : Byte) : (wrNor a b s).ringProg = s.ringProg := rfl

/-! ### What was written reads back -/

@[simp] theorem rdKey_wrKey_same (k : Nat) (v : Word) : rdKey (wrKey k v s) k = v := sget_sput_same _ _ _ _
theorem rdKey_wrKey_ne {j k : Nat} (v : Word) (h : j ≠ k) : rdKey (wrKey k v s) j = rdKey s j := sget_sput_ne _ _ _ h
@[simp] theorem rd_wr_same (p o : Nat) (v : Word) : rd (wr p o v s) p o = v := sget_sput_same _ _ _ _

/-- Two register words within their pages are one exactly if page and offset agree. -/
theorem regKey_inj {p q o x : Nat} (ho : o < 0x1000) (hx : x < 0x1000) (h : regKey 0 p o = regKey 0 q x) : p = q ∧ o = x := by
  unfold regKey at h; omega

theorem rd_wr_off {p q o x : Nat} (v : Word) (ho : o < 0x1000) (hx : x < 0x1000) (h : x ≠ o) : rd (wr p o v s) q x = rd s q x :=
  rdKey_wrKey_ne s v fun e => h (regKey_inj hx ho e).2

theorem rd_wr_page {p q o x : Nat} (v : Word) (ho : o < 0x1000) (hx : x < 0x1000) (h : q ≠ p) : rd (wr p o v s) q x = rd s q x :=
  rdKey_wrKey_ne s v fun e => h (regKey_inj hx ho e).1

@[simp] theorem unitSt_setUnit_same (p : Nat) (u : UnitSt) : unitSt (setUnit p u s) p = u := sget_sput_same _ _ _ _
theorem unitSt_setUnit_ne {p q : Nat} (u : UnitSt) (h : q ≠ p) : unitSt (setUnit p u s) q = unitSt s q := sget_sput_ne _ _ _ h
@[simp] theorem tileSt_setTile_same (d u : Nat) (t : TileSt) : tileSt (setTile d u t s) d u = t := sget_sput_same _ _ _ _
@[simp] theorem sliceSt_setSliceSt_same (n : Nat) (v : SliceSt) : sliceSt (setSliceSt n v s) n = v := sget_sput_same _ _ _ _
theorem sliceSt_setSliceSt_ne {m n : Nat} (v : SliceSt) (h : m ≠ n) : sliceSt (setSliceSt n v s) m = sliceSt s m := sget_sput_ne _ _ _ h
@[simp] theorem memCtl_setMemCtl_same (d : Nat) (m : MemCtl) : memCtl (setMemCtl d m s) d = m := sget_sput_same _ _ _ _
theorem memCtl_setMemCtl_ne {d e : Nat} (m : MemCtl) (h : e ≠ d) : memCtl (setMemCtl d m s) e = memCtl s e := sget_sput_ne _ _ _ h

/-! ### Memory keeps its canonical form -/

@[simp] theorem rdMem_wrMem_same (a : Nat) (b : Byte) : rdMem (wrMem a b s) a = b := sget_sput_same _ _ _ _
theorem rdMem_wrMem_ne {a x : Nat} (b : Byte) (h : x ≠ a) : rdMem (wrMem a b s) x = rdMem s x := sget_sput_ne _ _ _ h

theorem wrMem_wf (a : Nat) (b : Byte) (h : Memory.wf s.mem) : Memory.wf (wrMem a b s).mem := sparseWf_sput _ _ _ h

theorem wrMemN_wf (a : Nat) (l : List Byte) (h : Memory.wf s.mem) : Memory.wf (wrMemN a l s).mem := by
  induction l generalizing a s with
  | nil => exact h
  | cons b t ih => exact ih _ (a + 1) (wrMem_wf s a b h)

/-- Bytes below or above a range stay as they were. -/
theorem rdMem_wrMemN_out (a x : Nat) (l : List Byte) (h : x < a ∨ a + l.length ≤ x) : rdMem (wrMemN a l s) x = rdMem s x := by
  induction l generalizing a s with
  | nil => rfl
  | cons b t ih =>
    simp only [List.length_cons] at h
    show rdMem (wrMemN (a + 1) t (wrMem a b s)) x = _
    rw [ih _ (a + 1) (by omega), rdMem_wrMem_ne s b (by omega)]

/-- A fold of steps that each keep the canonical form keeps it. -/
theorem foldl_wf {α : Type} (f : State → α → State) (l : List α) (hf : ∀ t x, Memory.wf t.mem → Memory.wf (f t x).mem)
    (h : Memory.wf s.mem) : Memory.wf (l.foldl f s).mem := by
  induction l generalizing s with
  | nil => exact h
  | cons x t ih => exact ih _ (hf s x h)

/-- A fold of steps that each leave memory alone leaves it alone. -/
theorem foldl_mem {α : Type} (f : State → α → State) (l : List α) (hf : ∀ t x, (f t x).mem = t.mem) : (l.foldl f s).mem = s.mem := by
  induction l generalizing s with
  | nil => rfl
  | cons x t ih => rw [List.foldl_cons, ih, hf]

theorem reset_mem_wf : Memory.wf State.reset.mem := sparseWf_nil _

end Sys2Proof.Machine
end

