-- ==== Sys2Proof/Laws/Events.lean ====
section
/-! SUPPORT. What raising and clearing events, progress counters and error records can do: `Quiet` says that only stored registers, the
output and ALERT_N changed. -/

namespace Sys2Proof.Machine

/-- Only stored registers, the output and ALERT_N differ. -/
structure Quiet (t s : State) : Prop where
  pending : t.pending = s.pending
  now : t.now = s.now
  freeCtr : t.freeCtr = s.freeCtr
  inHold : t.inHold = s.inHold
  mem : t.mem = s.mem
  nearMarks : t.nearMarks = s.nearMarks
  committed : t.committed = s.committed
  units : t.units = s.units
  prot : t.prot = s.prot
  slices : t.slices = s.slices
  shadows : t.shadows = s.shadows
  org : t.org = s.org
  snap : t.snap = s.snap
  xlate : t.xlate = s.xlate
  memctl : t.memctl = s.memctl
  felt : t.felt = s.felt
  tiles : t.tiles = s.tiles
  nor : t.nor = s.nor
  disp : t.disp = s.disp
  steward : t.steward = s.steward
  xfer : t.xfer = s.xfer
  links : t.links = s.links
  recov : t.recov = s.recov
  power : t.power = s.power
  boot : t.boot = s.boot
  spdm : t.spdm = s.spdm
  host : t.host = s.host
  mmc : t.mmc = s.mmc
  ringProg : t.ringProg = s.ringProg

theorem Quiet.refl (s : State) : Quiet s s := by constructor <;> rfl

theorem Quiet.trans {t u s : State} (h : Quiet t u) (k : Quiet u s) : Quiet t s where
  pending := h.pending.trans k.pending
  now := h.now.trans k.now
  freeCtr := h.freeCtr.trans k.freeCtr
  inHold := h.inHold.trans k.inHold
  mem := h.mem.trans k.mem
  nearMarks := h.nearMarks.trans k.nearMarks
  committed := h.committed.trans k.committed
  units := h.units.trans k.units
  prot := h.prot.trans k.prot
  slices := h.slices.trans k.slices
  shadows := h.shadows.trans k.shadows
  org := h.org.trans k.org
  snap := h.snap.trans k.snap
  xlate := h.xlate.trans k.xlate
  memctl := h.memctl.trans k.memctl
  felt := h.felt.trans k.felt
  tiles := h.tiles.trans k.tiles
  nor := h.nor.trans k.nor
  disp := h.disp.trans k.disp
  steward := h.steward.trans k.steward
  xfer := h.xfer.trans k.xfer
  links := h.links.trans k.links
  recov := h.recov.trans k.recov
  power := h.power.trans k.power
  boot := h.boot.trans k.boot
  spdm := h.spdm.trans k.spdm
  host := h.host.trans k.host
  mmc := h.mmc.trans k.mmc
  ringProg := h.ringProg.trans k.ringProg

theorem Quiet.eq {t s : State} (h : Quiet t s) : t = { s with regs := t.regs, out := t.out, alertN := t.alertN } := by
  cases t; cases s; cases h; simp_all

theorem quiet_wr (p o : Nat) (v : Word) (s : State) : Quiet (wr p o v s) s := by constructor <;> simp
theorem quiet_wr64 (p o v : Nat) (s : State) : Quiet (wr64 p o v s) s := by constructor <;> simp
theorem quiet_add64 (p o n : Nat) (s : State) : Quiet (add64 p o n s) s := by constructor <;> simp
theorem quiet_satInc (p o n : Nat) (s : State) : Quiet (satInc p o n s) s := by constructor <;> simp
theorem quiet_emit (o : Out) (s : State) : Quiet (emit o s) s := by constructor <;> rfl
theorem quiet_alert (b : Bool) (s : State) : Quiet { s with alertN := b } s := by constructor <;> rfl

theorem quiet_sendMsix (fn vec : Nat) (s : State) : Quiet (sendMsix fn vec s) s := (quiet_add64 _ _ _ _).trans (quiet_emit _ s)

theorem quiet_sendRedirected (sl : Nat) (s : State) : Quiet (sendRedirected sl s) s := by
  unfold sendRedirected
  split
  · exact .refl s
  · exact (quiet_sendMsix _ _ _).trans (quiet_wr64 _ _ _ s)

theorem quiet_orEvt (p : Nat) (b : Word) (s : State) : Quiet (orEvt p b s) s := quiet_wr _ _ _ s

/-- Raising events and delivering their messages is quiet. -/
theorem quiet_raise_deliver (fuel : Nat) :
    (∀ p b s, Quiet (raiseEvtF fuel p b s) s) ∧ ∀ p s, Quiet (deliverF fuel p s) s := by
  induction fuel with
  | zero => exact ⟨fun p b s => by unfold raiseEvtF; exact quiet_orEvt p b s, fun p s => by unfold deliverF; exact quiet_emit _ s⟩
  | succ n ih =>
    refine ⟨fun p b s => ?_, fun p s => ?_⟩
    · unfold raiseEvtF
      have h1 := quiet_orEvt p b s
      simp only
      split
      · exact h1
      · have h2 := (ih.2 p (orEvt p b s)).trans h1
        split
        · split
          · exact (ih.1 _ _ _).trans h2
          · exact h2
        · exact h2
    · unfold deliverF
      have h0 : Quiet (if bitOf (rd s p 0x1C) 19 && decide (fld (rd s p 0x1C) 1 0 ≠ 0) then { s with alertN := true } else s) s := by
        split
        · exact quiet_alert true s
        · exact .refl s
      simp only
      generalize (if bitOf (rd s p 0x1C) 19 && decide (fld (rd s p 0x1C) 1 0 ≠ 0) then ({ s with alertN := true } : State) else s) = u at h0 ⊢
      split
      · exact h0
      · exact (quiet_sendMsix _ _ _).trans h0
      · split
        · exact (ih.1 _ _ _).trans ((quiet_sendRedirected _ _).trans h0)
        · split
          · exact (quiet_sendMsix _ _ _).trans h0
          · exact (ih.1 _ _ _).trans ((quiet_emit _ _).trans h0)
      · exact (quiet_emit _ _).trans h0

theorem quiet_raiseEvt (p : Nat) (b : Word) (s : State) : Quiet (raiseEvt p b s) s := (quiet_raise_deliver 10).1 p b s
theorem quiet_event (p n : Nat) (s : State) : Quiet (event p n s) s := quiet_raiseEvt p _ s

@[simp] theorem event_pending (p n : Nat) (s : State) : (event p n s).pending = s.pending := (quiet_event p n s).pending
@[simp] theorem event_now (p n : Nat) (s : State) : (event p n s).now = s.now := (quiet_event p n s).now
@[simp] theorem event_freeCtr (p n : Nat) (s : State) : (event p n s).freeCtr = s.freeCtr := (quiet_event p n s).freeCtr
@[simp] theorem event_inHold (p n : Nat) (s : State) : (event p n s).inHold = s.inHold := (quiet_event p n s).inHold
@[simp] theorem event_mem (p n : Nat) (s : State) : (event p n s).mem = s.mem := (quiet_event p n s).mem
@[simp] theorem event_nearMarks (p n : Nat) (s : State) : (event p n s).nearMarks = s.nearMarks := (quiet_event p n s).nearMarks
@[simp] theorem event_committed (p n : Nat) (s : State) : (event p n s).committed = s.committed := (quiet_event p n s).committed
@[simp] theorem event_units (p n : Nat) (s : State) : (event p n s).units = s.units := (quiet_event p n s).units
@[simp] theorem event_prot (p n : Nat) (s : State) : (event p n s).prot = s.prot := (quiet_event p n s).prot
@[simp] theorem event_slices (p n : Nat) (s : State) : (event p n s).slices = s.slices := (quiet_event p n s).slices
@[simp] theorem event_shadows (p n : Nat) (s : State) : (event p n s).shadows = s.shadows := (quiet_event p n s).shadows
@[simp] theorem event_org (p n : Nat) (s : State) : (event p n s).org = s.org := (quiet_event p n s).org
@[simp] theorem event_snap (p n : Nat) (s : State) : (event p n s).snap = s.snap := (quiet_event p n s).snap
@[simp] theorem event_xlate (p n : Nat) (s : State) : (event p n s).xlate = s.xlate := (quiet_event p n s).xlate
@[simp] theorem event_memctl (p n : Nat) (s : State) : (event p n s).memctl = s.memctl := (quiet_event p n s).memctl
@[simp] theorem event_felt (p n : Nat) (s : State) : (event p n s).felt = s.felt := (quiet_event p n s).felt
@[simp] theorem event_tiles (p n : Nat) (s : State) : (event p n s).tiles = s.tiles := (quiet_event p n s).tiles
@[simp] theorem event_nor (p n : Nat) (s : State) : (event p n s).nor = s.nor := (quiet_event p n s).nor
@[simp] theorem event_disp (p n : Nat) (s : State) : (event p n s).disp = s.disp := (quiet_event p n s).disp
@[simp] theorem event_steward (p n : Nat) (s : State) : (event p n s).steward = s.steward := (quiet_event p n s).steward
@[simp] theorem event_xfer (p n : Nat) (s : State) : (event p n s).xfer = s.xfer := (quiet_event p n s).xfer
@[simp] theorem event_links (p n : Nat) (s : State) : (event p n s).links = s.links := (quiet_event p n s).links
@[simp] theorem event_recov (p n : Nat) (s : State) : (event p n s).recov = s.recov := (quiet_event p n s).recov
@[simp] theorem event_power (p n : Nat) (s : State) : (event p n s).power = s.power := (quiet_event p n s).power
@[simp] theorem event_boot (p n : Nat) (s : State) : (event p n s).boot = s.boot := (quiet_event p n s).boot
@[simp] theorem event_spdm (p n : Nat) (s : State) : (event p n s).spdm = s.spdm := (quiet_event p n s).spdm
@[simp] theorem event_host (p n : Nat) (s : State) : (event p n s).host = s.host := (quiet_event p n s).host
@[simp] theorem event_mmc (p n : Nat) (s : State) : (event p n s).mmc = s.mmc := (quiet_event p n s).mmc
@[simp] theorem event_ringProg (p n : Nat) (s : State) : (event p n s).ringProg = s.ringProg := (quiet_event p n s).ringProg

/-! ### Clearing events, enabling them, progress counters -/

theorem quiet_dropEvtF (fuel p : Nat) (b : Word) (s : State) : Quiet (dropEvtF fuel p b s) s := by
  induction fuel generalizing p b s with
  | zero => unfold dropEvtF; exact quiet_wr _ _ _ s
  | succ n ih =>
    unfold dropEvtF
    have h1 := quiet_wr p 0x10 (rd s p 0x10 &&& ~~~b) s
    simp only
    split
    · split
      · exact (ih _ _ _).trans h1
      · exact h1
    · exact h1

theorem quiet_dropEvt (p : Nat) (b : Word) (s : State) : Quiet (dropEvt p b s) s := quiet_dropEvtF 6 p b s

theorem quiet_foldl {α : Type} (f : State → α → State) (hf : ∀ t x, Quiet (f t x) t) (l : List α) (s : State) : Quiet (l.foldl f s) s := by
  induction l generalizing s with
  | nil => exact .refl s
  | cons x t ih => exact (ih _).trans (hf s x)

theorem quiet_addProg (p i n : Nat) (s : State) : Quiet (addProg p i n s) s := by
  unfold addProg
  split
  · exact .refl s
  · simp only
    split
    · exact (quiet_foldl _ (fun t g => quiet_add64 g _ n t) _ _).trans (quiet_add64 _ _ _ s)
    · exact quiet_add64 _ _ _ s

@[simp] theorem addProg_pending (p i n : Nat) (s : State) : (addProg p i n s).pending = s.pending := (quiet_addProg p i n s).pending
@[simp] theorem addProg_now (p i n : Nat) (s : State) : (addProg p i n s).now = s.now := (quiet_addProg p i n s).now
@[simp] theorem addProg_freeCtr (p i n : Nat) (s : State) : (addProg p i n s).freeCtr = s.freeCtr := (quiet_addProg p i n s).freeCtr
@[simp] theorem addProg_inHold (p i n : Nat) (s : State) : (addProg p i n s).inHold = s.inHold := (quiet_addProg p i n s).inHold
@[simp] theorem addProg_mem (p i n : Nat) (s : State) : (addProg p i n s).mem = s.mem := (quiet_addProg p i n s).mem
@[simp] theorem addProg_nearMarks (p i n : Nat) (s : State) : (addProg p i n s).nearMarks = s.nearMarks := (quiet_addProg p i n s).nearMarks
@[simp] theorem addProg_committed (p i n : Nat) (s : State) : (addProg p i n s).committed = s.committed := (quiet_addProg p i n s).committed
@[simp] theorem addProg_units (p i n : Nat) (s : State) : (addProg p i n s).units = s.units := (quiet_addProg p i n s).units
@[simp] theorem addProg_prot (p i n : Nat) (s : State) : (addProg p i n s).prot = s.prot := (quiet_addProg p i n s).prot
@[simp] theorem addProg_slices (p i n : Nat) (s : State) : (addProg p i n s).slices = s.slices := (quiet_addProg p i n s).slices
@[simp] theorem addProg_shadows (p i n : Nat) (s : State) : (addProg p i n s).shadows = s.shadows := (quiet_addProg p i n s).shadows
@[simp] theorem addProg_org (p i n : Nat) (s : State) : (addProg p i n s).org = s.org := (quiet_addProg p i n s).org
@[simp] theorem addProg_snap (p i n : Nat) (s : State) : (addProg p i n s).snap = s.snap := (quiet_addProg p i n s).snap
@[simp] theorem addProg_xlate (p i n : Nat) (s : State) : (addProg p i n s).xlate = s.xlate := (quiet_addProg p i n s).xlate
@[simp] theorem addProg_memctl (p i n : Nat) (s : State) : (addProg p i n s).memctl = s.memctl := (quiet_addProg p i n s).memctl
@[simp] theorem addProg_felt (p i n : Nat) (s : State) : (addProg p i n s).felt = s.felt := (quiet_addProg p i n s).felt
@[simp] theorem addProg_tiles (p i n : Nat) (s : State) : (addProg p i n s).tiles = s.tiles := (quiet_addProg p i n s).tiles
@[simp] theorem addProg_nor (p i n : Nat) (s : State) : (addProg p i n s).nor = s.nor := (quiet_addProg p i n s).nor
@[simp] theorem addProg_disp (p i n : Nat) (s : State) : (addProg p i n s).disp = s.disp := (quiet_addProg p i n s).disp
@[simp] theorem addProg_steward (p i n : Nat) (s : State) : (addProg p i n s).steward = s.steward := (quiet_addProg p i n s).steward
@[simp] theorem addProg_xfer (p i n : Nat) (s : State) : (addProg p i n s).xfer = s.xfer := (quiet_addProg p i n s).xfer
@[simp] theorem addProg_links (p i n : Nat) (s : State) : (addProg p i n s).links = s.links := (quiet_addProg p i n s).links
@[simp] theorem addProg_recov (p i n : Nat) (s : State) : (addProg p i n s).recov = s.recov := (quiet_addProg p i n s).recov
@[simp] theorem addProg_power (p i n : Nat) (s : State) : (addProg p i n s).power = s.power := (quiet_addProg p i n s).power
@[simp] theorem addProg_boot (p i n : Nat) (s : State) : (addProg p i n s).boot = s.boot := (quiet_addProg p i n s).boot
@[simp] theorem addProg_spdm (p i n : Nat) (s : State) : (addProg p i n s).spdm = s.spdm := (quiet_addProg p i n s).spdm
@[simp] theorem addProg_host (p i n : Nat) (s : State) : (addProg p i n s).host = s.host := (quiet_addProg p i n s).host
@[simp] theorem addProg_mmc (p i n : Nat) (s : State) : (addProg p i n s).mmc = s.mmc := (quiet_addProg p i n s).mmc
@[simp] theorem addProg_ringProg (p i n : Nat) (s : State) : (addProg p i n s).ringProg = s.ringProg := (quiet_addProg p i n s).ringProg

/-! ### Registers an event leaves alone, and the bit it sets -/

/-- Register words an event cannot write: none at offset 0x10, none of the INTR page. -/
def EvtSafe (t s : State) : Prop := ∀ p o, o < 0x1000 → o ≠ 0x10 → p ≠ pIntr → rd t p o = rd s p o

theorem EvtSafe.refl (s : State) : EvtSafe s s := fun _ _ _ _ _ => rfl
theorem EvtSafe.trans {t u s : State} (h : EvtSafe t u) (k : EvtSafe u s) : EvtSafe t s :=
  fun p o a b c => (h p o a b c).trans (k p o a b c)

theorem safe_orEvt (p : Nat) (b : Word) (s : State) : EvtSafe (orEvt p b s) s :=
  fun _ _ ho h _ => rd_wr_off s _ (by decide) ho h

theorem safe_wr64_intr (o v : Nat) (ho : o + 4 < 0x1000) (s : State) : EvtSafe (wr64 pIntr o v s) s := fun p x hx _ hp => by
  show rd (wr pIntr (o + 4) _ (wr pIntr o _ s)) p x = _
  rw [rd_wr_page _ _ ho hx hp, rd_wr_page _ _ (by omega) hx hp]

theorem safe_sendMsix (fn vec : Nat) (s : State) : EvtSafe (sendMsix fn vec s) s := safe_wr64_intr 0x100 _ (by decide) (emit (.msix fn vec) s)

theorem safe_sendRedirected (sl : Nat) (s : State) : EvtSafe (sendRedirected sl s) s := by
  unfold sendRedirected
  split
  · exact .refl s
  · exact (safe_sendMsix _ _ _).trans (safe_wr64_intr 0x110 _ (by decide) s)

theorem safe_emit (o : Out) (s : State) : EvtSafe (emit o s) s := fun _ _ _ _ _ => rfl

theorem safe_raise_deliver (fuel : Nat) :
    (∀ p b s, EvtSafe (raiseEvtF fuel p b s) s) ∧ ∀ p s, EvtSafe (deliverF fuel p s) s := by
  induction fuel with
  | zero => exact ⟨fun p b s => by unfold raiseEvtF; exact safe_orEvt p b s, fun p s => by unfold deliverF; exact safe_emit _ s⟩
  | succ n ih =>
    refine ⟨fun p b s => ?_, fun p s => ?_⟩
    · unfold raiseEvtF
      have h1 := safe_orEvt p b s
      simp only
      split
      · exact h1
      · have h2 := (ih.2 p (orEvt p b s)).trans h1
        split
        · split
          · exact (ih.1 _ _ _).trans h2
          · exact h2
        · exact h2
    · unfold deliverF
      have h0 : EvtSafe (if bitOf (rd s p 0x1C) 19 && decide (fld (rd s p 0x1C) 1 0 ≠ 0) then { s with alertN := true } else s) s := by
        split
        · exact fun _ _ _ _ _ => rfl
        · exact .refl s
      simp only
      generalize (if bitOf (rd s p 0x1C) 19 && decide (fld (rd s p 0x1C) 1 0 ≠ 0) then ({ s with alertN := true } : State) else s) = u at h0 ⊢
      split
      · exact h0
      · exact (safe_sendMsix _ _ _).trans h0
      · split
        · exact (ih.1 _ _ _).trans ((safe_sendRedirected _ _).trans h0)
        · split
          · exact (safe_sendMsix _ _ _).trans h0
          · exact (ih.1 _ _ _).trans ((safe_emit _ _).trans h0)
      · exact (safe_emit _ _).trans h0

/-- An event writes EVT_STAT words and the INTR page only. -/
theorem rd_event (p n : Nat) (s : State) {q o : Nat} (ho : o < 0x1000) (h : o ≠ 0x10) (hq : q ≠ pIntr) :
    rd (event p n s) q o = rd s q o := (safe_raise_deliver 10).1 p _ s q o ho h hq

end Sys2Proof.Machine
end

