-- ==== Sys2Proof/Laws/Records.lean ====
section
/-! SUPPORT. What an error record, a snapshot, a change of a unit's state and the dispatcher's bookkeeping can change. -/

namespace Sys2Proof.Machine

/-- Only stored registers, the output, ALERT_N, the journal's error ring and the snapshot's memory of triggers differ. -/
structure Recorded (t s : State) : Prop where
  pending : t.pending = s.pending
  now : t.now = s.now
  freeCtr : t.freeCtr = s.freeCtr
  inHold : t.inHold = s.inHold
  mem : t.mem = s.mem
  nearMarks : t.nearMarks = s.nearMarks
  committed : t.committed = s.committed
  units : t.units = s.units
  prot : t.prot = s.prot
  slices : t.slices = s.slices
  shadows : t.shadows = s.shadows
  org : t.org = s.org
  xlate : t.xlate = s.xlate
  memctl : t.memctl = s.memctl
  felt : t.felt = s.felt
  tiles : t.tiles = s.tiles
  nor : t.nor = s.nor
  disp : t.disp = s.disp
  steward : t.steward = s.steward
  xfer : t.xfer = s.xfer
  links : t.links = s.links
  recov : t.recov = s.recov
  boot : t.boot = s.boot
  spdm : t.spdm = s.spdm
  host : t.host = s.host
  mmc : t.mmc = s.mmc
  ringProg : t.ringProg = s.ringProg

theorem Recorded.refl (s : State) : Recorded s s := by constructor <;> rfl

theorem Recorded.trans {t u s : State} (h : Recorded t u) (k : Recorded u s) : Recorded t s where
  pending := h.pending.trans k.pending
  now := h.now.trans k.now
  freeCtr := h.freeCtr.trans k.freeCtr
  inHold := h.inHold.trans k.inHold
  mem := h.mem.trans k.mem
  nearMarks := h.nearMarks.trans k.nearMarks
  committed := h.committed.trans k.committed
  units := h.units.trans k.units
  prot := h.prot.trans k.prot
  slices := h.slices.trans k.slices
  shadows := h.shadows.trans k.shadows
  org := h.org.trans k.org
  xlate := h.xlate.trans k.xlate
  memctl := h.memctl.trans k.memctl
  felt := h.felt.trans k.felt
  tiles := h.tiles.trans k.tiles
  nor := h.nor.trans k.nor
  disp := h.disp.trans k.disp
  steward := h.steward.trans k.steward
  xfer := h.xfer.trans k.xfer
  links := h.links.trans k.links
  recov := h.recov.trans k.recov
  boot := h.boot.trans k.boot
  spdm := h.spdm.trans k.spdm
  host := h.host.trans k.host
  mmc := h.mmc.trans k.mmc
  ringProg := h.ringProg.trans k.ringProg

theorem Quiet.recorded {t s : State} (h : Quiet t s) : Recorded t s where
  pending := h.pending
  now := h.now
  freeCtr := h.freeCtr
  inHold := h.inHold
  mem := h.mem
  nearMarks := h.nearMarks
  committed := h.committed
  units := h.units
  prot := h.prot
  slices := h.slices
  shadows := h.shadows
  org := h.org
  xlate := h.xlate
  memctl := h.memctl
  felt := h.felt
  tiles := h.tiles
  nor := h.nor
  disp := h.disp
  steward := h.steward
  xfer := h.xfer
  links := h.links
  recov := h.recov
  boot := h.boot
  spdm := h.spdm
  host := h.host
  mmc := h.mmc
  ringProg := h.ringProg

theorem recorded_foldl {α : Type} (f : State → α → State) (hf : ∀ t x, Recorded (f t x) t) (l : List α) (s : State) :
    Recorded (l.foldl f s) s := by
  induction l generalizing s with
  | nil => exact .refl s
  | cons x t ih => exact (ih _).trans (hf s x)

theorem quiet_wrWords (p o : Nat) (l : List Word) (s : State) : Quiet (wrWords p o l s) s := by
  induction l generalizing o s with
  | nil => exact .refl s
  | cons w t ih => exact (ih _ _).trans (quiet_wr _ _ _ s)

theorem quiet_latchPage (ts seq src origin : Nat) (s : State) (p : Nat) : Quiet (latchPage ts seq src origin s p) s := by
  unfold latchPage
  split
  · exact .refl s
  · simp only
    split <;> split <;> first | exact quiet_wrWords _ _ _ s | exact (quiet_raiseEvt _ _ _).trans (quiet_wrWords _ _ _ s)

theorem quiet_latchAll (seq src origin : Nat) (s : State) : Quiet (latchAll seq src origin s) s :=
  (quiet_wr64 _ _ _ _).trans ((quiet_wr _ _ _ _).trans (quiet_foldl _ (quiet_latchPage s.now seq src origin) _ s))

theorem recorded_seen (x : SnapSt) (s : State) : Recorded { s with snap := x } s := by constructor <;> rfl
theorem recorded_power (x : PowerSt) (s : State) : Recorded { s with power := x } s := by constructor <;> rfl

theorem recorded_snapTrigger (src : Nat) (s : State) : Recorded (snapTrigger src s) s := by
  unfold snapTrigger
  split
  · exact (quiet_satInc _ _ _ s).recorded
  · have h := ((quiet_latchAll ((fld (rd s pSnap 0x110) 15 0 + 1) % 0x10000) src (nodeId s) _).trans
      (quiet_wr pSnap 0x110 (BitVec.ofNat 32 ((fld (rd s pSnap 0x110) 15 0 + 1) % 0x10000)) s)).recorded
    simp only
    split
    · exact (recorded_foldl _ (fun t k => (quiet_emit _ t).recorded) _ _).trans ((recorded_seen _ _).trans h)
    · exact h

theorem quiet_capture1 (p : Nat) (e : ErrRec) (s : State) : Quiet (capture1 p e s) s := by
  unfold capture1
  simp only
  split
  · exact quiet_wr _ _ _ s
  · exact quiet_wrWords _ _ _ s

theorem recorded_captureErr (p : Nat) (e : ErrRec) (s : State) : Recorded (captureErr p e s) s := by
  unfold captureErr
  simp only
  have h0 := (quiet_capture1 p e s).recorded
  have h1 : Recorded (if (!bitOf (rd s p 0x20) 31) = true then noteJournal p (errWords e s.now) (capture1 p e s) else capture1 p e s) s := by
    split
    · exact (recorded_power _ _).trans h0
    · exact h0
  generalize (if (!bitOf (rd s p 0x20) 31) = true then noteJournal p (errWords e s.now) (capture1 p e s) else capture1 p e s) = u at h1 ⊢
  have h2 : Recorded (if (!bitOf (rd s p 0x20) 31) = true then event p 31 u else u) s := by
    split
    · exact (quiet_event _ _ _).recorded.trans h1
    · exact h1
  generalize (if (!bitOf (rd s p 0x20) 31) = true then event p 31 u else u) = v at h2 ⊢
  have h3 : Recorded (if counted s p = true then (groupsAbove 5 p).foldl (fun t g => capture1 g e t) v else v) s := by
    split
    · exact (recorded_foldl _ (fun t g => (quiet_capture1 g e t).recorded) _ _).trans h2
    · exact h2
  generalize (if counted s p = true then (groupsAbove 5 p).foldl (fun t g => capture1 g e t) v else v) = w at h3 ⊢
  split
  · exact (recorded_snapTrigger _ _).trans h3
  · exact h3

@[simp] theorem captureErr_pending (p : Nat) (e : ErrRec) (s : State) : (captureErr p e s).pending = s.pending := (recorded_captureErr p e s).pending
@[simp] theorem captureErr_now (p : Nat) (e : ErrRec) (s : State) : (captureErr p e s).now = s.now := (recorded_captureErr p e s).now
@[simp] theorem captureErr_freeCtr (p : Nat) (e : ErrRec) (s : State) : (captureErr p e s).freeCtr = s.freeCtr := (recorded_captureErr p e s).freeCtr
@[simp] theorem captureErr_inHold (p : Nat) (e : ErrRec) (s : State) : (captureErr p e s).inHold = s.inHold := (recorded_captureErr p e s).inHold
@[simp] theorem captureErr_mem (p : Nat) (e : ErrRec) (s : State) : (captureErr p e s).mem = s.mem := (recorded_captureErr p e s).mem
@[simp] theorem captureErr_nearMarks (p : Nat) (e : ErrRec) (s : State) : (captureErr p e s).nearMarks = s.nearMarks := (recorded_captureErr p e s).nearMarks
@[simp] theorem captureErr_committed (p : Nat) (e : ErrRec) (s : State) : (captureErr p e s).committed = s.committed := (recorded_captureErr p e s).committed
@[simp] theorem captureErr_units (p : Nat) (e : ErrRec) (s : State) : (captureErr p e s).units = s.units := (recorded_captureErr p e s).units
@[simp] theorem captureErr_prot (p : Nat) (e : ErrRec) (s : State) : (captureErr p e s).prot = s.prot := (recorded_captureErr p e s).prot
@[simp] theorem captureErr_slices (p : Nat) (e : ErrRec) (s : State) : (captureErr p e s).slices = s.slices := (recorded_captureErr p e s).slices
@[simp] theorem captureErr_shadows (p : Nat) (e : ErrRec) (s : State) : (captureErr p e s).shadows = s.shadows := (recorded_captureErr p e s).shadows
@[simp] theorem captureErr_org (p : Nat) (e : ErrRec) (s : State) : (captureErr p e s).org = s.org := (recorded_captureErr p e s).org
@[simp] theorem captureErr_xlate (p : Nat) (e : ErrRec) (s : State) : (captureErr p e s).xlate = s.xlate := (recorded_captureErr p e s).xlate
@[simp] theorem captureErr_memctl (p : Nat) (e : ErrRec) (s : State) : (captureErr p e s).memctl = s.memctl := (recorded_captureErr p e s).memctl
@[simp] theorem captureErr_felt (p : Nat) (e : ErrRec) (s : State) : (captureErr p e s).felt = s.felt := (recorded_captureErr p e s).felt
@[simp] theorem captureErr_tiles (p : Nat) (e : ErrRec) (s : State) : (captureErr p e s).tiles = s.tiles := (recorded_captureErr p e s).tiles
@[simp] theorem captureErr_nor (p : Nat) (e : ErrRec) (s : State) : (captureErr p e s).nor = s.nor := (recorded_captureErr p e s).nor
@[simp] theorem captureErr_disp (p : Nat) (e : ErrRec) (s : State) : (captureErr p e s).disp = s.disp := (recorded_captureErr p e s).disp
@[simp] theorem captureErr_steward (p : Nat) (e : ErrRec) (s : State) : (captureErr p e s).steward = s.steward := (recorded_captureErr p e s).steward
@[simp] theorem captureErr_xfer (p : Nat) (e : ErrRec) (s : State) : (captureErr p e s).xfer = s.xfer := (recorded_captureErr p e s).xfer
@[simp] theorem captureErr_links (p : Nat) (e : ErrRec) (s : State) : (captureErr p e s).links = s.links := (recorded_captureErr p e s).links
@[simp] theorem captureErr_recov (p : Nat) (e : ErrRec) (s : State) : (captureErr p e s).recov = s.recov := (recorded_captureErr p e s).recov
@[simp] theorem captureErr_boot (p : Nat) (e : ErrRec) (s : State) : (captureErr p e s).boot = s.boot := (recorded_captureErr p e s).boot
@[simp] theorem captureErr_spdm (p : Nat) (e : ErrRec) (s : State) : (captureErr p e s).spdm = s.spdm := (recorded_captureErr p e s).spdm
@[simp] theorem captureErr_host (p : Nat) (e : ErrRec) (s : State) : (captureErr p e s).host = s.host := (recorded_captureErr p e s).host
@[simp] theorem captureErr_mmc (p : Nat) (e : ErrRec) (s : State) : (captureErr p e s).mmc = s.mmc := (recorded_captureErr p e s).mmc
@[simp] theorem captureErr_ringProg (p : Nat) (e : ErrRec) (s : State) : (captureErr p e s).ringProg = s.ringProg := (recorded_captureErr p e s).ringProg

/-! ### A unit's state: besides the unit's record, an event at most -/

theorem setUState_quiet (p : Nat) (st : UState) (c : Bool) (s : State) :
    Quiet (setUState p st c s) (if (unitSt s p).state = st then s else setUnit p { unitSt s p with state := st } s) := by
  unfold setUState
  split
  · exact .refl s
  · simp only
    split
    · exact .refl _
    · exact quiet_event _ _ _

@[simp] theorem setUState_pending (p : Nat) (st : UState) (c : Bool) (s : State) : (setUState p st c s).pending = s.pending := by
  rw [(setUState_quiet p st c s).pending]; split <;> rfl
@[simp] theorem setUState_now (p : Nat) (st : UState) (c : Bool) (s : State) : (setUState p st c s).now = s.now := by
  rw [(setUState_quiet p st c s).now]; split <;> rfl
@[simp] theorem setUState_freeCtr (p : Nat) (st : UState) (c : Bool) (s : State) : (setUState p st c s).freeCtr = s.freeCtr := by
  rw [(setUState_quiet p st c s).freeCtr]; split <;> rfl
@[simp] theorem setUState_inHold (p : Nat) (st : UState) (c : Bool) (s : State) : (setUState p st c s).inHold = s.inHold := by
  rw [(setUState_quiet p st c s).inHold]; split <;> rfl
@[simp] theorem setUState_mem (p : Nat) (st : UState) (c : Bool) (s : State) : (setUState p st c s).mem = s.mem := by
  rw [(setUState_quiet p st c s).mem]; split <;> rfl
@[simp] theorem setUState_nearMarks (p : Nat) (st : UState) (c : Bool) (s : State) : (setUState p st c s).nearMarks = s.nearMarks := by
  rw [(setUState_quiet p st c s).nearMarks]; split <;> rfl
@[simp] theorem setUState_committed (p : Nat) (st : UState) (c : Bool) (s : State) : (setUState p st c s).committed = s.committed := by
  rw [(setUState_quiet p st c s).committed]; split <;> rfl
@[simp] theorem setUState_prot (p : Nat) (st : UState) (c : Bool) (s : State) : (setUState p st c s).prot = s.prot := by
  rw [(setUState_quiet p st c s).prot]; split <;> rfl
@[simp] theorem setUState_slices (p : Nat) (st : UState) (c : Bool) (s : State) : (setUState p st c s).slices = s.slices := by
  rw [(setUState_quiet p st c s).slices]; split <;> rfl
@[simp] theorem setUState_shadows (p : Nat) (st : UState) (c : Bool) (s : State) : (setUState p st c s).shadows = s.shadows := by
  rw [(setUState_quiet p st c s).shadows]; split <;> rfl
@[simp] theorem setUState_org (p : Nat) (st : UState) (c : Bool) (s : State) : (setUState p st c s).org = s.org := by
  rw [(setUState_quiet p st c s).org]; split <;> rfl
@[simp] theorem setUState_snap (p : Nat) (st : UState) (c : Bool) (s : State) : (setUState p st c s).snap = s.snap := by
  rw [(setUState_quiet p st c s).snap]; split <;> rfl
@[simp] theorem setUState_xlate (p : Nat) (st : UState) (c : Bool) (s : State) : (setUState p st c s).xlate = s.xlate := by
  rw [(setUState_quiet p st c s).xlate]; split <;> rfl
@[simp] theorem setUState_memctl (p : Nat) (st : UState) (c : Bool) (s : State) : (setUState p st c s).memctl = s.memctl := by
  rw [(setUState_quiet p st c s).memctl]; split <;> rfl
@[simp] theorem setUState_felt (p : Nat) (st : UState) (c : Bool) (s : State) : (setUState p st c s).felt = s.felt := by
  rw [(setUState_quiet p st c s).felt]; split <;> rfl
@[simp] theorem setUState_tiles (p : Nat) (st : UState) (c : Bool) (s : State) : (setUState p st c s).tiles = s.tiles := by
  rw [(setUState_quiet p st c s).tiles]; split <;> rfl
@[simp] theorem setUState_nor (p : Nat) (st : UState) (c : Bool) (s : State) : (setUState p st c s).nor = s.nor := by
  rw [(setUState_quiet p st c s).nor]; split <;> rfl
@[simp] theorem setUState_disp (p : Nat) (st : UState) (c : Bool) (s : State) : (setUState p st c s).disp = s.disp := by
  rw [(setUState_quiet p st c s).disp]; split <;> rfl
@[simp] theorem setUState_steward (p : Nat) (st : UState) (c : Bool) (s : State) : (setUState p st c s).steward = s.steward := by
  rw [(setUState_quiet p st c s).steward]; split <;> rfl
@[simp] theorem setUState_xfer (p : Nat) (st : UState) (c : Bool) (s : State) : (setUState p st c s).xfer = s.xfer := by
  rw [(setUState_quiet p st c s).xfer]; split <;> rfl
@[simp] theorem setUState_links (p : Nat) (st : UState) (c : Bool) (s : State) : (setUState p st c s).links = s.links := by
  rw [(setUState_quiet p st c s).links]; split <;> rfl
@[simp] theorem setUState_recov (p : Nat) (st : UState) (c : Bool) (s : State) : (setUState p st c s).recov = s.recov := by
  rw [(setUState_quiet p st c s).recov]; split <;> rfl
@[simp] theorem setUState_power (p : Nat) (st : UState) (c : Bool) (s : State) : (setUState p st c s).power = s.power := by
  rw [(setUState_quiet p st c s).power]; split <;> rfl
@[simp] theorem setUState_boot (p : Nat) (st : UState) (c : Bool) (s : State) : (setUState p st c s).boot = s.boot := by
  rw [(setUState_quiet p st c s).boot]; split <;> rfl
@[simp] theorem setUState_spdm (p : Nat) (st : UState) (c : Bool) (s : State) : (setUState p st c s).spdm = s.spdm := by
  rw [(setUState_quiet p st c s).spdm]; split <;> rfl
@[simp] theorem setUState_host (p : Nat) (st : UState) (c : Bool) (s : State) : (setUState p st c s).host = s.host := by
  rw [(setUState_quiet p st c s).host]; split <;> rfl
@[simp] theorem setUState_mmc (p : Nat) (st : UState) (c : Bool) (s : State) : (setUState p st c s).mmc = s.mmc := by
  rw [(setUState_quiet p st c s).mmc]; split <;> rfl
@[simp] theorem setUState_ringProg (p : Nat) (st : UState) (c : Bool) (s : State) : (setUState p st c s).ringProg = s.ringProg := by
  rw [(setUState_quiet p st c s).ringProg]; split <;> rfl

/-- The unit is in the state set, the rest of its record as it was. -/
theorem unitSt_setUState (p : Nat) (st : UState) (c : Bool) (s : State) : unitSt (setUState p st c s) p = { unitSt s p with state := st } := by
  have h := (setUState_quiet p st c s).units
  unfold unitSt at h ⊢
  rw [h]
  split
  · next e => rw [← e]
  · exact sget_sput_same _ _ _ _

/-- Every other unit's record stays. -/
theorem unitSt_setUState_ne {p q : Nat} (st : UState) (c : Bool) (s : State) (hq : q ≠ p) : unitSt (setUState p st c s) q = unitSt s q := by
  have h := (setUState_quiet p st c s).units
  unfold unitSt at h ⊢
  rw [h]
  split
  · rfl
  · exact sget_sput_ne _ _ _ hq

/-! ### The dispatcher's bookkeeping -/

@[simp] theorem dispSync_pending (s : State) : (dispSync s).pending = s.pending := rfl
@[simp] theorem dispSync_now (s : State) : (dispSync s).now = s.now := rfl
@[simp] theorem dispSync_out (s : State) : (dispSync s).out = s.out := rfl
@[simp] theorem dispSync_freeCtr (s : State) : (dispSync s).freeCtr = s.freeCtr := rfl
@[simp] theorem dispSync_alertN (s : State) : (dispSync s).alertN = s.alertN := rfl
@[simp] theorem dispSync_inHold (s : State) : (dispSync s).inHold = s.inHold := rfl
@[simp] theorem dispSync_mem (s : State) : (dispSync s).mem = s.mem := rfl
@[simp] theorem dispSync_nearMarks (s : State) : (dispSync s).nearMarks = s.nearMarks := rfl
@[simp] theorem dispSync_regs (s : State) : (dispSync s).regs = s.regs := rfl
@[simp] theorem dispSync_committed (s : State) : (dispSync s).committed = s.committed := rfl
@[simp] theorem dispSync_units (s : State) : (dispSync s).units = s.units := rfl
@[simp] theorem dispSync_prot (s : State) : (dispSync s).prot = s.prot := rfl
@[simp] theorem dispSync_slices (s : State) : (dispSync s).slices = s.slices := rfl
@[simp] theorem dispSync_shadows (s : State) : (dispSync s).shadows = s.shadows := rfl
@[simp] theorem dispSync_org (s : State) : (dispSync s).org = s.org := rfl
@[simp] theorem dispSync_snap (s : State) : (dispSync s).snap = s.snap := rfl
@[simp] theorem dispSync_xlate (s : State) : (dispSync s).xlate = s.xlate := rfl
@[simp] theorem dispSync_memctl (s : State) : (dispSync s).memctl = s.memctl := rfl
@[simp] theorem dispSync_felt (s : State) : (dispSync s).felt = s.felt := rfl
@[simp] theorem dispSync_tiles (s : State) : (dispSync s).tiles = s.tiles := rfl
@[simp] theorem dispSync_nor (s : State) : (dispSync s).nor = s.nor := rfl
@[simp] theorem dispSync_steward (s : State) : (dispSync s).steward = s.steward := rfl
@[simp] theorem dispSync_xfer (s : State) : (dispSync s).xfer = s.xfer := rfl
@[simp] theorem dispSync_links (s : State) : (dispSync s).links = s.links := rfl
@[simp] theorem dispSync_recov (s : State) : (dispSync s).recov = s.recov := rfl
@[simp] theorem dispSync_power (s : State) : (dispSync s).power = s.power := rfl
@[simp] theorem dispSync_boot (s : State) : (dispSync s).boot = s.boot := rfl
@[simp] theorem dispSync_spdm (s : State) : (dispSync s).spdm = s.spdm := rfl
@[simp] theorem dispSync_host (s : State) : (dispSync s).host = s.host := rfl
@[simp] theorem dispSync_mmc (s : State) : (dispSync s).mmc = s.mmc := rfl
@[simp] theorem dispSync_ringProg (s : State) : (dispSync s).ringProg = s.ringProg := rfl

@[simp] theorem dispSync_rings (s : State) : (dispSync s).disp.rings = s.disp.rings := rfl

/-- Setting a ring leaves the other rings. -/
@[simp] theorem ringSt_setRing_same (r : Nat) (v : Ring) (s : State) : ringSt (setRing r v s) r = v := sget_sput_same _ _ _ _
theorem ringSt_setRing_ne {q r : Nat} (v : Ring) (s : State) (h : q ≠ r) : ringSt (setRing r v s) q = ringSt s q := sget_sput_ne _ _ _ h

end Sys2Proof.Machine
end

