-- ==== Sys2Proof/Tests/Slice0.lean ====
section
/-! SUPPORT. The model's own tests: ill-formed commands that WellFormed refuses, and for every statement that has hypotheses a
state and operands that meet them. -/

namespace Sys2Proof.Tests

-- One theorem at a time: the witnesses evaluate in the kernel, and many at once take a thread of memory each.
set_option Elab.async false

open Sys2Proof Sys2Proof.Machine


/-! ### Ill-formed commands, one for each check, and a well-formed one -/

def wfReq : FReq := { kind := .rdOnce, agent := 2, stream := 0 }

theorem test_wf_die : (Instr.taskStart 16 0).wf = false := by decide
theorem test_wf_unit : (Instr.taskStart 0 64).wf = false := by decide
theorem test_wf_core : (Instr.storeBufferDrain 0 0 4).wf = false := by decide
theorem test_wf_cluster : (Instr.clusterBarrierRelease 0 3 0).wf = false := by decide
theorem test_wf_barrier : (Instr.clusterBarrierRelease 0 0 8).wf = false := by decide
theorem test_wf_group_die : (Instr.barTile ⟨8, 0, 0⟩).wf = false := by decide
theorem test_wf_group_tile : (Instr.barTile ⟨0, 15, 0⟩).wf = false := by decide
theorem test_wf_group_slot : (Instr.barTile ⟨0, 0, 64⟩).wf = false := by decide
theorem test_wf_seg : (Instr.memData 96 0).wf = false := by decide
theorem test_wf_line : (Instr.memData 0 0x4000000000).wf = false := by decide
theorem test_wf_agent : (Instr.agentDead 11).wf = false := by decide
theorem test_wf_req_agent : (Instr.rdOnce 0 0 { wfReq with agent := 11 }).wf = false := by decide
theorem test_wf_req_offset : (Instr.rdOnce 0 0 { wfReq with off := 1024 }).wf = false := by decide
theorem test_wf_req_sector : (Instr.rdOnce 0 0 { wfReq with sectors := [4] }).wf = false := by decide
theorem test_wf_req_poison : (Instr.rdOnce 0 0 { wfReq with poison := [4] }).wf = false := by decide
theorem test_wf_req_data : (Instr.rdOnce 0 0 { wfReq with data := [(1024, 0)] }).wf = false := by decide
theorem test_wf_addr : (Instr.load ⟨0, 0, 0⟩ .scratch { lo := some 256 } 3 4).wf = false := by decide
theorem test_wf_atom : (Instr.atom ⟨0, 0, 0⟩ { code := 1, addr := { base := 0 }, src := 256 }).wf = false := by decide
theorem test_wf_port : (Instr.linkHold 48).wf = false := by decide
theorem test_wf_lane : (Instr.lambdaReq 0 8 0 0 false).wf = false := by decide
theorem test_wf_wavelength : (Instr.laserFail 0 0 9).wf = false := by decide
theorem test_wf_node : (Instr.busyRetry 0 4096 0).wf = false := by decide
theorem test_wf_ring : (Instr.commandStart 8192).wf = false := by decide
theorem test_wf_seq : (Instr.kernel 0 0x100000000).wf = false := by decide
theorem test_wf_page : (Instr.commitAck 0x4000).wf = false := by decide
theorem test_wf_fn : (Instr.flr 64 []).wf = false := by decide
theorem test_wf_requester : (Instr.norDataRead 65).wf = false := by decide
theorem test_wf_slice : (Instr.release 64).wf = false := by decide
theorem test_wf_site : (Instr.ucieLinkLost 2).wf = false := by decide
theorem test_wf_package : (Instr.memHot 0 2 0).wf = false := by decide
theorem test_wf_good : (Instr.rdOnce 95 7 { wfReq with off := 1023, sectors := [3] }).wf = true ∧ (Instr.commitAck 0x3FFF).wf = true := by decide

/-! ### Small states the witnesses use -/

/-- A leaf of 64 KiB NORMAL memory, readable, writable and executable, at a frame. -/
def leaf0 (pa : Nat) : DWord := BitVec.ofNat 64 (pa + 0xF)

def gref : GRef := ⟨0, 0, 0⟩
def task0 : Task := { pasid := 5, slice := 1, ring := 2, seq := 9, regs := 32, groups := 1, code := 0x10000 }
def group0 : Group := { pc := 0x10000, mask := 1 }

/-- One group of one task on tile 0 of die 0, whose code page is in the tile's TLB. -/
def tileState : State :=
  { (State.reset) with
    tiles := { tiles := [(0, { task := some task0, resident := [(0, group0)] })] }
    xlate := { tlb := [(pTlb 0 0, [{ pasid := 5, va := 0x10000, size := 0, leaf := leaf0 0x10000 }])] } }

/-- The same with one byte of the scratchpad buffered by the core. -/
def bufState : State :=
  { tileState with tiles := { tiles := [(0, { task := some task0, resident := [(0, group0)], sb := [(0, [{ scratch := true, block := 0, bytes := [(0, 7)], slots := [0] }])] })] } }

/-- The same with a data page in the tile's TLB and the home segment of its lines in service. -/
def memState : State :=
  setUnit (segPage State.reset (homeSeg 0x20000 false)) { state := .active, enable := true }
    { tileState with xlate := { tlb := [(pTlb 0 0, [{ pasid := 5, va := 0x10000, size := 0, leaf := leaf0 0x10000 },
                                                    { pasid := 5, va := 0x20000, size := 0, leaf := leaf0 0x20000 }])] } }

/-- The task placed on tile 0 of die 0 and not yet started, after a task of another context. -/
def issuedState : State :=
  { (State.reset) with tiles := { tiles := [(0, { issued := some task0, prevPasid := some 6, l1 := [(3, {})] })] } }

/-- A task whose groups have all retired. -/
def doneState : State := { (State.reset) with tiles := { tiles := [(0, { task := some task0 })] } }

def twoGroups : State :=
  { tileState with tiles := { tiles := [(0, { task := some task0, resident := [(0, group0), (16, group0)] })] } }

def barState : State :=
  { tileState with tiles := { tiles := [(0, { task := some task0, resident := [(0, { group0 with wait := .barCluster true })] })], bars := [(2, { active := true, members := [0], cw := 1, expected := 1, arrived := [(0, 0)], mem := true })] } }

/-- A group that has parked with XLATE, its entry held. -/
def parkState : State := park 0 0 0 { cause := 0x0F, pc := 0x10000 } tileState

/-- An operation with an opcode at the head of queue 0. -/
def mxState (opc : Nat) : State :=
  { tileState with tiles := { tiles := [(0, { task := some task0, resident := [(0, group0)], mx := { queues := [(0, [{ num := 0, desc := BitVec.ofNat 8 opc :: List.replicate 127 0 }])], next := [(0, 1)] } })] } }

/-- A store buffer whose 32 entries are taken. -/
def fullState : State :=
  { tileState with tiles := { tiles := [(0, { task := some task0, resident := [(0, group0)], sb := [(0, (List.range 32).map fun i => { scratch := true, block := 100 + i, bytes := [(6400 + 64 * i, 7)], slots := [0] })] })] } }

/-- A 128-byte descriptor with words at offsets. -/
def mkDesc (l : List (Nat × Nat)) : List Byte := (List.range 32).flatMap fun w => leBytes 4 ((slook l (4 * w)).getD 0)
def loadDesc : List Byte := mkDesc [(0, 2), (0x54, 256), (0x58, 16)]
def mmaDesc : List Byte :=
  mkDesc [(0, 0x200001), (8, 64), (0x10, 256), (0x14, 64), (0x20, 512), (0x24, 64), (0x38, 0x3F800000), (0x3C, 0x3F800000)]
def storeDesc : List Byte := mkDesc [(0, 0xD003), (0x40, 1024), (0x44, 16), (0x50, 0x3F800000)]
def normDesc : List Byte := mkDesc [(0, 0xD00B), (0x48, 0x2000), (0x4C, 1024), (0x50, 0x4000)]

/-- An operation of a descriptor at the head of queue 0. -/
def mxOp (desc : List Byte) : State :=
  { tileState with tiles := { tiles := [(0, { task := some task0, resident := [(0, group0)], mx := { queues := [(0, [{ num := 0, desc := desc }])], next := [(0, 1)] } })] } }
def poisonedOp : State := setTile 0 0 { tileSt (mxOp loadDesc) 0 0 with scratchPoison := [4] } (mxOp loadDesc)

/-- The dispatcher in service, an enabled pool of slice 1 for PASID 5, a page of NORMAL memory in the dispatcher's TLB that
holds one JOIN entry and one pool entry, and a command of ring 2 that waits for its unit. -/
def cmdState (opc : Nat) (raw : List Byte) : State :=
  setUnit pDispatch { state := .active, enable := true }
    { (State.reset) with
      disp := { cmds := [{ ring := 2, no := 0, seq := 3, opc := opc, raw := raw, pasid := 5, slice := 1 }] }
      committed := [(regKey 0 pPageAlloc 0x100, 0x200000), (regKey 1 pPools 0x104, 0x100005), (regKey 1 pPools 0x108, 0x100000),
                    (regKey 1 pPools 0x110, 64), (regKey 1 pPools 0x114, 0x40000)]
      mem := [(0x20000, 0x09), (0x20002, 0x04), (0x20004, 0x10), (0x20006, 0x40), (0x20012, 0x03), (0x20018, 0x40), (0x20110, 0x01)]
      xlate := { tlb := [(pDispatch, [{ pasid := 5, va := 0x20000, size := 0, leaf := leaf0 0x20000 }])] } }

/-- A STEP with one entry at 0x20000, and a PAGES command with its buffer at 0x20100. -/
def stepBody : List Byte := List.replicate 64 0 ++ leBytes 8 0x20000 ++ leBytes 8 0
def pagesBody (sub n : Nat) : List Byte :=
  List.replicate 16 0 ++ leBytes 4 (sub + 32 * n) ++ leBytes 4 0 ++ leBytes 8 (if sub < 2 then 0x20100 else 0)

/-- A STEP whose tasks have all been issued and retired, with one JOIN to release. -/
def releaseState : State :=
  { cmdState 2 stepBody with disp := { cmds := [{ ring := 2, no := 0, seq := 3, opc := 2, pasid := 5, slice := 1, launched := true, nextTask := 1, step := [{ kind := 1, seq := 2 }] }] } }

def fusedDesc : List Byte := mkDesc [(0, 0xD008), (0x20, 0x20000), (0x30, 0x3F800000), (0x48, 0x2000), (0x4C, 128)]
def appendDesc : List Byte := mkDesc [(0, 9), (0x20, 0x20000), (0x38, 0x1000), (0x3C, 128), (0x40, 1)]
def decodeDesc : List Byte := mkDesc [(0, 0xD00A), (0x0C, 1), (0x20, 0x20000), (0x48, 0x2000), (0x4C, 1024)]

/-- An attention operation at the head of queue 0 with a one-entry page list in memory. -/
def attnState (desc : List Byte) : State :=
  { mxOp desc with
    mem := [(0x20000, 1), (0x20002, 2), (0x20009, 0x10), (0x2000A, 2)]
    xlate := { tlb := [(pTlb 0 0, [{ pasid := 5, va := 0x10000, size := 0, leaf := leaf0 0x10000 },
                                   { pasid := 5, va := 0x20000, size := 0, leaf := leaf0 0x20000 }])] } }
/-- The same while the data page is being moved: no TLB entry, and a leaf of 1 GiB with MIGRATING in the page tables. -/
def movingState (desc : List Byte) : State :=
  { attnState desc with
    prot := { pbt := [{ slice := 1, pasid := 5, root := some 0x40000 }] }
    units := [(pWalkers 0, { state := .active, enable := true })]
    xlate := { tlb := [(pTlb 0 0, [{ pasid := 5, va := 0x10000, size := 0, leaf := leaf0 0x10000 }])] }
    mem := [(0x40000, 0x01), (0x40002, 0x05), (0x50000, 0x8F), (0x50003, 0x40)] }

/-- A request of an agent; the home segment of a line in service, and that line with a transaction open. -/
def freq (agent : Nat) : FReq := { kind := .rdOnce, agent := agent, stream := 0 }
def segOn (seg : Nat) : State := setUnit (segPage State.reset seg) { state := .active, enable := true } State.reset
def segBusy (ph : TPhase) : State := setHome 3 5 { trans := some { req := freq 8, phase := ph, waiting := [2] } } (segOn 3)
/-- A message of a kind in flight to or from agent 2 for line 5 of segment 3, whose transaction waits for it; the agent holds
the line in M and has a NACKed request outstanding. -/
def netState (k : FMsgKind) : State :=
  { (setHome 3 5 { trans := some { req := freq 2, phase := .snoop, waiting := [2], fetch := [1] } } (segOn 3)) with
    felt := { (setHome 3 5 { trans := some { req := freq 2, phase := .snoop, waiting := [2], fetch := [1] } } (segOn 3)).felt with net := [{ kind := k, seg := 3, line := 5, agent := 2 }], copies := [(copyKey 2 5, { st := .m, data := [(0, 7)], seg := 3 })], reqs := [{ req := freq 2, seg := 3, line := 5, nacked := true }] } }
def memDataState : State :=
  setHome 3 5 { trans := some { req := freq 2, phase := .memory, fetch := [1] } }
    (send { kind := .memData, seg := 3, line := 5, sectors := [1] } (segOn 3))
def noReps : State := wr (pSegment 1 (segUnit (segOn 3) (12 + replicaSeg 5120))) 0x104 0 (segOn 3)

/-- A load that waits in the replay queue of core 0, and the load. -/
def replayIns : LoadIns := { space := .scratch, addr := { base := 0 }, dst := 3, bytes := 4 }
def replayState (r : Replay) : State :=
  { tileState with tiles := { tiles := [(0, { task := some task0, resident := [(0, { group0 with wait := .memory, load := some { ins := replayIns } })], replays := [(0, [r])] })] } }

/-- A walk of stream 3 of a tile's TLB at the root of PASID 5; its first entry points to a table whose second entry is a leaf
with MIGRATING and whose third is a leaf. -/
def walkState (stale : Bool) : State :=
  { (State.reset) with
    prot := { pbt := [{ slice := 1, pasid := 5, root := some 0x40000 }] }
    units := [(pWalkers 0, { state := .active, enable := true })]
    xlate := { walks := [{ holder := pTlb 0 0, stream := 3, die := 0, pasid := 5, va := 0x1000, kind := .read, level := 0, table := 0x40000, stale := stale }] }
    mem := [(0x40000, 0x01), (0x40002, 0x05), (0x50008, 0x8F), (0x5000B, 0x40), (0x50010, 0x0F)] }

/-- Ring 2 of slice 1 with commands: its group mapped, its slice enabled for function 0, its context bound, its ring table
entry and one PHASE command in memory, the queues' page in the dispatcher's TLB. -/
def ringState (r : Ring) (cmds : List Cmd) : State :=
  setUnit pDispatch { state := .active, enable := true }
    { (State.reset) with
      disp := { rings := sput (fun _ => ({} : Ring)) [] 2 r, cmds := cmds }
      regs := [(regKey 0 pDspRings 0x108, 2)]
      committed := [(regKey 0 pSlice 0x100, 0x81), (regKey 0 (sliceReg 1 0).1 (sliceReg 1 0).2, 0x801)]
      prot := { pbt := [{ slice := 1, pasid := 5, slot64k := 1, saveBase := 0x100000 }] }
      mem := [(0x82, 0x02), (0x89, 0x10), (0x8A, 0x02), (0x90, 0x05), (0x94, 0x84), (0x20000, 0x0B), (0x20004, 0x05), (0x20010, 0x03)]
      xlate := { tlb := [(pDispatch, [{ pasid := 5, va := 0x20000, size := 0, leaf := leaf0 0x20000 }])] } }
def phaseBody : List Byte := leBytes 4 0x0B ++ leBytes 4 5 ++ leBytes 8 0 ++ leBytes 4 3
def openWaitState (cond : Nat) : State :=
  updCmd 2 0 (fun x => { x with launched := true }) (cmdState 7 (List.replicate 16 0 ++ leBytes 8 0x20000 ++ leBytes 8 0 ++ leBytes 8 0 ++ leBytes 4 cond ++ leBytes 4 0))
def snapBody : List Byte := List.replicate 16 0 ++ leBytes 8 0x200000 ++ leBytes 4 8
/-- A leaf of 2 MiB in the dispatcher's TLB. -/
def bigPage (s : State) : State := { s with xlate := { tlb := [(pDispatch, [{ pasid := 5, va := 0x200000, size := 2, leaf := leaf0 0x200000 }])] } }
/-- A command of an opcode that waits, with the engines of die 0 active and fabric rights. -/
def engState3 (opc : Nat) (raw : List Byte) : State :=
  setUnit (pCopyEngine 0 0) { state := .active } (setUnit (pCollective 0) { state := .active }
    (wrB 1 (dlPage 0) 0x110 1 { cmdState opc raw with committed := [(regKey 0 (sliceReg 1 0x20).1 (sliceReg 1 0x20).2, 1)] }))
def copyBody (mode : Nat) : List Byte := List.replicate 32 0 ++ leBytes 8 64 ++ leBytes 4 mode ++ leBytes 4 0
def putBody : List Byte := List.replicate 32 0 ++ leBytes 8 64 ++ leBytes 4 0 ++ leBytes 4 0
def dirtyBody : List Byte := List.replicate 16 0 ++ leBytes 8 0x20000 ++ leBytes 4 0x100 ++ leBytes 4 0
/-- A COLLECTIVE whose plan of one COPY step and one rank stands at 0x20000. -/
def planState : State :=
  { engState3 8 (List.replicate 16 0 ++ leBytes 8 0x20000 ++ leBytes 4 96 ++ leBytes 4 0) with
    mem := [(0x20012, 0x02), (0x20011, 0x02), (0x20040, 0x03), (0x20058, 0x40)]
    xlate := { tlb := [(pDispatch, [{ pasid := 5, va := 0x20000, size := 0, leaf := leaf0 0x20000 }]), (pCollective 0, [{ pasid := 5, va := 0x20000, size := 0, leaf := leaf0 0x20000 }])] } }

/-- One kernel of one task ready to issue, with logical tile 0 active for slice 1. -/
def kernelBody : List Byte := List.replicate 32 0 ++ leBytes 4 0 ++ leBytes 4 0 ++ List.replicate 24 0
def kernelCmd : Cmd := { ring := 2, no := 0, seq := 3, opc := 1, raw := kernelBody, pasid := 5, slice := 1, launched := true }
def tileOn (s : State) : State :=
  { s with units := s.units ++ ((List.range 16).map fun b => (pageOf 0 0 b, ({ state := .active } : UnitSt))), org := { s.org with bindTile := [(0, 1)] } }
def issueState : State := tileOn (ringState { state := .active } [kernelCmd])
def claimState : State := { issueState with disp := { issueState.disp with resid := [(0, { pasid := 6, slice := 1, pin := 1 })] } }
def spillState : State := { issueState with disp := { issueState.disp with resid := [(0, { pasid := 5, slice := 1, pin := 1 })], leaving := [0] } }
def restoreState : State :=
  { issueState with disp := { issueState.disp with saved := [(5, 0, 1)] }, tiles := { tiles := [(0, { issued := some { task0 with restore := true } })] } }
def recordState (va : Nat) : State :=
  ringState { state := .active, ent := { sqVa := 0x20000, cqVa := va, pasid := 5 } } [{ ring := 2, no := 0, seq := 3, opc := 0, pasid := 5, slice := 1, status := some (0, 0) }]
def movedRecord : State :=
  { recordState 0x30000 with
    units := (recordState 0x30000).units ++ [(pWalkers 0, { state := .active, enable := true })]
    prot := { pbt := [{ slice := 1, pasid := 5, root := some 0x40000 }] }
    mem := [(0x40000, 0x01), (0x40002, 0x05), (0x50000, 0x8F), (0x50003, 0x40)] }

/-- Port 7 with a record and the low bits of LINK_STAT. -/
def linkState (st : Nat) (p : PortSt) : State :=
  wr (pPort 7) 0x110 (BitVec.ofNat 32 st) (setPort 7 p { (State.reset) with now := 20000000 })

/-- A packet of a type in the inbox of die 2; a SIGNAL message ready on an active engine; a sent chunk of queue 0 to node 3. -/
def inboxState (typ : Nat) : State := { (State.reset) with xfer := { inbox := [(2, [{ src := 3, dst := 0, queue := 0, typ := typ, payload := List.replicate 32 0 }])] } }
def engOn (s : State) : State := setUnit (pCopyEngine 0 0) { state := .active } s
def sendState : State :=
  engOn { (State.reset) with
    committed := [(regKey 0 (sliceReg 1 0).1 (sliceReg 1 0).2, 1)]
    xfer := { msgs := [{ id := 4, die := 0, engine := some 0, ring := 2, no := 0, slice := 1, pasid := 5, kind := .signal, node := 3 }] } }
structure ChunkArgs where
  msg : Option Nat := none
  isGet : Bool := false
  busyAt : Option Nat := none
  resend : Nat := 0
def chunkState (a : ChunkArgs) : State :=
  engOn { (State.reset) with
    xfer := { msgs := [{ id := 4, die := 0, engine := some 0, ring := 2, no := 0, slice := 1, pasid := 5, kind := .get, node := 3 }], tx := [(3, { next := 10, chunks := [{ cseq := 9, msg := a.msg, idx := 0, len := 0, isGet := a.isGet, busyAt := a.busyAt, resend := a.resend }] })] } }
/-- Slice 1 with a fabric endpoint, whose page is being moved. -/
def fabState : State :=
  { (State.reset) with
    committed := [(regKey 0 (sliceReg 1 0).1 (sliceReg 1 0).2, 1), (regKey 0 (sliceReg 1 0x20).1 (sliceReg 1 0x20).2, 1), (regKey 0 (sliceReg 1 0x24).1 (sliceReg 1 0x24).2, 5)]
    prot := { pbt := [{ slice := 1, pasid := 5, root := some 0x40000 }] }
    units := [(pWalkers 0, { state := .active, enable := true })]
    mem := [(0x40000, 0x01), (0x40002, 0x05), (0x50000, 0x8F), (0x50003, 0x40)] }
def heldState : State :=
  wr (pPort 7) 0x110 0x206 { (State.reset) with links := { inq := [(30, [{ dst := 5, src := 6, vc := 0, first := true, last := true, typ := 1 }])], route := [(30, .out 7 0 1)] } }
def boundState : State :=
  { (State.reset) with
    now := 5000000
    xfer := { msgs := [{ id := 4, die := 0, ring := 2, no := 0, slice := 1, pasid := 5, kind := .put, holdMs := 5, heldAt := some 0 }] } }
/-- A plan of one step in slot 0 of die 0. -/
def stepState (op : Nat) : State :=
  setUnit (pCollective 0) { state := .active }
    { (State.reset) with
      committed := [(regKey 0 (sliceReg 1 0x24).1 (sliceReg 1 0x24).2, 5), (regKey 0 (sliceReg 1 0x28).1 (sliceReg 1 0x28).2, 0x20000)]
      xfer := { plans := [(0, { ring := 2, no := 0, slice := 1, pasid := 5, peers := [0, 3], steps := [{ op := op, fence := false, countEn := false, counter := 0, peer := 1, queue := 0, cidx := 0, a := 0x20000, b := 0x20100, len := 256 }] })] }
      xlate := { tlb := [(pCollective 0, [{ pasid := 5, va := 0x20000, size := 0, leaf := leaf0 0x20000 }])] } }
def runState (s : State) : State := wr pBoot 0x100 5 s
def matchState : State := wr pPace 0x104 0 (wr pPace 0x108 0x200 (runState State.reset))
def lagState : State :=
  wr pPace 0x104 0x40000 (runState { (State.reset) with xfer := { lag := [(0, [{ node := 3, lagging := true, pace := 50, paceAt := some 0 }])], plans := [(0, { ring := 2, no := 0, slice := 1, pasid := 5, paceMatch := true, peers := [0, 3] })] } })

/-- A commit in progress that waits for pages, with the dispatcher in service; a slice in containment. -/
def commitState (l : List Nat) : State :=
  setUnit pDispatch { state := .active } { (State.reset) with prot := { phase := .committing, waiting := l } }
def containState : State := { (State.reset) with slices := [(1, { contained := true })] }

/-- In RUN; a line the host was asked for; site 0 with its link up, in raw mode or in CXL mode with an aperture of 8 KiB; the same
with one raw request outstanding. -/
def hostState : State := runState State.reset
def biState : State := { (State.reset) with host := { biWait := [{ line := 5, seg := 3 }] } }
def siteState (raw : Bool) : State :=
  wr (pUcie 0) 0x104 (if raw then 6 else 2) (setUnit (pUcie 0) { state := .active } (runState { (State.reset) with
    power := { up := true }
    org := { (State.reset).org with csPresent := [true, false] }
    committed := [(regKey 0 (pUcie 0) 0x110, 0x2000)] }))
def deadSite : State := { siteState true with felt := { dead := [9] } }
def rawState (w : Bool) : State := { deadSite with host := { raw := [{ site := 0, tag := 4, write := w, off := 0, len := 4 }] } }
def holdRun : State := { hostState with inHold := true, power := { up := true } }

/-- In RUN with the watchdog enabled, what the last sample saw and how many beats are missed; the same with a standby; a failover in
progress; a started command of ring 2; a Hatbox trigger. -/
def wdState (last : Option Nat) (n : Nat) : State :=
  wr pWatchdog 0x104 1 (runState { (State.reset) with recov := { hbLast := last, misses := n } })
def spareDsp (s : State) : State := setUnit pStandby { state := .spare } s
def overState : State := { (State.reset) with disp := { failover := true } }
def openState : State := { (State.reset) with disp := { cmds := [{ ring := 2, no := 0, seq := 3, opc := 1, pasid := 5, slice := 1 }] } }
def hatState : State := { (State.reset) with recov := { hatReq := [6] } }
/-- A recovery with units not yet back; a task aborted at time 0 and the time; Pounce running with tile 4 of die 0 SPARE, tiles 0 and
5 bound and leaving, and the array of page 7 due. -/
def recovState (l : List Nat) : State := { (State.reset) with recov := { running := true, faulty := l } }
def lateState (n : Nat) : State := { tileState with now := n, tiles := { tiles := [(0, { task := some { task0 with aborted := true } })] } }
def poState : State :=
  setUnit (pTile 0 4) { state := .spare } (wr pWatchdog 0x160 0x10000 (runState { (State.reset) with
    org := { (State.reset).org with bindTile := [(0, 1), (4, 6)] }
    disp := { leaving := [0, 4] }
    recov := { due := [7] } }))

/-- With power; in HOLD for ten seconds, with its test over and copy engine 0 held as ACTIVE. -/
def upState : State := { (State.reset) with power := { up := true } }
def heldUp : State :=
  setUnit (pCopyEngine 0 0) { state := .hold, held := .active } { (State.reset) with now := 10000000000, inHold := true, power := { up := true, hold := { testUntil := some 5 } } }

/-- With power and the eFuse in a state with a count of retries; slot 1 of the journal being erased. -/
def fuseState (e : EFuse) (n : Nat) : State := { (State.reset) with power := { up := true, efuse := e, retries := n } }
def eraseState : State := { (State.reset) with nor := { erasing := some 1 } }

/-- In RUN with power; the same with die 2 at 90 °C and the others at 40; with a droop detector enabled and VDD_T at 750 mV; with
THROTTLE_N asserted; with a command of ring 2. -/
def hotState : State := runState upState
def hotTemps (s : State) : State :=
  { s with power := { s.power with temps := (List.range 11).map fun i => [[40], [40], [90], [40], [40], [40], [40], [40], [40], [40], [40]].getD i [] } }
def droopState : State := wr (pPwrtherm 0 + 1) 0x100 0x200 (wr (pPwrtherm 0) 0x104 750 hotState)
def stuckState : State := runState { (State.reset) with power := { up := true, throttle := true } }
def chargeState : State := { openState with power := { up := true } }

/-- Site 0 awaited in the ROM's phase; START begun at time 0, two seconds ago. -/
def findState : State := wr (pUcie 0) 0x100 0x40 (wr pBoot 0x100 1 { upState with boot := { toFind := [0] } })
def startState : State := wr pBoot 0x100 4 { upState with now := 2000000000 }
def goodPart (nor : Bool) : Part := { straps := (List.range 9).map fun p => (p, 0), norOk := nor }
def perstState : State := { upState with boot := { perst := true } }

/-- Powered in the ROM's phase, at a stage of the negotiation with sessions; the MMC ready, with power or not and an eFuse state. -/
def spdmState (n : Nat) (l : List SpdmSession) : State := { wr pBoot 0x100 1 upState with spdm := { stage := n, sessions := l } }
def mmcState (up : Bool) (e : EFuse) : State := { (State.reset) with power := { up := up, efuse := e }, mmc := { ready := true } }
theorem witness_StepRunsFrontCommand : ({ (State.reset) with pending := [.snapFire] } : State).pending = .snapFire :: []
    ∧ State.reset.pending = [] := by decide

theorem witness_MisalignedRegisterAccess : (2 : Nat) % (if false then 8 else 4) ≠ 0 ∧ (12 : Nat) % (if true then 8 else 4) ≠ 0
    ∧ (3 : Nat) % 4 + 1 ≤ 4 ∧ (4 < (3 : Nat) % 4 + 2) ∧ (4 : Nat) % 8 ≠ 0 := by decide

theorem witness_PlainRegisterWritten : ({ (State.reset) with inHold := true } : State).inHold = true
    ∧ (0x1000 : Nat) % 4 = 0 ∧ pageDie (0x1000 / 0x1000) < 8 ∧ (0x4000000 : Nat) % 4 = 0 := by decide

theorem witness_CounterReadIsWhole : (pIntr * 0x1000 + 0x100) % 4 = 0 ∧ pIntr * 0x1000 + 0x100 + 4 < 0x4000000
    ∧ isCounter64 pIntr 0x100 = true ∧ isCounter64 pIntr 0x104 = false ∧ mayRead State.reset 0 pIntr 0x100 = true
    ∧ mayRead State.reset 0 pIntr 0x104 = true ∧ pagePresent State.reset pIntr = true := by decide

theorem witness_DataPortReads : bitOf (rd State.reset pDist 0x100) 31 = false
    ∧ bitOf (rd (wr pDist 0x100 0x80000000 State.reset) pDist 0x100) 31 = true ∧ (7 : Nat) < 15360 := by decide

theorem witness_EventBitsForcedAndCleared : pTlb 0 0 < 0x4000 ∧ hasHeader (pTlb 0 0) = true ∧ isGroupPage (pTlb 0 0) = false
    ∧ pagePresent State.reset (pTlb 0 0) = true ∧ State.reset.inHold = false ∧ pDie 0 < 0x4000 ∧ hasHeader (pDie 0) = true
    ∧ isGroupPage (pDie 0) = true := by decide

theorem witness_UnitTakesEnableAndDrain : pageKind (pSegment 1 2) = some .segment ∧ PageKind.segment.honoursCtrl = true
    ∧ isLeaf (pSegment 1 2) = true ∧ counted State.reset (pSegment 1 2) = true ∧ State.reset.inHold = false
    ∧ (unitSt State.reset (pSegment 1 2)).state = .off ∧ (unitSt State.reset (pSegment 1 2)).enable = false
    ∧ ({ (State.reset) with inHold := true } : State).inHold = true := by decide

theorem witness_ForceOffAndResetTogether : State.reset.inHold = false ∧ (unitSt State.reset (pTlb 0 0)).state ≠ .faulted
    ∧ pageKind (pTlb 0 0) ≠ some .segment ∧ pageKind (pTlb 0 0) ≠ some .port
    ∧ (unitSt (setUnit (pTlb 0 0) { state := .faulted } State.reset) (pTlb 0 0)).state = .faulted := by decide

theorem witness_SnapshotTriggers :
    (snapLatched State.reset && !bitOf (rd State.reset pSnap 0x100) 3) = false
    ∧ snapLatched (wr pSnap 0x10C 2 State.reset) = true ∧ bitOf (rd (wr pSnap 0x10C 2 State.reset) pSnap 0x100) 3 = false
    ∧ ({ (State.reset) with power := { up := true }, snap := { lastPin := some 5 }, now := 7 } : State).now < 5 + 100000
    ∧ ((wr pSnap 0x100 1 { (State.reset) with power := { up := true } }).power.up = true
        ∧ (wr pSnap 0x100 1 { (State.reset) with power := { up := true } }).snap.lastPin = none
        ∧ bitOf (rd (wr pSnap 0x100 1 { (State.reset) with power := { up := true } }) pSnap 0x100) 0 = true)
    ∧ bitOf (rd (wr pSnap 0x100 2 { (State.reset) with snap := { seen := [(3, 4)] } }) pSnap 0x100) 1 = true
    ∧ (wr pSnap 0x100 2 State.reset).snap.seen.contains (3, 4) = false
    ∧ (wr pSnap 0x100 2 { (State.reset) with inHold := true }).inHold = true
    ∧ (snapLatched (wr pSnap 0x100 2 State.reset) && !bitOf (rd (wr pSnap 0x100 2 State.reset) pSnap 0x100) 3) = false := by decide

theorem witness_RegisterInstructionsWriteOneRegister : mayIssue gref task0 group0 [3] tileState ∧ mayIssue gref task0 group0 [3, 1, 2, 2] tileState
    ∧ isNan32 0x7F800001 = true ∧ (5 : Nat) < 32
    ∧ ({ group0 with stack := [(0xF, 0x2000)] } : Group).stack = (0xF, 0x2000) :: [] := by
  unfold mayIssue; decide

theorem witness_LoadsWriteWhatTheTargetHolds :
    mayIssue gref task0 group0 (regSpan 3 4 ++ formRegs { base := 64 }) tileState ∧ group0.ordered = false
    ∧ accesses tileState gref task0 group0 .scratch { base := 64 } .read 4 = .scratch [{ thread := 0, tile := 0, off := 64 }]
    ∧ sbOf (tileSt tileState 0 0) 0 = [] ∧ replaysOf (tileSt tileState 0 0) 0 = [] ∧ group0.active = [0]
    ∧ winners (rowsOf 4 [{ thread := 0, tile := 0, off := 64 }]) = rowsOf 4 [{ thread := 0, tile := 0, off := 64 }]
    ∧ tileState.host.raw = [] ∧ (tileSt tileState 0 0).scratchPoison = []
    ∧ sbCheck (sbOf (tileSt bufState 0 0) 0) (scratchKeys { thread := 0, tile := 0, off := 0 } 1) = .all [7]
    ∧ mayIssue gref task0 group0 (regSpan 3 1 ++ formRegs { base := 0 }) bufState
    ∧ accesses bufState gref task0 group0 .scratch { base := 0 } .read 1 = .scratch [{ thread := 0, tile := 0, off := 0 }]
    ∧ accesses tileState gref task0 group0 .scratch { base := 0x7FFFFFE } .read 4 = .illegal := by
  unfold mayIssue; decide

theorem witness_LoadsWriteWhatTheTargetHolds_memory :
    (match accesses memState gref task0 group0 .mem { base := 0x20000 } .read 4 with
     | .mem l => l.length == 1 && loadReady memState gref true l
         && l.all fun a => a.parts.length == 1 && a.parts.all fun p => p.mtype != 3 && (sectorsOf p.pa p.len).all fun x => !cohPoison memState p.il x.1
     | _ => false) = true
    ∧ mayIssue gref task0 group0 (regSpan 3 4 ++ formRegs { base := 0x20000 }) memState := by
  unfold mayIssue; decide

theorem witness_StoresWaitInTheBufferUntilTheyDrain :
    mayIssue gref task0 group0 (regSpan 3 4 ++ formRegs { base := 64 }) tileState
    ∧ accesses tileState gref task0 group0 .scratch { base := 64 } .write 4 = .scratch [{ thread := 0, tile := 0, off := 64 }]
    ∧ sbOf (tileSt tileState 0 0) 0 = [] ∧ group0.ordered = false
    ∧ slotBuffered (tileSt tileState 0 0) 0 = false ∧ slotBuffered (tileSt bufState 0 0) 0 = true
    ∧ mayIssue gref task0 group0 [] tileState ∧ mayIssue gref task0 group0 [] bufState
    ∧ sbOf (tileSt bufState 0 0) 0 = [{ scratch := true, block := 0, bytes := [(0, 7)], slots := [0] }] ∧ bufState.inHold = false
    ∧ drainReady memState 0 { scratch := false, block := 0x20000 / 64, bytes := [(0x20000, 7)] } = true
    ∧ mayIssue gref task0 group0 (atomRegs { code := 0, addr := { base := 0x20000 } }) memState ∧ scalarSizeOk 0 4 = true
    ∧ (match accesses memState gref task0 group0 .mem { base := 0x20000 } .write 4 with
       | .mem l => l.length == 1 && atomReady memState gref l && l.all fun a => a.thread == 0 && a.parts.all fun p => p.mtype != 3
       | _ => false) = true
    ∧ mayIssue gref task0 group0 (atomRegs { code := 0, addr := { base := 64 }, scratch := true }) tileState := by
  unfold mayIssue; decide

theorem witness_StoresWaitInTheBufferUntilTheyDrain_full :
    32 < ((storeEntries 0 task0 group0 3 4 (.scratch [{ thread := 0, tile := 0, off := 64 }]) [0]).foldl sbAdd
      (sbOf (tileSt fullState 0 0) 0)).length
    ∧ accesses fullState gref task0 group0 .scratch { base := 64 } .write 4 = .scratch [{ thread := 0, tile := 0, off := 64 }]
    ∧ mayIssue gref task0 group0 (regSpan 3 4 ++ formRegs { base := 64 }) fullState := by
  unfold mayIssue; decide

theorem witness_GroupRegistersStartAtZero : (tileSt issuedState 0 0).issued = some task0 ∧ (tileSt issuedState 0 0).task = none
    ∧ issuedState.inHold = false ∧ task0.restore = false := by decide

theorem witness_TaskStartsAndRetires : (tileSt issuedState 0 0).issued = some task0 ∧ (tileSt issuedState 0 0).task = none
    ∧ issuedState.inHold = false ∧ task0.restore = false ∧ (tileSt issuedState 0 0).prevPasid ≠ some task0.pasid ∧ (0 : Nat) < task0.groups
    ∧ (tileSt doneState 0 0).task = some task0 ∧ taskEnded (tileSt doneState 0 0) = true ∧ tileRaw doneState 0 0 = false := by decide

theorem witness_BarriersReleaseWhenAllHaveArrived : mayIssue gref task0 group0 [] twoGroups
    ∧ (0 : Nat) ∉ (tileSt twoGroups 0 0).barTile ∧ (16, group0) ∈ (tileSt twoGroups 0 0).resident ∧ 16 ∉ (tileSt twoGroups 0 0).barTile
    ∧ mayIssue gref task0 group0 [] tileState ∧ (∀ e ∈ (tileSt tileState 0 0).resident, e.1 ≠ 0 → e.1 ∈ (tileSt tileState 0 0).barTile)
    ∧ (0, 0) ∉ (clusterBar tileState 0 0 (barInst task0 0)).arrived
    ∧ (clusterBar barState 0 0 2).active = true ∧ (clusterBar barState 0 0 2).arrived ≠ []
    ∧ (clusterBar barState 0 0 2).expected ≤ (clusterBar barState 0 0 2).arrived.length
    ∧ barStoresDone barState 0 (clusterBar barState 0 0 2) = true ∧ barState.inHold = false
    ∧ (clusterBar (setClusterBar 0 0 2 { active := true, expected := 1 } barState) 0 0 2).arrived.length
        < (clusterBar (setClusterBar 0 0 2 { active := true, expected := 1 } barState) 0 0 2).expected := by
  unfold mayIssue; decide

theorem witness_ParkTagsCountParks : (tileSt tileState 0 0).task = some task0 ∧ groupOf (tileSt tileState 0 0) 0 = some group0 := by decide

theorem witness_ParkedGroupsAreWrittenReplayedDiscarded :
    (tileSt parkState 0 0).parkHeld ≠ [] ∧ parkUsed parkState 0 < parkEntries parkState 0
    ∧ parkEntries (wr (pCluster 0 0) 0x20C 64 parkState) 0 ≤ parkUsed (wr (pCluster 0 0) 0x20C 64 parkState) 0
    ∧ parkMatches parkState 0 0 0 1 = true ∧ parkMatches parkState 0 0 0 2 = false
    ∧ parkUsed tileState 0 = 0 ∧ anyHeldPark tileState 0 = false ∧ anyHeldPark parkState 0 = true := by decide

theorem witness_MatrixQueuesIssueAndWait : mayIssue gref task0 group0 (3 :: formRegs { base := 128 }) tileState
    ∧ (tileSt tileState 0 0).mx.split = false ∧ ((tileSt tileState 0 0).mx.queue 0).length < 16
    ∧ mayIssue gref task0 group0 [3] (mxState 0) ∧ mxNumber ((tileSt (mxState 0) 0 0).mx.issued 0) (group0.reg group0.first 3).toNat = some 0
    ∧ (mxHead (mxState 0) 0 0 0).isSome = true ∧ isOp { num := 0, desc := List.replicate 128 0 } 0 = true
    ∧ mxCheck (List.replicate 128 0) false 0 (scratchSize 0) = 0 ∧ (tileSt (mxState 0) 0 0).mx.idle = false
    ∧ ({ wantSplit := some true } : MxSt).idle = true := by
  unfold mayIssue; decide

theorem witness_MatrixOperationsWriteTheirRegion : (mxHead (mxOp loadDesc) 0 0 0).isSome = true ∧ isOp { num := 0, desc := loadDesc } 2 = true
    ∧ mxCheck loadDesc false 0 (scratchSize 0) = 0 ∧ (mxReads loadDesc).any (spanPoison (tileSt (mxOp loadDesc) 0 0)) = false
    ∧ opUndefined (tileSt (mxOp loadDesc) 0 0).mx 0 { num := 0, desc := loadDesc } = false ∧ dBit loadDesc 0 23 = false ∧ 0 < dM loadDesc ∧ 0 < dN loadDesc := by
  decide

theorem witness_MatrixOperationsWriteTheirRegion_mma : (mxHead (mxOp mmaDesc) 0 0 0).isSome = true ∧ isOp { num := 0, desc := mmaDesc } 1 = true
    ∧ mxCheck mmaDesc false 0 (scratchSize 0) = 0 ∧ (mxReads mmaDesc).any (spanPoison (tileSt (mxOp mmaDesc) 0 0)) = false
    ∧ dBit mmaDesc 0 19 = false ∧ dBit mmaDesc 0 22 = false
    ∧ opUndefined (tileSt (mxOp mmaDesc) 0 0).mx 0 { num := 0, desc := mmaDesc } = false
    ∧ (tileSt (mxOp mmaDesc) 0 0).mx.regionPoison (accRegion false 0 0 1 1) = false := by decide

theorem witness_MatrixOperationsWriteTheirRegion_store : (mxHead (mxOp storeDesc) 0 0 0).isSome = true ∧ isOp { num := 0, desc := storeDesc } 3 = true
    ∧ mxCheck storeDesc false 0 (scratchSize 0) = 0 ∧ opUndefined (tileSt (mxOp storeDesc) 0 0).mx 0 { num := 0, desc := storeDesc } = false
    ∧ (mxReads loadDesc).any (spanPoison (tileSt poisonedOp 0 0)) = true ∧ (mxHead poisonedOp 0 0 0).isSome = true := by decide

theorem witness_AttentionOperationsComplete_norm : (attnHead (mxOp normDesc) 0 0 0 11).isSome = true
    ∧ attnCheck normDesc false 0 (scratchSize 0) = 0 ∧ opUndefined (tileSt (mxOp normDesc) 0 0).mx 0 { num := 0, desc := normDesc } = false
    ∧ recPoison (tileSt (mxOp normDesc) 0 0) normDesc 0 = false := by decide

theorem witness_AttentionOperationsComplete_gathers :
    (match attnHead (attnState fusedDesc) 0 0 0 8 with
     | some (op, k) => (attnIllegal 0 0 0 op k (attnState fusedDesc)).isNone && aOutMode op.desc != 2
        && (match fusedRows 0 0 0 k op.desc (attnState fusedDesc) with
            | .ok r s1 => (fusedOut 0 0 0 op k [] [startRow (tileSt (attnState fusedDesc) 0 0) op.desc 0] r.1 r.2 s1).isSome | _ => false)
     | none => false) = true
    ∧ (match attnHead (attnState appendDesc) 0 0 0 9 with
       | some (op, k) => (attnIllegal 0 0 0 op k (attnState appendDesc)).isNone && !spanPoison (tileSt (attnState appendDesc) 0 0) (aLocalSpan op.desc)
          && (match appendRows 0 0 0 k op.desc false [0] none 0 (attnState appendDesc) with | .ok _ _ => true | _ => false)
       | none => false) = true
    ∧ (match attnHead (attnState decodeDesc) 0 0 0 10 with
       | some (op, k) => (attnIllegal 0 0 0 op k (attnState decodeDesc)).isNone && !opUndefined (tileSt (attnState decodeDesc) 0 0).mx 0 op
          && (match decodeEntries 0 0 0 k op.desc [0] 0 (attnState decodeDesc) with | .ok _ _ => true | _ => false)
       | none => false) = true := by decide +kernel

theorem witness_AttentionOperationsComplete_hold :
    (match attnHead (movingState appendDesc) 0 0 0 9 with
     | some (op, k) => (attnIllegal 0 0 0 op k (movingState appendDesc)).isNone && !spanPoison (tileSt (movingState appendDesc) 0 0) (aLocalSpan op.desc)
        && (match appendRows 0 0 0 k op.desc false [0] none 0 (movingState appendDesc) with | .hold _ _ _ => true | _ => false)
     | none => false) = true := by decide +kernel

theorem witness_AttentionOperationsComplete_illegal : (attnHead (mxOp (mkDesc [(0, 8)])) 0 0 0 8).isSome = true
    ∧ attnCheck (mkDesc [(0, 8)]) false 0 (scratchSize 0) ≠ 0 := by decide

theorem witness_StewardTakesStepsAndPages_step :
    (match waitingCmd (cmdState 2 stepBody) 2 3 2 with
     | some c => dispRuns (cmdState 2 stepBody) && (slook (cmdState 2 stepBody).steward.running c.slice).isNone
        && !(sliceSt (cmdState 2 stepBody) c.slice).contained && poolEn (cmdState 2 stepBody) c.slice && c.pasid == poolPasid (cmdState 2 stepBody) c.slice
        && (match xlateRange c.ctx pDispatch c.pasid (bytesAt c.raw 64 8) 64 .read (cmdState 2 stepBody) with
            | .ok ps s1 => ps.all (fun p => p.mtype != 3) && !piecesPoison s1 ps
                && (let x := sentDecode ((readPieces s1 ps).take 64)
                    !cohPoisonN s1 true (seqPa s1 x.seq) 64 && sentDetails s1 c.slice false x (seqRec s1 x.seq) == [])
            | _ => false)
     | none => false) = true ∧ nfld (bytesAt stepBody 72 4) 31 13 = 0 ∧ bytesAt stepBody 76 4 = 0 ∧ bytesAt stepBody 64 8 % 64 = 0 := by decide +kernel

theorem witness_StewardTakesStepsAndPages_pages :
    (match pagesCmd (cmdState 0x0C (pagesBody 0 1)) 2 3 0 with
     | some c => !pagesBad c && (match xlateRange c.ctx pDispatch c.pasid (pgBuf c) 32 .read (cmdState 0x0C (pagesBody 0 1)) with
        | .ok ps s1 => ps.all (fun p => p.mtype != 3) && poolEn s1 c.slice && !piecesPoison s1 ps
            && decide (laneFree s1 c.slice (pgLane c) + pgCount c ≤ laneCap s1 c.slice)
            && poolEntryOk (((readPieces s1 ps).drop 16).take 16)
        | _ => false)
     | none => false) = true
    ∧ (match pagesCmd (cmdState 0x0C (pagesBody 1 1)) 2 3 1 with
       | some c => !pagesBad c && (match xlateRange c.ctx pDispatch c.pasid (pgBuf c) 16 .write (cmdState 0x0C (pagesBody 1 1)) with
          | .ok ps s1 => ps.all (fun p => p.mtype != 3) && poolEn s1 c.slice | _ => false)
       | none => false) = true
    ∧ (match pagesCmd (cmdState 0x0C (pagesBody 2 0)) 2 3 2 with | some c => !pagesBad c | none => false) = true
    ∧ (match pagesCmd (cmdState 0x0C (pagesBody 2 1)) 2 3 2 with | some c => pagesBad c | none => false) = true
    ∧ (match (releaseState).disp.cmds.find? fun c => c.ring == 2 && c.seq == 3 && c.opc == 2 && decide (c.step ≠ []) && c.status.isNone with
       | some c => c.fail.isNone && !c.unissued && !cmdBusy releaseState c.ring c.no
          && (match xlateReleases c c.step releaseState with | .ok _ _ => true | _ => false)
       | none => false) = true := by decide +kernel

theorem witness_FeltRequestsAreServedAtTheirHome : homeTakes 3 (freq 8) (segOn 3) ∧ lineIdle 3 5 (segOn 3)
    ∧ sharedAllowed noReps 5 (freq 1) = false ∧ homeTakes 3 (freq 1) noReps ∧ lineIdle 3 5 noReps
    ∧ orderedFull (segOn 3) 3 5 { freq 1 with kind := .red, ordered := true } = false
    ∧ homeTakes 3 (freq 1) (segBusy .snoop) ∧ (home (segBusy .snoop) 3 5).trans = some { req := freq 8, phase := .snoop, waiting := [2] }
    ∧ (freq 1).starve = false ∧ ({ freq 1 with agen := 1 } : FReq).agen ≠ expectGen State.reset 3 1 := by decide

theorem witness_FeltReadsAndWritesOfALine :
    let s := setHome 3 5 { sect := [.c, .d, .i, .i], data := [(0, 7)] } (segOn 3)
    let o := setHome 3 5 { sect := [.c, .d, .i, .i], dir := some { mode := .owned, ptrs := [some 8, none, none] } } (segOn 3)
    let r : FReq := { freq 8 with sectors := [0, 1] }
    let w : FReq := { freq 8 with data := [(0, 9)] }
    homeTakes 3 r s ∧ lineIdle 3 5 s ∧ (home s 3 5).owner = none ∧ (∀ i ∈ r.sectors, (home s 3 5).sector i ≠ .i)
    ∧ (home s 3 5).sect ≠ [.i, .i, .i, .i] ∧ homeTakes 3 w s ∧ (home s 3 5).dir = none
    ∧ (∀ i ∈ sectorsTouched w.data, coversSector w.data i = false → (home s 3 5).sector i ≠ .i)
    ∧ homeTakes 3 w o ∧ lineIdle 3 5 o ∧ (home o 3 5).owner = some w.agent := by decide +kernel

theorem witness_AgentsAnswerSnoops :
    (takeMsg .snpInv 3 5 2 (netState .snpInv)).isSome = true ∧ hostHolds (netState .snpInv) 2 5 = false
    ∧ copyOf (netState .snpInv) 2 5 = some { st := .m, data := [(0, 7)], seg := 3 }
    ∧ (takeMsg .snpFwd 3 5 2 (netState .snpFwd)).isSome = true ∧ (takeMsg .snpMkf 3 5 2 (netState .snpMkf)).isSome = true
    ∧ (takeFirst (fun m : FMsg => decide (m.kind = .snpInvHome) && m.seg == 3 && m.agent == 2) (netState .snpInvHome).felt.net).isSome = true
    ∧ inHost (0x2000000000 * 1024) = true ∧ (home (segOn 3) 3 0x2000000000).trans = none
    ∧ (home (segOn 3) 3 0x2000000000).dir = none ∧ (home (segOn 3) 3 0x2000000000).sect = [.i, .i, .i, .i]
    ∧ (home (setHome 3 0x2000000000 { trans := some { req := freq 8, phase := .memory } } (segOn 3)) 3 0x2000000000).trans
        = some { req := freq 8, phase := .memory } := by decide

theorem witness_HomesTakeTheAnswers :
    (∀ k ∈ [FMsgKind.ack, .ackClean, .ackFwd, .miss, .wbData, .done], (takeMsg k 3 5 2 (netState k)).isSome = true
      ∧ ∀ x ∈ takeMsg k 3 5 2 (netState k), x.1.agen = expectGen x.2 3 2 ∧ (segSt x.2 3).resetting = false ∧ x.1.poison = []
        ∧ (home x.2 3 5).trans = some { req := freq 2, phase := .snoop, waiting := [2], fetch := [1] })
    ∧ (∀ ph ∈ [TPhase.forward, .done, .memory], ∀ x ∈ takeMsg .miss 3 5 2 (setHome 3 5 { trans := some { req := freq 2, phase := ph, fetch := [1] } } (netState .miss)),
        (home x.2 3 5).trans = some { req := freq 2, phase := ph, fetch := [1] })
    ∧ (freq 2).agent = 2 ∧ (takeMsg .memData 3 5 0 (memDataState)).isSome = true
    ∧ (∀ x ∈ takeMsg .memData 3 5 0 memDataState, (home x.2 3 5).trans = some { req := freq 2, phase := .memory, fetch := [1] }
        ∧ (∀ i ∈ [1], i ∈ x.1.sectors) ∧ x.1.poison = [])
    ∧ ∀ x ∈ takeMsg .ack 3 5 2 (setSegSt 3 { agen := [(2, 1)] } (netState .ack)), x.1.agen ≠ expectGen x.2 3 2 := by decide +kernel

theorem witness_RequestersTakeTheirAnswers :
    (∀ k ∈ [FMsgKind.nack, .go, .abort, .fill, .fwdData, .atomData], (takeMsgS k 3 5 2 0 (netState k)).isSome = true
      ∧ (netState k).recov.running = false ∧ copyOf (netState k) 2 5 = some { st := .m, data := [(0, 7)], seg := 3 }
      ∧ findPend 3 5 2 0 (netState k) = some { req := freq 2, seg := 3, line := 5, nacked := true })
    ∧ (decide (8 ≤ (freq 2).nacks) && starveOut (netState .nack) 3 2) = false := by decide

theorem witness_HomesAndAgentsEvict :
    (home (setHome 3 5 { sect := [.d, .c, .i, .i] } State.reset) 3 5).sect ≠ [.i, .i, .i, .i]
    ∧ (home (setHome 3 5 { sect := [.d, .c, .i, .i] } State.reset) 3 5).sectorsIn .d ++ (home (setHome 3 5 { sect := [.d, .c, .i, .i] } State.reset) 3 5).sectorsIn .p ≠ []
    ∧ (home (setHome 3 5 { sect := [.d, .c, .i, .i] } State.reset) 3 5).trans = none
    ∧ (home (setHome 3 5 { dir := some { mode := .owned, ptrs := [some 2, none, none] } } State.reset) 3 5).dir = some { mode := .owned, ptrs := [some 2, none, none] }
    ∧ (home (setHome 3 5 { dir := some {} } State.reset) 3 5).dir = some {}
    ∧ copyOf (setCopy 2 5 { st := .f } State.reset) 2 5 = some { st := .f } ∧ hostHolds (setCopy 2 5 { st := .f } State.reset) 2 5 = false
    ∧ copyOf (setCopy 9 5 { st := .e } State.reset) 9 5 = some { st := .e } ∧ hostHolds (setCopy 9 5 { st := .e } State.reset) 9 5 = false
    ∧ copyOf (setCopy 9 5 { st := .m } State.reset) 9 5 = some { st := .m }
    ∧ (home (setHome 3 5 { rsvd := some 4, starve := [6] } State.reset) 3 5).rsvd = some 4 := by decide

theorem witness_DeadAgentsAreReclaimed : State.reset.felt.dead.contains 3 = false
    ∧ (segSt (setSegSt 3 { reclaim := [2] } State.reset) 3).reclaim.contains 2 = true
    ∧ ({ (State.reset) with felt := { dead := [2] } } : State).felt.dead.contains 2 = true
    ∧ (∀ g < 96, (segSt ({ (State.reset) with felt := { dead := [2] } } : State) g).reclaim.contains 2 = false)
    ∧ (segSt State.reset 3).resetting = false ∧ (segSt (setSegSt 3 { resetting := true } State.reset) 3).resetting = true := by decide +kernel

theorem witness_SegmentsMigrateAndRedivide :
    let s := setUnit (pageOf 0 32 0) { state := .spare } (setUnit (pSegment 0 3) { state := .active } State.reset)
    logicalSeg s 0 3 = some 3 ∧ (unitSt s (pSegment 0 3)).state = .active ∧ (unitSt s (pageOf 0 32 0)).state = .spare ∧ wearFull s = false
    ∧ logicalSeg (setSegSt 3 { migTo := some 12 } State.reset) 0 3 = some 3 ∧ (segSt (setSegSt 3 { migTo := some 12 } State.reset) 3).migTo = some 12
    ∧ fld 0x28 3 0 ≤ 8 ∧ fld 0x28 6 4 ≤ 4 ∧ 8 < fld 9 3 0 ∧ bitOf (rd (wr (pSegment 0 3) 0x104 0x84 State.reset) (pSegment 0 3) 0x104) 7 = true
    ∧ logicalSeg (wr (pSegment 0 3) 0x104 0x84 State.reset) 0 3 = some 3
    ∧ bufferedUnits (wr (pSegment 0 3) 0x104 0x84 State.reset) 3 ≤ fld (rd (wr (pSegment 0 3) 0x104 0x84 State.reset) (pSegment 0 3) 0x100) 6 4 * 2048 := by decide +kernel

theorem witness_MemoryControllersReadAndWriteSectors :
    (takeMsg .memRd 3 5 0 (send { kind := .memRd, seg := 3, line := 5, sectors := [0] } State.reset)).isSome = true
    ∧ backed (send { kind := .memRd, seg := 3, line := 5, sectors := [0] } State.reset) (5 * 1024) = true
    ∧ (takeFirst (fun m : FMsg => decide (m.kind = .memWr) && m.seg == 3 && m.line == 5)
        (send { kind := .memWr, seg := 3, line := 5, sectors := [0], data := [(1, 7), (2, 8)] } State.reset).felt.net).isSome = true
    ∧ (takeMsg .memRd 3 0x10000000 0 (send { kind := .memRd, seg := 3, line := 0x10000000 } State.reset)).isSome = true
    ∧ backed State.reset (0x10000000 * 1024) = false ∧ inTier (0x10000000 * 1024) = false
    ∧ (takeFirst (fun m : FMsg => decide (m.kind = .memWr) && m.seg == 3 && m.line == 0x10000000)
        (send { kind := .memWr, seg := 3, line := 0x10000000 } State.reset).felt.net).isSome = true := by decide

theorem witness_MemoryTiersAreWatchedAndScrubbed : (memCtl State.reset 2).level ≤ 3
    ∧ (memCtl (setMemCtl 2 { leaveSince := [some 0, some 0, some 0], level := 1 } { (State.reset) with now := 1000000 }) 2).leaveSince = [some 0, some 0, some 0]
    ∧ 0 + 1000000 ≤ ({ (State.reset) with now := 1000000 } : State).now ∧ State.reset.inHold = false
    ∧ bitOf (rd (wr (pSdramc 2) 0x120 0x100 State.reset) (pSdramc 2) 0x120) 8 = true
    ∧ (memCtl (setMemCtl 2 { trained := [true, true] } State.reset) 2).trained.getD 1 false = true
    ∧ (memCtl (setMemCtl 2 { trained := [true, true] } State.reset) 2).selfRefresh = false
    ∧ (memCtl (setMemCtl 2 { present := [true, true] } State.reset) 2).present.getD 1 false = true := by decide

theorem witness_MemoryRepairs : (memCtl State.reset 2).repair = none ∧ State.reset.inHold = false ∧ wearFull State.reset = false
    ∧ rowsUsedOf (memCtl State.reset 2) 63 31 < 160 ∧ (memCtl State.reset 2).bankUsed.contains 63 = false
    ∧ 160 ≤ rowsUsedOf (memCtl (setMemCtl 2 { rowsUsed := [(63 * 32 + 31, 160)] } State.reset) 2) 63 31
    ∧ (memCtl (setMemCtl 2 { repair := some { channel := 3, bank := 4, row := 0, isBank := true } } State.reset) 2).repair
        = some { channel := 3, bank := 4, row := 0, isBank := true }
    ∧ (memCtl (setMemCtl 2 { present := [true, true] } State.reset) 2).present.getD 1 false = true := by decide

theorem witness_AccessCountersEvaluateRegions : State.reset.inHold = false
    ∧ bitOf (rd (wr (acPage 2) 0x100 1 State.reset) (acPage 2) 0x100) 0 = true ∧ bitOf (rd State.reset (acPage 2) 0x100) 0 = false
    ∧ notifyUsed State.reset 2 = 0 ∧ notifyUsed (wr (acPage 2) 0x11C 5 State.reset) 2 ≠ 0
    ∧ (evalRegion (acThresholds State.reset 2 0).1 (acThresholds State.reset 2 0).2.1 (acThresholds State.reset 2 0).2.2 { flag := 2 }).flag
        = ({ flag := 2 } : Region).flag
    ∧ bitOf (BitVec.ofNat 32 (1 : DWord).toNat) 0 = true := by decide

theorem witness_UnitsFinishAndFault :
    let p := pSdramc 2
    let s := setUnit p { state := .draining } State.reset
    let q := pPort 7
    let w := setUnit q { state := .draining } State.reset
    s.inHold = false ∧ isLeaf p = true ∧ (unitSt s p).state = .draining ∧ (unitSt s p).enable = false ∧ leafBusy s p = false
    ∧ pageKind p ≠ some .port ∧ s.prot.phase ≠ .committing ∧ pageKind p = some .sdramc ∧ PageKind.sdramc.honoursCtrl = true
    ∧ counted s p = true ∧ (unitSt s p).state ≠ .faulted ∧ bitOf (rd s p 0x20) 31 = false ∧ ({ s with inHold := true } : State).inHold = true
    ∧ isLeaf q = true ∧ (unitSt w q).state = .draining ∧ (unitSt w q).enable = false ∧ leafBusy w q = false ∧ pageKind q = some .port
    ∧ leafBusy (setMemCtl 2 { repair := some { channel := 3, bank := 4, row := 0, isBank := true } } State.reset) p = true
    ∧ takeFirst (fun r : Replay => r.overlap.isNone) (replaysOf (tileSt (replayState { slot := 0 }) 0 0) 0) = some ({ slot := 0 }, [])
    ∧ (∀ gr ∈ groupOf (tileSt (addProg (pVC 0 0 0) 4 1 (setReplays 0 0 0 [] (replayState { slot := 0 }))) 0 0) 0, gr.load.isSome = true)
    ∧ (groupOf (tileSt (addProg (pVC 0 0 0) 4 1 (setReplays 0 0 0 [] (replayState { slot := 0 }))) 0 0) 0).isSome = true
    ∧ takeFirst (fun r : Replay => r.slot == 0 && r.overlap.isSome) (replaysOf (tileSt (replayState { slot := 0, overlap := some replayIns }) 0 0) 0)
        = some ({ slot := 0, overlap := some replayIns }, [])
    ∧ (∀ gr ∈ groupOf (tileSt (replayState { slot := 0, overlap := some replayIns }) 0 0) 0,
        ∀ ks ∈ allKeys 4 (accesses (replayState { slot := 0, overlap := some replayIns }) ⟨0, 0, 0⟩ task0 gr .scratch replayIns.addr .read 4),
          sbCheck (sbOf (tileSt (replayState { slot := 0, overlap := some replayIns }) 0 0) 0) ks = .none) := by decide +kernel

theorem witness_WalksAndInvalidations :
    let s := walkState false
    let v : Inval := { tag := 1, pasid := some 5, va := 0x10000, len := 1, sizes := 7, fn := 0, waiting := [pTlb 0 0] }
    let i := setInvals 2 [v] tileState
    let b : State := { (State.reset) with prot := { pbt := [{ slice := 1, pasid := 0, root := none }] }, committed := [(regKey 0 (sliceReg 1 0).1 (sliceReg 1 0).2, 1)] }
    (findWalk s (pTlb 0 0) 3).isSome = true ∧ s.inHold = false ∧ (∀ w ∈ findWalk s (pTlb 0 0) 3, w.stale = false ∧ (unitSt s (pWalkers w.die)).state = .active
      ∧ walkEntry s w.pasid w.va w.level w.table false = .next 0x50000
      ∧ walkEntry s w.pasid 0x40000000 1 0x50000 false = .migrating
      ∧ walkEntry s w.pasid 0x80000000 1 0x50000 false = .leaf 4 0x80000000 0xF
      ∧ walkEntry s w.pasid w.va w.level w.table true = .fault (xfault 8 w.level).1 (xfault 8 w.level).2)
    ∧ (∀ w ∈ findWalk (walkState true) (pTlb 0 0) 3, w.stale = true) ∧ (findWalk (walkState true) (pTlb 0 0) 3).isSome = true
    ∧ bitOf (rdB b 0 (pWalkers 2) 0x110) 20 = false ∧ pasidOfFn b (pWalkers 2) 0 (fld (rdB b 0 (pWalkers 2) 0x110) 19 0) = true
    ∧ (invalsOf b 2).length < 16 ∧ 16 ≤ (invalsOf (setInvals 2 (List.replicate 16 v) b) 2).length
    ∧ pasidOfFn (setInvals 2 (List.replicate 16 v) b) (pWalkers 2) 0 (fld (rdB b 0 (pWalkers 2) 0x110) 19 0) = true
    ∧ invalsOf i 2 = [v] ∧ v.waiting.contains (pTlb 0 0) = true ∧ holderBusy i (pTlb 0 0) v = false
    ∧ invalsOf (setInvals 2 [{ v with waiting := [] }] tileState) 2 = [{ v with waiting := [] }] := by decide +kernel

theorem witness_DoorbellsMoveRingIndices :
    let s := ringState {} []
    fnOwnsRing s 0 2 = true ∧ idxDiff (5 % 0x20000) (ringSt s 2).head ≤ ringCapacity (ringSt s 2)
    ∧ ringCapacity (ringSt s 2) < idxDiff (0x10001 % 0x20000) (ringSt s 2).head ∧ fnOwnsRing s 3 2 = false
    ∧ idxDiff (0 % 0x20000) (ringSt s 2).cqHead ≤ idxDiff (ringSt s 2).cqTail (ringSt s 2).cqHead
    ∧ idxDiff (ringSt s 2).cqTail (ringSt s 2).cqHead < idxDiff (1 % 0x20000) (ringSt s 2).cqHead := by decide +kernel

theorem witness_RingControlFollowsItsCommands :
    let s := ringState {} []
    let a := ringState { state := .active, ent := { sqVa := 0x20000, cqVa := 0x21000, pasid := 5 } } []
    ringSel s 0 = 2 ∧ fnMayRing s 0 2 = true ∧ sliceOfRing s 2 = some 1 ∧ (sliceSt s 1).contained = false ∧ quiescing s 1 = false
    ∧ (ringSt s 2).state = .off ∧ cohPoisonN s true (rtBase s + 64 * 2) 64 = false ∧ ringEntryOk s 1 (ringTableBytes s 2) = true
    ∧ idxDiff (ringSt s 2).tail (ringSt s 2).head ≤ 2 ^ (ringEntryOf (ringTableBytes s 2)).sqLog2
    ∧ (ringSt (ringState { state := .draining } []) 2).state = .draining ∧ sliceOfRing (ringState { state := .draining } []) 2 = some 1
    ∧ (ringSt a 2).state = .active ∧ ringSel a 0 = 2 ∧ fnMayRing s 3 (ringSel s 3) = false
    ∧ (∀ e ∈ s.disp.rings, e.2.state = .off) ∧ (∃ e ∈ a.disp.rings, e.2.state ≠ .off) := by decide +kernel

theorem witness_CommandsAreReadCheckedAndStarted :
    let r : Ring := { state := .active, ent := { sqVa := 0x20000, cqVa := 0x21000, pasid := 5 }, tail := 1 }
    let s := ringState r []
    let f := ringState { r with ent := { sqVa := 0x90000, cqVa := 0x21000, pasid := 7 } } []
    let m : State := { ringState { r with ent := { sqVa := 0x30000, cqVa := 0x21000, pasid := 5 } } [] with prot := { pbt := [{ slice := 1, pasid := 5, root := some 0x40000 }] }, mem := [(0x40000, 0x01), (0x40002, 0x05), (0x50000, 0x8F), (0x50003, 0x40)] }
    let rd (s : State) (n : Nat) := readSlots (ringCtx (ringSt s 2) 2 1) (ringSt s 2).ent.pasid (cmdParts (ringSt s 2).ent (ringSt s 2).head n) s
    sliceOfRing s 2 = some 1 ∧ dispStarts s = true ∧ (ringSt s 2).state = .active ∧ (ringSt s 2).tail ≠ (ringSt s 2).head
    ∧ (sliceSt s 1).contained = false ∧ ringMayStart s 2 = true
    ∧ (match rd s 16 with
       | .ok x s1 => !x.2 && decide (hdrSlots x.1 ≤ 1) && !nbit (bytesAt x.1 0 4) 15 && decide (hdrOpc x.1 = 0x0B)
           && (match readSlots (ringCtx (ringSt s 2) 2 1) 5 (cmdParts (ringSt s 2).ent 0 20) s1 with | .ok y _ => !y.2 | _ => false)
       | _ => false) = true
    ∧ startBad s r (cmdOf s 2 1 (phaseBody)) = none ∧ (cmdOf s 2 1 phaseBody).opc = 0x0B
    ∧ (match rd f 16 with | .fault _ _ _ _ => true | _ => false) = true ∧ sliceOfRing f 2 = some 1 ∧ ringMayStart f 2 = true
    ∧ (match rd m 16 with | .migrating _ _ => true | _ => false) = true := by decide +kernel

theorem witness_DispatcherCommandsRun :
    (∀ k ∈ [1, 7, 9, 0x0A, 0x0B, 0x0D], (waitingCmd (cmdState k []) 2 3 k).isSome = true ∧ dispRuns (cmdState k []) = true
      ∧ findCmd (cmdState k []) 2 0 = waitingCmd (cmdState k []) 2 3 k)
    ∧ (openWait (openWaitState 0) 2).isSome = true ∧ dispRuns (openWaitState 0) = true
    ∧ (∀ c ∈ openWait (openWaitState 4) 2, c.fld 40 2 0 = 4 ∧ waitCmdHolds (addProg (pDsp (openWaitState 4)) 7 1 (openWaitState 4)) c = false)
    ∧ (∀ c ∈ openWait (openWaitState 4) 2, waitCmdHolds (addProg (pDsp (setRing 0 { wrote := true } (openWaitState 4))) 7 1 (setRing 0 { wrote := true } (openWaitState 4))) c = true)
    ∧ (∀ c ∈ openWait (openWaitState 0) 2, c.fld 40 2 0 ≠ 4 ∧ (match xlateRange c.ctx pDispatch c.pasid (bytesAt c.raw 16 8) 8 .read (addProg (pDsp (openWaitState 0)) 7 1 (openWaitState 0)) with
        | .ok ps s1 => !piecesPoison (dropHeld pDispatch c.ring s1) ps | _ => false) = true)
    ∧ (barrierReady (updCmd 2 0 (fun x => { x with launched := true }) (cmdState 0x0A [])) 2).isSome = true
    ∧ (barrierStatus (ringSt (cmdState 0x0A []) 2) 0).1 = 0
    ∧ (∀ c ∈ waitingCmd (cmdState 0x0D snapBody) 2 3 0x0D, bytesAt c.raw 16 8 ≠ 0 ∧ nbit (bytesAt c.raw 24 2) 3 = true ∧ nbit (bytesAt c.raw 24 4) 16 = false
        ∧ (match xlateRange c.ctx pDispatch c.pasid (bytesAt c.raw 16 8) 131072 .write (bigPage (cmdState 0x0D snapBody)) with | .ok _ _ => true | _ => false) = true) := by decide +kernel

theorem witness_EnginesTakeTheirCommands :
    (∀ m ∈ [0, 1, 2], (waitingCmd (engState3 3 (copyBody m)) 2 3 3).isSome = true ∧ dispRuns (engState3 3 (copyBody m)) = true ∧
      ∀ c ∈ waitingCmd (engState3 3 (copyBody m)) 2 3 3, c.fld 40 1 0 = m ∧ (match copyDie c (engState3 3 (copyBody m)) with
        | .ok d s1 => decide (dieAvail s1 d = .go) | _ => false) = true)
    ∧ (∀ k ∈ [4, 5, 6], (waitingCmd (engState3 k putBody) 2 3 k).isSome = true ∧ ∀ c ∈ waitingCmd (engState3 k putBody) 2 3 k,
        c.fld 40 17 12 = 0 ∧ queueAvail (engState3 k putBody) 0 = .go ∧ fabEn (engState3 k putBody) (pCopyEngine 0 0) c.slice = true
        ∧ fabEn { engState3 k putBody with committed := [] } (pCopyEngine 0 0) c.slice = false)
    ∧ (∀ c ∈ waitingCmd (engState3 0x0E dirtyBody) 2 3 0x0E, dirtyBad (engState3 0x0E dirtyBody) c = none ∧ nbit (bytesAt c.raw 24 4) 8 = true)
    ∧ (waitingCmd (engState3 0x0E dirtyBody) 2 3 0x0E).isSome = true ∧ dieAvail (engState3 0x0E dirtyBody) 0 = .go
    ∧ (waitingCmd planState 2 3 8).isSome = true ∧ (∀ c ∈ waitingCmd planState 2 3 8, (match readRange c pDispatch (bytesAt c.raw 16 8) 64 planState with
        | .ok hd s1 => !hd.2 && decide (nfld (bytesAt hd.1 0 4) 10 7 = 0) && decide (nfld (bytesAt hd.1 8 4) 15 0 = 0) && decide (96 ≤ bytesAt c.raw 24 4)
            && decide (availOf (pageState s1 (pCollective 0)) = .go) && (slook s1.xfer.plans 0).isNone
            && (match readRange c (pCollective 0) (bytesAt c.raw 16 8 + 64) 32 s1 with
                | .ok x s2 => !x.2 && (match readRange c (pCollective 0) (bytesAt hd.1 16 8) 2 s2 with
                    | .ok y s3 => !y.2 && (planBad s3 c hd.1 [stepOf x.1] y.1 (pCollective 0)).isNone | _ => false)
                | _ => false)
        | _ => false) = true) := by decide +kernel

theorem witness_TasksAreIssuedClaimedAndSpilled :
    dispRuns issueState = true ∧ (issuable issueState).length = 1
    ∧ (∀ c ∈ issuable issueState, (placeTiles (affinity issueState c 0).2.2 c (affinity issueState c 0).1).isSome = true)
    ∧ (claimState.disp.cmds.find? (fun c => c.ring == 2 && c.seq == 3 && c.unissued)).isSome = true ∧ dispRuns claimState = true
    ∧ (∀ k ∈ claimState.disp.cmds.find? (fun c => c.ring == 2 && c.seq == 3 && c.unissued),
        slicePlays claimState pDispatch k.slice = true ∧ placeTiles claimState k none = none ∧ claimSet claimState k ≠ [])
    ∧ (∀ c ∈ issueState.disp.cmds.find? (fun c => c.ring == 2 && c.seq == 3 && c.unissued), c.promo < min 4 (max c.promo ({ c with age := 50000000 }.ageNow 0 / (ageMs issueState * 1000000))))
    ∧ slook spillState.disp.resid 0 = some { pasid := 5, slice := 1, pin := 1 } ∧ spillState.inHold = false
    ∧ spillDue spillState 0 { pasid := 5, slice := 1, pin := 1 } = true ∧ saveVa spillState 5 0 = some (0x100000, 1)
    ∧ (tileSt restoreState 0 0).issued = some { task0 with restore := true } ∧ (tileSt restoreState 0 0).task = none
    ∧ restoreState.disp.saved.find? (fun e => e.1 == 5 && e.2.1 == 12 * 0 + logicalTile restoreState 0 0) = some (5, 0, 1)
    ∧ saveVa restoreState 5 (12 * 0 + logicalTile restoreState 0 0) = some (0x100000, 1) := by decide +kernel

theorem witness_CompletionRecordsAreWritten :
    (∀ va ∈ [0x20000, 0x21000], (ringCmds (recordState va) 2).length = 1 ∧ dispRuns (recordState va) = true ∧ (∀ c ∈ ringCmds (recordState va) 2, c.status.isSome = true)
      ∧ (ringSt (recordState va) 2).stuck = false
      ∧ (∀ c ∈ ringCmds (recordState va) 2, (match xlateRange c.ctx pDispatch 5 ((ringSt (recordState va) 2).ent.cqVa + 0) 32 .write (recordState va) with
          | .ok _ _ => true | _ => false) = true))
    ∧ (∀ c ∈ ringCmds (movedRecord) 2, c.status.isSome = true ∧ (match xlateRange c.ctx pDispatch 5 (0x30000 + 0) 32 .write movedRecord with
          | .migrating _ _ => true | _ => false) = true)
    ∧ (ringCmds movedRecord 2).length = 1 ∧ dispRuns movedRecord = true ∧ ringCmds State.reset 2 = [] := by decide +kernel

theorem witness_FlitsAndHoldOnALink :
    portUp (linkState 6 {}) 7 = true ∧ (linkState 6 {}).inHold = false ∧ ({ dst := 0, src := 0, vc := 2 } : Flit).fseq = (portSt (linkState 6 {}) 7).rxNext
    ∧ ({ dst := 0, src := 0, vc := 2, fseq := 3 } : Flit).fseq ≠ (portSt (linkState 6 {}) 7).rxNext ∧ portLState (linkState 6 {}) 7 = 6
    ∧ bitOf (rd (linkState 6 {}) (pPort 7) 0x114) 18 = false
    ∧ (portSt (linkState 6 { sent := [{ dst := 0, src := 0, vc := 0, fseq := 4 }, { dst := 0, src := 0, vc := 0, fseq := 5 }] }) 7).sent.findIdx? (fun f => f.fseq == 5) = some 1
    ∧ (portSt (linkState 6 { sent := [{ dst := 0, src := 0, vc := 0 }] }) 7).sent ≠ []
    ∧ (portSt (linkState 6 { sent := [{ dst := 0, src := 0, vc := 0 }] }) 7).ackAt + 2 * fld (rd (linkState 6 { sent := [{ dst := 0, src := 0, vc := 0 }] }) (pPort 7) 0x118) 15 0 + 1000 ≤ (linkState 6 { sent := [{ dst := 0, src := 0, vc := 0 }] }).now
    ∧ portPeerHold (linkState 6 {}) 7 = false ∧ portPeerHold (linkState 0x206 {}) 7 = true ∧ portLState (linkState 0x206 {}) 7 = 6 := by decide

theorem witness_LinksTrainAndGoDown :
    (∀ l ∈ [1, 2, 3, 4, 5, 6, 7, 8, 9], portLState (linkState l {}) 7 = l ∧ (linkState l {}).inHold = false)
    ∧ nbit (portSt (linkState 1 { cfg := 2 }) 7).cfg 1 = true ∧ (portSt (linkState 1 { cfg := 2 }) 7).number < 1
    ∧ paramRefused (wr (pPort 0) 0x100 0x1003 (linkState 4 { agreedWidth := 8 })) 7 5 true 3 false = none ∧ portLState (wr (pPort 0) 0x100 0x1003 (linkState 4 { agreedWidth := 8 })) 7 = 4
    ∧ paramRefused (linkState 4 {}) 7 5 false 3 false = some 2 ∧ nbit (portSt (linkState 4 {}) 7).cfg 2 = false
    ∧ (portSt (linkState 5 {}) 7).agreedWidth < 16 ∧ (portSt (linkState 7 {}) 7).retraining = false ∧ (portSt (linkState 7 { retraining := true }) 7).retraining = true
    ∧ portLState (linkState 7 { retraining := true }) 7 = 7 ∧ (portSt (linkState 7 { retraining := true }) 7).fails < 2 ∧ 2 ≤ (portSt (linkState 7 { retraining := true, fails := 2 }) 7).fails
    ∧ portPeerHold (linkState 0x206 {}) 7 = true ∧ portLState (linkState 0x206 {}) 7 ≠ 9 ∧ portPeerHold (linkState 6 {}) 7 = false
    ∧ (portSt (linkState 4 { retraining := true, agreedWidth := 8 }) 7).agreedWidth = 8 ∧ allowedWidth (linkState 4 { retraining := true, agreedWidth := 8 }) 7 = 8
    ∧ allowedWidth (linkState 7 { retraining := true }) 7 = 8 ∧ allowedWidth (wr (pOptics 7) 0x108 0x3F (linkState 7 { retraining := true })) 7 = 0
    ∧ (portSt (wr (pOptics 7) 0x108 0x3F (linkState 7 { retraining := true })) 7).retraining = true
    ∧ (portSt (linkState 8 { cfg := 8 }) 7).heldDown = false ∧ nbit (portSt (linkState 8 { cfg := 8 }) 7).cfg 3 = true
    ∧ (portSt (linkState 8 { cfg := 8 }) 7).downAt + (if (portSt (linkState 8 { cfg := 8 }) 7).cfg / 16 % 4096 = 0 then 10 else (portSt (linkState 8 { cfg := 8 }) 7).cfg / 16 % 4096) * 1000000
        ≤ (linkState 8 { cfg := 8 }).now := by decide

theorem witness_WavelengthsPathsAndRoutes :
    (linkState 6 {}).inHold = false ∧ portLState (linkState 6 {}) 7 = 6 ∧ wearFull (linkState 6 {}) = false
    ∧ (portSt (linkState 6 { subst := some { lane := 2, wl := 8, atFseq := 64, tx := true, agreed := true } }) 7).subst
        = some { lane := 2, wl := 8, atFseq := 64, tx := true, agreed := true }
    ∧ fld (rd (linkState 6 {}) (pOptics 7) 0x10C) 15 8 ≤ 255 ∧ 0 < fld (rd (wr (pOptics 7) 0x10C 0x100 (linkState 6 {})) (pOptics 7) 0x10C) 15 8
    ∧ portLState (wr (pOptics 7) 0x10C 0x100 (linkState 6 {})) 7 = 6
    ∧ (pathSt State.reset 1 2).failed.contains 17 = false ∧ (pathSt State.reset 1 2).failed.length < 2 ∧ wearFull State.reset = false
    ∧ (pathSt (setPath 1 2 { failed := List.range 18 } State.reset) 1 2).down = false ∧ 18 ≤ (pathSt (setPath 1 2 { failed := List.range 18 } State.reset) 1 2).failed.length
    ∧ State.reset.org.lasersFailed.contains (8 * 32 + 9 + 3) = false ∧ bitOf (rd State.reset (pRoute 7) 0x104) 0 = false
    ∧ (∀ q < 48, portLState State.reset q = 0) ∧ (∃ q < 48, portLState (linkState 6 {}) q ≠ 0) ∧ portLState State.reset 7 = 0
    ∧ portLState (linkState 6 {}) 7 ≠ 8 := by decide +kernel

theorem witness_PacketsReachTheirHandlers :
    (∀ k ∈ [0x01, 0x02, 0x03, 0x04, 0x10, 0x11, 0x12, 0x13, 0x14, 0x15, 0x16, 0x17], (takePkt 2 k (inboxState k)).isSome = true ∧ (inboxState k).inHold = false)
    ∧ engState sendState 0 0 = .active ∧ (engineNext sendState 0 0).isSome = true ∧ (txFlow sendState 0 3).cancelled = []
    ∧ (∀ m ∈ engineNext sendState 0 0, m.kind = .signal)
    ∧ (∀ c ∈ findChunk (chunkState {}) 0 3 9, c.isGet = false ∧ c.msg = none) ∧ (findChunk (chunkState {}) 0 3 9).isSome = true
    ∧ (∀ c ∈ findChunk (chunkState { busyAt := some 0 }) 0 3 9, c.busyAt = some 0) ∧ engState (chunkState { busyAt := some 0 }) 0 0 = .active
    ∧ (findChunk (chunkState { busyAt := some 0 }) 0 3 9).isSome = true
    ∧ rxFlow State.reset (rxKey 3 0) = {} ∧ endpointSlice State.reset (pCopyGrp 0) 0 = none
    ∧ endpointSlice fabState (pCopyGrp 0) 0 = some 1 ∧ fabJob fabState (pCopyGrp 0) 1 = 0 ∧ rxFlow fabState (rxKey 3 0) = {}
    ∧ (match xlateRange { ctxValid := true, pasid := fabPasid fabState (pCopyGrp 0) 1, slice := 1 } (rxPage 0 (rxKey 3 0)) (fabPasid fabState (pCopyGrp 0) 1) 0x30000 8 .write
        (setRxFlow (rxKey 3 0) {} fabState) with | .migrating _ _ => true | _ => false) = true := by decide +kernel

theorem witness_TransfersFailAndAreHeld :
    (∀ c ∈ findChunk (chunkState { msg := some 4, isGet := true }) 0 3 9, (chunkMsg (chunkState { msg := some 4, isGet := true }) c).isSome = true ∧ c.isCancel = none
      ∧ ofSending c.pseq 0 = true ∧ c.isGet = true ∧ c.resend < 3 ∧ ∀ m ∈ chunkMsg (chunkState { msg := some 4, isGet := true }) c, m.fail = none)
    ∧ (findChunk (chunkState { msg := some 4, isGet := true }) 0 3 9).isSome = true
    ∧ (findChunk (chunkState { msg := some 4, resend := 3 }) 0 3 9).isSome = true ∧ (∀ c ∈ findChunk (chunkState { msg := some 4, resend := 3 }) 0 3 9, 3 ≤ c.resend)
    ∧ (∀ m ∈ findMsg (chunkState { msg := some 4 }) 4, m.heldAt = none) ∧ (findMsg (chunkState { msg := some 4 }) 4).isSome = true
    ∧ inQueue heldState 30 = [{ dst := 5, src := 6, vc := 0, first := true, last := true, typ := 1 }] ∧ routeAt heldState 30 = some (.out 7 0 1)
    ∧ portPeerHold heldState 7 = true ∧ heldState.inHold = false ∧ heldState.xfer.heldNotes.contains (6 * 4096 + 5, 0, 0) = false
    ∧ (∀ m ∈ findMsg boundState 4, m.heldAt = some 0 ∧ m.holdMs ≠ 0 ∧ 0 + m.holdMs * 1000000 ≤ boundState.now) ∧ (findMsg boundState 4).isSome = true
    ∧ matchActive (wr pPace 0x108 0x200 State.reset) = true := by decide +kernel

theorem witness_PlansStepAndPeersLag :
    (∀ op ∈ [0, 1, 2, 3, 4], (nextStep (stepState op) 0 op).isSome = true ∧ planRuns (stepState op) 0 = true ∧ (∀ p ∈ slook (stepState op).xfer.plans 0, p.pend = [])
      ∧ (slook (stepState op).xfer.plans 0).isSome = true ∧ nextStep State.reset 0 op = none)
    ∧ (∀ p ∈ slook (stepState 1).xfer.plans 0, p.waitFrom = none ∧ (match xlateRange (planCtx (stepState 1) p) (pCollective 0) (fabPasid (stepState 1) (pCollective 0) 1)
        (fabCtrVa (stepState 1) (pCollective 0) 1 + 0) 8 .read (stepState 1) with | .ok ps s1 => !piecesPoison s1 ps | _ => false) = true)
    ∧ (∀ p ∈ slook (stepState 3).xfer.plans 0, (match xlateRange (planCtx (stepState 3) p) (pCollective 0) 5 0x20000 256 .read (stepState 3) with
        | .ok a s1 => (match xlateRange (planCtx (stepState 3) p) (pCollective 0) 5 0x20100 256 .write s1 with | .ok _ s2 => !piecesPoison s2 a | _ => false) | _ => false) = true)
    ∧ (∀ e ∈ State.reset.xfer.plans, e.1 / 16 = 2 → e.2.waitFrom = none) ∧ ({ node := 3, win := 511 } : LagEntry).win < 1024
    ∧ ({ (State.reset) with power := { up := true } } : State).power.up = true
    ∧ (phase matchState = 5 ∧ matchActive matchState = true ∧ bitOf (rd matchState pPace 0x104) 18 = false ∧ matchState.inHold = false)
    ∧ (phase lagState = 5 ∧ bitOf (rd lagState pPace 0x104) 18 = true ∧ (paceCauses lagState).length = 1 ∧ lagState.inHold = false) := by decide +kernel

theorem witness_CommitsAndSliceDomains :
    (commitState [pDispatch]).prot.phase ≠ .idle ∧ State.reset.prot.phase = .idle
    ∧ commitCheck (wr pProt 0x110 1 State.reset) (stagedNow (wr pProt 0x110 1 State.reset)) = (some 1, []) ∧ (wr pProt 0x110 1 State.reset).prot.phase = .idle
    ∧ (∀ p ∈ (commitState [pDispatch]).prot.waiting, acksAtOnce (commitState [pDispatch]) p = false) ∧ (commitState [pDispatch]).prot.waiting ≠ []
    ∧ (commitState []).prot.phase = .committing ∧ (commitState []).prot.waiting = []
    ∧ (∀ p ∈ [pTile 0 0, pCopyEngine 0 0, pCollective 1], (commitState [p]).prot.waiting.contains p = true ∧ ackState (commitState [p]) p ≠ .hold ∧ mayAck (commitState [p]) p = true)
    ∧ pageKind (pCopyEngine 0 0) = some .copyEngine ∧ pageKind (pCollective 1) = some .collective
    ∧ (commitState []).prot.waiting.contains 7 = false ∧ ackState (setUnit (pCopyEngine 0 0) { state := .hold } State.reset) (pCopyEngine 0 0) = .hold
    ∧ (∀ e ∈ (ringState {} []).committed, isStg e.1 = true) ∧ (ringState {} []).committed ≠ []
    ∧ sliceOfRing (ringState { state := .active } []) 2 = some 1
    ∧ (sliceSt containState 1).contained = true ∧ (ringSt State.reset 0).state = .off ∧ idxDiff 0 0 ≤ 0x10000
    ∧ (ringSt (ringState { state := .active } []) (fld (rd (wr pSlice 0x180 2 (ringState { state := .active } [])) pSlice 0x180) 12 0)).state ≠ .off
    ∧ State.reset.inHold = false ∧ ({ (State.reset) with inHold := true } : State).inHold = true := by decide +kernel

theorem witness_CommitsAndSliceDomains_reset : ∀ r, (ringSt State.reset r).state = .off := fun _ => rfl

theorem witness_HostAndChipletAccess :
    phase hostState = 5 ∧ hostState.inHold = false ∧ dpaMap hostState 0x1000 = some 0x1000 ∧ backed hostState 0x1000 = true ∧ inReserved 0x1000 = false
    ∧ hostWaits hostState { fn := some 0, off := 0x1000, len := 8 } 0x1000 = false ∧ hostWaits hostState { fn := none, off := 0x1000, len := 8 } 0x1000 = false
    ∧ hostWaits hostState { fn := some 0, off := 0x1000, write := some [7], len := 0 } 0x1000 = false ∧ hostState.host.lines = []
    ∧ dpaMap hostState 0xC000000000 = none ∧ bitOf (stg hostState pHostif 3 pProt 0x120) 20 = false
    ∧ (holdRun.inHold = true ∧ phase holdRun = 5 ∧ holdRun.power.hold.host.length < 256)
    ∧ phase (wr pBoot 0x100 2 State.reset) ≠ 5 ∧ windowOpen (wr pBoot 0x100 2 State.reset) = true ∧ windowOpen State.reset = false ∧ phase State.reset ≠ 5
    ∧ takeFirst (fun x : BiWait => x.line == 5) biState.host.biWait = some ({ line := 5, seg := 3 }, []) ∧ (∀ w ∈ biState.host.biWait, w.line ≠ 6) := by decide +kernel

theorem witness_HostAndChipletAccess_sites :
    (∀ e ∈ [false, true], siteLive (siteState e) 0 = true ∧ siteRaw (siteState e) 0 = e ∧ (siteState e).inHold = false ∧ phase (siteState e) = 5)
    ∧ stg64 (siteState false) (pUcie 0) 0 (pUcie 0) 0x108 ≤ 0x1000 ∧ 0x1000 < stg64 (siteState false) (pUcie 0) 0 (pUcie 0) 0x108 + stg64 (siteState false) (pUcie 0) 0 (pUcie 0) 0x110
    ∧ inTier 0x1000 = true ∧ backed (siteState false) 0x1000 = true ∧ (freq 2).kind = .rdOnce
    ∧ ¬ (0x4000 < stg64 (siteState false) (pUcie 0) 0 (pUcie 0) 0x108 + stg64 (siteState false) (pUcie 0) 0 (pUcie 0) 0x110)
    ∧ (∀ e ∈ [false, true], (takeRaw (rawState e) 0 4).isSome = true ∧ (∀ x ∈ takeRaw (rawState e) 0 4, x.1.write = e) ∧ siteLive (rawState e) 0 = true ∧ siteRaw (rawState e) 0 = true)
    ∧ (∀ e ∈ [false, true], (rawState e).felt.dead.contains 9 = true ∧ (rawState e).host.raw.length = 1 ∧ ∀ r ∈ (rawState e).host.raw, r.site = 0)
    ∧ siteLive deadSite 0 = true ∧ deadSite.felt.dead.contains 9 = true ∧ (∀ r ∈ deadSite.host.raw, r.site ≠ 0) := by decide +kernel

theorem witness_WatchdogFailoverAndHatbox :
    phase (wdState none 0) = 5 ∧ (wdState none 0).inHold = false ∧ (wdState none 0).recov.hbLast = none ∧ (wdState (some 3) 0).recov.hbLast = some 3 ∧ 3 ≠ (rd (wdState (some 3) 0) pWatchdog 0x100).toNat
    ∧ (wdState (some 0) 1).recov.hbLast = some (rd (wdState (some 0) 1) pWatchdog 0x100).toNat ∧ (wdState (some 0) 1).recov.misses < 2
    ∧ 2 ≤ (wdState (some 0) 2).recov.misses ∧ bitOf (rd (wdState (some 0) 2) pWatchdog 0x104) 0 = true ∧ (wdState (some 0) 2).disp.failover = false
    ∧ hasStandby (wdState (some 0) 2) = false ∧ hasStandby (spareDsp (wdState (some 0) 2)) = true ∧ (spareDsp (wdState (some 0) 2)).disp.primary ≤ 1
    ∧ (∀ x ∈ (spareDsp (wdState (some 0) 2)).recov.takeover, x + 10000000 ≤ (spareDsp (wdState (some 0) 2)).now)
    ∧ overState.disp.failover = true ∧ overState.inHold = false ∧ devFault overState = false ∧ devFault (wr pWatchdog 0x108 0x400 State.reset) = true
    ∧ (ringSt openState 2).state ≠ .guilty ∧ (oldestOpen openState 2).isSome = true ∧ oldestOpen State.reset 2 = none ∧ (ringSt State.reset 2).state ≠ .guilty
    ∧ hatState.recov.hatReq = [6] ∧ hatValid hatState = false ∧ (wr pWatchdog 0x14C 1 hatState).recov.hatReq = [6] ∧ hatValid (wr pWatchdog 0x14C 1 hatState) = true
    ∧ (wr pWatchdog 0x14C 1 hatState).inHold = false ∧ bitOf (rd (wr pWatchdog 0x14C 1 hatState) pWatchdog 0x14C) 4 = false
    ∧ 40000 ≤ (wr pWatchdog 0x14C 1 { hatState with power := { hatState.power with vin := 48000 } }).power.vin := by decide +kernel

theorem witness_RecoveryAndPounce :
    (recovState []).recov.running = true ∧ (recovState []).recov.faulty = [] ∧ (recovState []).inHold = false ∧ devFault (recovState []) = false ∧ (recovState [5]).recov.faulty ≠ []
    ∧ (∀ n ∈ [0, 2000000], (∀ k ∈ (tileSt (lateState n) 0 0).task, k.aborted = true ∧ k.abortAt = 0) ∧ (tileSt (lateState n) 0 0).task.isSome = true ∧ (lateState n).now = n)
    ∧ (let p := pCopyEngine 0 0; (recovState [p]).recov.faulty.contains p = true ∧ inTile p = false ∧ pageKind p = some .copyEngine ∧ (unitSt (setUnit p { state := .faulted } (recovState [p])) p).state = .faulted)
    ∧ pounceRuns poState = true ∧ devFault poState = false ∧ wearFull poState = false ∧ (unitSt poState (pTile 0 4)).state = .spare ∧ poState.recov.faulty.contains (pTile 0 4) = false
    ∧ poState.disp.failover = false ∧ (unitSt poState (pOther poState)).state ≠ .retired := by decide +kernel

theorem witness_RecoveryAndPounce_arrays :
    ceThresh (pTile 0 0 + 9) = some 0x114 ∧ pageKind (pTile 0 0 + 9) = some .tstore ∧ (rd poState (pTile 0 0 + 9) 0x114).toNat ≤ 100000 ∧ 0 < (rd poState (pTile 0 0 + 9) 0x114).toNat
    ∧ fittedLately poState (pTile 0 0 + 9) = false ∧ poState.recov.due.contains 7 = true
    ∧ logicalTile poState 0 0 = 0 ∧ logicalTile poState 0 5 = 4 ∧ (∀ u ∈ [0, 5], poState.disp.leaving.contains (12 * 0 + logicalTile poState 0 u) = true ∧ tileBusy poState (12 * 0 + logicalTile poState 0 u) = false
      ∧ (slook poState.disp.resid (12 * 0 + logicalTile poState 0 u)).isSome = false)
    ∧ poState.prot.phase = .idle ∧ spareTiles poState 0 (0 / 5) = [4] ∧ spareTiles poState 0 (5 / 5) = [] ∧ poState.inHold = false := by decide +kernel

theorem witness_HoldBeginsAndEnds :
    upState.power.up = true ∧ upState.inHold = false ∧ dieDeg (setSensors 0 [110] upState) 0 = some (deg 110) ∧ deg 110 ≤ deg 110 ∧ fld (5 : Word) 15 0 ≠ 0
    ∧ isLeaf (pCopyEngine 0 0) = true ∧ (unitSt upState (pCopyEngine 0 0)).state = .off
    ∧ heldUp.power.up = true ∧ heldUp.inHold = true ∧ heldUp.power.hold.testUntil = some 5 ∧ 5 ≤ heldUp.now ∧ degOf 95 ≤ deg 95 ∧ degOf 200 ≤ deg 95
    ∧ (if fld (rd heldUp pBlocker 0x174) 7 0 = 0 then 10 else fld (rd heldUp pBlocker 0x174) 7 0) = 10 ∧ heldUp.power.hold.enteredAt + 10 * 1000000000 ≤ heldUp.now
    ∧ holdCauses heldUp = 0 ∧ heldUp.power.hold.reset = none ∧ (unitSt heldUp (pCopyEngine 0 0)).state = .hold ∧ (unitSt heldUp (pCopyEngine 0 0)).held ≠ .hold
    ∧ holdCauses (wr pBlocker 0x158 7 heldUp) ≠ 0 ∧ ({ heldUp with now := 0 } : State).now < heldUp.power.hold.enteredAt + 10 * 1000000000 := by decide +kernel

theorem witness_HoldBeginsAndEnds_pages : pCopyEngine 0 0 ∈ allHeaderPages := by decide +kernel

theorem witness_PowerLossJournalAndRails :
    upState.power.up = true ∧ ({ vin := 36000 } : PMeas).vin < 36400 ∧ 65500 < ({ vin := 66000 } : PMeas).vin ∧ (fuseState .on 0).power.efuse = .on
    ∧ dieDeg (setSensors 0 [120] upState) 0 = some (deg 120) ∧ upState.power.efuse ≠ .latched ∧ 2000 ≤ ({ iinPeak := 2000 } : PMeas).iinPeak
    ∧ armed (wr pJournal 0x100 8 upState) = true ∧ (wr pJournal 0x100 8 upState).power.up = true ∧ armed upState = false
    ∧ (fuseState .latched 2).power.efuse = .latched ∧ (fuseState .latched 2).power.retries < 3 ∧ 3 ≤ (fuseState .latched 3).power.retries
    ∧ ({ upState with felt := { dead := [9] } } : State).felt.dead.contains 9 = true ∧ (eraseState).nor.erasing = some 1 ∧ State.reset.nor.erasing = none ∧ eraseState.nor.erasing ≠ none
    ∧ bitOf (rd State.reset pJournal 0x110) 31 = false ∧ bitOf (rd (wr pJournal 0x110 0x80000000 State.reset) pJournal 0x110) 31 = true := by decide +kernel

theorem witness_BlockerClocksCapsAndEnergy :
    hotState.power.up = true ∧ hotState.inHold = false ∧ phase hotState = 5 ∧ holdRun.power.up = true ∧ holdRun.inHold = true
    ∧ (∀ e ∈ [102, 105], dieDeg (setSensors 0 [e] hotState) 0 = some (deg e)) ∧ (dieB hotState 0).clamp = false ∧ (dieB (setDieB 0 { clamp := true } hotState) 0).clamp = true
    ∧ (setDieB 0 { clamp := true } hotState).power.up = true ∧ dieDeg (setSensors 0 [102] (setDieB 0 { clamp := true } hotState)) 0 = some (deg 102)
    ∧ gradWarn (hotTemps hotState) < spread (hotTemps hotState) ∧ gradDie (hotTemps hotState) = some 2 ∧ msSince (hotTemps hotState) (dieB (hotTemps hotState) 2).gradAt = true
    ∧ ({ hot := [3] } : BlkMeas).hot.contains 3 = true
    ∧ bitOf (rd droopState (pPwrtherm 0 + 1) 0x100) 9 = true ∧ 700 + (if fld (rd droopState (pPwrtherm 0 + 1) 0x100) 7 0 = 0 then 40 else fld (rd droopState (pPwrtherm 0 + 1) 0x100) 7 0) ≤ fld (rd droopState (pPwrtherm 0) 0x104) 9 0
    ∧ droopState.power.up = true ∧ droopState.inHold = false := by decide +kernel

theorem witness_BlockerClocksCapsAndEnergy_caps :
    hotState.power.throttle ≠ true ∧ stuckState.power.throttle ≠ false ∧ stuckState.power.up = true ∧ stuckState.power.throttle = true ∧ bitOf (rd stuckState pBlocker 0x170) 1 = false
    ∧ 1200 ≤ fld (2000 : Word) 12 0 ∧ fld (2000 : Word) 12 0 ≤ 4600 ∧ fld (1199 : Word) 12 0 < 1200 ∧ 4600 < fld (4601 : Word) 12 0
    ∧ (findCmd chargeState 2 0).isSome = true ∧ (∀ c ∈ findCmd chargeState 2 0, c.status = none) ∧ chargeState.power.up = true ∧ chargeState.inHold = false ∧ 5 + 10 ≤ 100 := by decide +kernel

theorem witness_ResetBootAndHostLink :
    State.reset.power.up = false ∧ State.reset.power.efuse = .off ∧ upState.power.up = true ∧ upState.inHold = false ∧ heldUp.power.up = true ∧ heldUp.inHold = true
    ∧ romBreach (goodPart true) = none ∧ romBreach (goodPart false) = some (7, 0)
    ∧ perstState.power.up = true ∧ perstState.boot.perst = true ∧ phase perstState = 0 ∧ perstState.inHold = false
    ∧ findState.boot.toFind.contains 0 = true ∧ phase findState = 1 ∧ findState.inHold = false ∧ ucieRate findState 0 [4, 8] ≠ 0
    ∧ upState.boot.perst = false ∧ phase (wr pBoot 0x100 1 upState) = 1 ∧ (wr pBoot 0x100 1 upState).boot.toFind = [] ∧ bitOf (rd (wr pHostif 0x100 0x2000 upState) pHostif 0x100) 13 = true
    ∧ windowOpen (wr pBoot 0x100 2 upState) = true ∧ (wr pBoot 0x100 2 upState).inHold = false ∧ windowOpen (wr pBoot 0x100 2 heldUp) = true ∧ windowOpen upState = false := by decide +kernel

theorem witness_ResetBootAndHostLink_start :
    phase (wr pBoot 0x124 0x100 hotState) = 5 ∧ fld (rd (wr pBoot 0x124 0x100 hotState) pBoot 0x124) 5 0 < fld (rd (wr pBoot 0x124 0x100 hotState) pBoot 0x124) 13 8
    ∧ phase startState = 4 ∧ startState.inHold = false ∧ startState.boot.startAt + 2000000000 ≤ startState.now ∧ ({ startState with now := 7 } : State).now < startState.boot.startAt + 2000000000
    ∧ phase ({ startState with now := 7 } : State) = 4 := by decide +kernel

theorem witness_SpdmAndIdeOverDoe :
    spdmUp State.reset = false ∧ (∀ n ∈ [0, 1, 2, 3], spdmUp (spdmState n []) = true ∧ (spdmState n []).spdm.stage = n) ∧ 0 ≤ Config.certChain.length
    ∧ sessionOf (spdmState 3 []) 7 = none ∧ (spdmState 3 []).spdm.sessions.length < 4 ∧ 4 ≤ (spdmState 3 [{ id := 1 }, { id := 2 }, { id := 3 }, { id := 4 }]).spdm.sessions.length
    ∧ sessionOf (spdmState 3 [{ id := 1 }, { id := 2 }, { id := 3 }, { id := 4 }]) 7 = none
    ∧ sessionOf (spdmState 3 [{ id := 7 }]) 7 = some { id := 7 } ∧ sessionOf (spdmState 3 [{ id := 7, established := true }]) 7 = some { id := 7, established := true } ∧ sessionUp (spdmState 3 [{ id := 7 }]) 7 = false
    ∧ bitOf (rd (wr pIde 0x100 4 State.reset) pIde 0x100) 2 = true := by decide +kernel

theorem witness_ManagementControllerAndLog :
    State.reset.mmc.ready = false ∧ (mmcState false .on).mmc.ready = true ∧ (mmcState false .on).power.up = false ∧ (mmcState true .on).power.up = true ∧ (mmcState true .on).mmc.ready = true
    ∧ (mmcState true .latched).power.efuse = .latched ∧ upState.power.up = true ∧ upState.inHold = false ∧ logExports upState = true ∧ rd64 upState pBoot 0x170 / 4096 = 0
    ∧ logExports hotState = false ∧ hotState.power.up = true ∧ rd64 (wr pBoot 0x170 0x1000 upState) pBoot 0x170 / 4096 ≠ 0 ∧ logExports (wr pBoot 0x170 0x1000 upState) = true
    ∧ fld (rd (wr pBoot 0x17C 128 upState) pBoot 0x188) 1 0 ≤ ((List.replicate 32 (3 : Byte)).getD 10 0).toNat ∧ (logProd (wr pBoot 0x17C 128 upState) + 0x200000 - logCons (wr pBoot 0x17C 128 upState)) % 0x200000 = 2 ^ logSize (wr pBoot 0x17C 128 upState)
    ∧ logProd (wr pBoot 0x17C 128 upState) ≠ logCons (wr pBoot 0x17C 128 upState) ∧ logProd upState = logCons upState ∧ upState.boot.unsent = [] := by decide +kernel

theorem witness_EveryStepKeepsMemoryCanonical : memDataState.inv ∧ (match step { memDataState with pending := [.hbReq], mem := [(3, 7)] } with | .next t => decide t.inv | _ => false) = true := by decide +kernel

theorem witness_CommitsAndSliceDomains_passes : commitCheck State.reset (stagedNow State.reset) = (none, []) := by decide +kernel

end Sys2Proof.Tests
end

section
/-! SUPPORT. Software's writes of registers (02_register_pages.md): which write reaches a header register, what raising and
clearing events does to EVT_STAT, and what a write of consecutive words leaves. -/

namespace Sys2Proof.Machine

/-! ### Words under masks -/

/-- Bits set together with others are not among those cleared. -/
theorem and_not_and_of_or {x y h : Word} (b : Word) (hx : x &&& (y ||| h) = y ||| h) : x &&& ~~~(b &&& ~~~h) &&& h = h := by
  ext i hi
  have hxi := congrArg (·.getLsbD i) hx
  simp only [BitVec.getLsbD_eq_getElem hi, BitVec.getElem_and, BitVec.getElem_or, Bool.and_eq_right_iff_imp, Bool.or_eq_true] at hxi
  simp only [BitVec.getElem_and, BitVec.getElem_not]
  cases hb : h[i]
  · simp
  · simpa using hxi (by simp [hb])

/-- A masked update reads as the data under its mask. -/
theorem masked_and (old new mask : Word) : (old &&& ~~~mask ||| new &&& mask) &&& mask = new &&& mask := by
  ext i hi
  simp only [BitVec.getElem_and, BitVec.getElem_or, BitVec.getElem_not]
  cases mask[i] <;> simp

/-! ### Groups above a page (R70) -/

theorem pageDie_pageOf {d u b : Nat} (hu : u < 64) (hb : b < 16) : pageDie (pageOf d u b) = d := by
  unfold pageDie pageOf; omega

theorem pageUnit_pageOf {d u b : Nat} (hu : u < 64) (hb : b < 16) : pageUnit (pageOf d u b) = u := by
  unfold pageUnit pageOf; omega

theorem pageBlock_pageOf {d u b : Nat} (hb : b < 16) : pageBlock (pageOf d u b) = b := by
  unfold pageBlock pageOf; omega

theorem hubPageKind_code {u b : Nat} {k : PageKind} (h : hubPageKind u b = some k) : k.code = 0 ∨ k.code = 0x12 ∨ 0x40 ≤ k.code := by
  unfold hubPageKind at h
  split at h <;> cases h <;> decide

theorem sitePageKind_code {u b : Nat} {k : PageKind} (h : sitePageKind u b = some k) : k.code = 0 ∨ k.code = 0x13 ∨ 0x40 ≤ k.code := by
  unfold sitePageKind at h
  split at h <;> cases h <;> decide

theorem devPageKind_code {u b : Nat} {k : PageKind} (h : devPageKind u b = some k) : k.code = 0 ∨ k.code = 0x14 ∨ 0x40 ≤ k.code := by
  unfold devPageKind at h
  split at h
  case h_4 => split at h <;> cases h; decide
  all_goals cases h <;> decide

/-- The kinds below 0x10 are those of a tile's pages, and those from 0x20 to 0x3F stand on compute dies only (R66 to R69). -/
theorem computePageKind_of_code {p : Nat} {k : PageKind} (h : pageKind p = some k) (h0 : k.code ≠ 0)
    (hk : k.code < 0x10 ∨ 0x20 ≤ k.code ∧ k.code < 0x40) :
    pageDie p < 8 ∧ computePageKind (pageDie p) (pageUnit p) (pageBlock p) = some k := by
  unfold pageKind at h
  simp only at h
  split at h
  · exact ⟨‹_›, h⟩
  · split at h
    · have := hubPageKind_code h; omega
    · split at h
      · have := sitePageKind_code h; omega
      · split at h
        · have := devPageKind_code h; omega
        · cases h

/-- Beyond the tiles' units a compute die has no kind below 0x10 (R66). -/
theorem computePageKind_code {d u b : Nat} {k : PageKind} (h : computePageKind d u b = some k) (hu : ¬u < 15) :
    k.code = 0 ∨ 0x10 ≤ k.code := by
  revert h
  unfold computePageKind
  rw [if_neg hu]
  repeat' refine iteInduction (motive := fun o => o = some k → _) (fun _ => ?_) fun _ => ?_
  any_goals split
  all_goals rintro ⟨⟩
  all_goals decide

/-- A page of any kind stands on a die whose unit 63 is the die's group page (R66 to R70). -/
theorem isGroupPage_die {p : Nat} {k : PageKind} (h : pageKind p = some k) : isGroupPage (pageOf (pageDie p) 63 0) = true := by
  unfold isGroupPage
  have hd : pageDie p < 8 ∨ pageDie p = 8 ∨ pageDie p = 9 ∨ pageDie p = 10 ∨ pageDie p = 15 := by
    refine Decidable.byContradiction fun hd => ?_
    obtain ⟨h8, hhub, h9, h10, h15⟩ : ¬pageDie p < 8 ∧ pageDie p ≠ 8 ∧ pageDie p ≠ 9 ∧ pageDie p ≠ 10 ∧ pageDie p ≠ 15 := by omega
    simp only [pageKind, if_neg h8, if_neg hhub, h9, h10, or_self, if_neg h15, if_false] at h
    cases h
  rcases hd with hd | hd | hd | hd | hd
  · simp only [pageKind, pageDie_pageOf, pageUnit_pageOf, pageBlock_pageOf, Nat.reduceLT, hd, if_true]
    rfl
  all_goals rw [hd]; rfl

/-- A tile's own pages: the tile is on a compute die at a unit below 15 (R66). -/
theorem place_of_tileKind {p : Nat} {k : PageKind} (h : pageKind p = some k) (h0 : k.code ≠ 0) (hk : k.code < 0x10) :
    pageDie p < 8 ∧ pageUnit p < 15 := by
  obtain ⟨hd, hc⟩ := computePageKind_of_code h h0 (.inl hk)
  refine ⟨hd, Decidable.byContradiction fun hu => ?_⟩
  have := computePageKind_code hc hu
  omega

/-- A page of a compute die is a group page if its kind is a group's. -/
theorem isGroupPage_computePage {d u b : Nat} {k : PageKind} (hd : d < 8) (hu : u < 64) (hb : b < 16)
    (h : computePageKind d u b = some k) : isGroupPage (pageOf d u b) = k.isGroup := by
  simp only [isGroupPage, pageKind, pageDie_pageOf, pageUnit_pageOf, pageBlock_pageOf, hd, hu, hb, if_true, h]

/-- The header page of a tile's unit. -/
theorem isGroupPage_tile {d u : Nat} (hd : d < 8) (hu : u < 15) : isGroupPage (pageOf d u 0) = true :=
  isGroupPage_computePage (k := .tile) hd (by omega) (by decide) (by unfold computePageKind; rw [if_pos hu]; rfl)

/-- What a page reports to is a group page: its tile's, cluster's, path or engine group's page, its die's page or DEV (R31, R70). -/
theorem isGroupPage_parentOf {p g n : Nat} (h : parentOf p = some (g, n)) : isGroupPage g = true := by
  cases hk : pageKind p with
  | none => simp [parentOf, hk] at h
  | some k =>
    simp only [parentOf, hk] at h
    cases k
    case vc | matrix | gather | smu | codec | tstore | tlb =>
      obtain ⟨hd, hu⟩ := place_of_tileKind hk (by decide) (by decide)
      cases h
      exact isGroupPage_tile hd hu
    case tile =>
      obtain ⟨hd, hu⟩ := place_of_tileKind hk (by decide) (by decide)
      cases h
      refine isGroupPage_computePage (k := .cluster) hd (by omega) (by decide) ?_
      unfold computePageKind
      rw [if_neg (by omega), if_pos (by omega), if_pos rfl]
    case path =>
      obtain ⟨hd, -⟩ := computePageKind_of_code hk (by decide) (by decide)
      cases h
      exact isGroupPage_computePage (k := .inner) hd (by decide) (by decide) rfl
    case copyEngine =>
      obtain ⟨hd, -⟩ := computePageKind_of_code hk (by decide) (by decide)
      cases h
      exact isGroupPage_computePage (k := .copygrp) hd (by decide) (by decide) rfl
    case cluster | segment | port | sdramc | lpddrc | inner | walkers | collective | copygrp | pwrtherm | ucie | chiplet =>
      cases h
      exact isGroupPage_die hk
    all_goals cases h <;> rfl

theorem ne_parentOf {p q g n : Nat} (hq : isGroupPage q = false) (h : parentOf p = some (g, n)) : q ≠ g := fun e => by
  rw [e, isGroupPage_parentOf h] at hq
  cases hq

/-! ### Clearing events -/

/-- Clearing events of a page, and the summary bits above it, leaves EVT_STAT of every other member page as it was. -/
theorem rd_dropEvtF_evtStat (fuel p : Nat) (b : Word) (s : State) {q : Nat} (hq : isGroupPage q = false) (h : q ≠ p) :
    rd (dropEvtF fuel p b s) q 0x10 = rd s q 0x10 := by
  induction fuel generalizing p b s with
  | zero => exact rd_wr_page s _ (by decide) (by decide) h
  | succ n ih =>
    have hw : rd (wr p 0x10 (rd s p 0x10 &&& ~~~b) s) q 0x10 = rd s q 0x10 := rd_wr_page s _ (by decide) (by decide) h
    unfold dropEvtF
    simp only
    split
    · split
      case h_1 e =>
        rw [ih _ _ _ (ne_parentOf hq e), hw]
      case h_2 => exact hw
    · exact hw

/-- On a member page clearing events clears exactly the bits named: the summary bits it may clear are its groups' (R81, R86). -/
theorem rd_dropEvt_same (p : Nat) (b : Word) (s : State) (hp : isGroupPage p = false) :
    rd (dropEvt p b s) p 0x10 = rd s p 0x10 &&& ~~~b := by
  unfold dropEvt dropEvtF
  simp only
  split
  · split
    case h_1 e =>
      rw [rd_dropEvtF_evtStat _ _ _ _ hp (ne_parentOf hp e), rd_wr_same]
    case h_2 => exact rd_wr_same s _ _ _
  · exact rd_wr_same s _ _ _

/-! ### Raising events -/

/-- A preorder on states that every update made while an event rises moves along: setting EVT_STAT bits, counting in the INTR
page, the output and ALERT_N (R79 to R87). -/
structure EvtClosed (R : State → State → Prop) : Prop where
  refl : ∀ s, R s s
  trans : ∀ {t u s}, R t u → R u s → R t s
  orEvt : ∀ p b s, R (orEvt p b s) s
  intr : ∀ o v s, o = 0x100 ∨ o = 0x110 → R (wr64 pIntr o v s) s
  emit : ∀ o s, R (emit o s) s
  alert : ∀ s : State, R { s with alertN := true } s

namespace EvtClosed

variable {R : State → State → Prop} (H : EvtClosed R)
include H

theorem sendMsix (fn vec : Nat) (s : State) : R (Machine.sendMsix fn vec s) s :=
  H.trans (H.intr _ _ _ (.inl rfl)) (H.emit _ s)

theorem sendRedirected (sl : Nat) (s : State) : R (Machine.sendRedirected sl s) s := by
  unfold Machine.sendRedirected
  split
  · exact H.refl s
  · exact H.trans (H.sendMsix _ _ _) (H.intr _ _ s (.inr rfl))

/-- Delivering a message moves along `R`, and raising moves along `R` from the state in which the bits themselves are set. -/
theorem raise_deliver (fuel : Nat) :
    (∀ p b s, R (raiseEvtF fuel p b s) (Machine.orEvt p b s)) ∧ ∀ p s, R (deliverF fuel p s) s := by
  induction fuel with
  | zero => exact ⟨fun p b s => by unfold raiseEvtF; exact H.refl _, fun p s => by unfold deliverF; exact H.emit _ s⟩
  | succ n ih =>
    have hr : ∀ p b s, R (raiseEvtF n p b s) s := fun p b s => H.trans (ih.1 p b s) (H.orEvt p b s)
    refine ⟨fun p b s => ?_, fun p s => ?_⟩
    · unfold raiseEvtF
      have hd := ih.2 p (Machine.orEvt p b s)
      simp only
      split
      · exact H.refl _
      · split
        · split
          · exact H.trans (hr _ _ _) hd
          · exact hd
        · exact hd
    · unfold deliverF
      simp only
      generalize (bitOf (rd s p 0x1C) 19 && decide (fld (rd s p 0x1C) 1 0 ≠ 0)) = c
      have h0 : R (if c then { s with alertN := true } else s) s := by
        cases c
        · exact H.refl s
        · exact H.alert s
      generalize (if c then ({ s with alertN := true } : State) else s) = u at h0 ⊢
      refine H.trans ?_ h0
      split
      · exact H.refl _
      · exact H.sendMsix _ _ _
      · split
        · exact H.trans (hr _ _ _) (H.sendRedirected _ _)
        · split
          · exact H.sendMsix _ _ _
          · exact H.trans (hr _ _ _) (H.emit _ _)
      · exact H.emit _ _

theorem raiseEvt (p : Nat) (b : Word) (s : State) : R (Machine.raiseEvt p b s) (Machine.orEvt p b s) := (H.raise_deliver 10).1 p b s

end EvtClosed

/-- Every EVT_STAT bit set before is still set. -/
def EvtGrows (t s : State) : Prop := ∀ p, rd t p 0x10 &&& rd s p 0x10 = rd s p 0x10

theorem EvtGrows.of_eq {t s : State} (h : ∀ p, rd t p 0x10 = rd s p 0x10) : EvtGrows t s := fun p => by
  rw [h p, BitVec.and_self]

theorem evtGrows_orEvt (p : Nat) (b : Word) (s : State) : EvtGrows (orEvt p b s) s := fun q => by
  unfold orEvt
  by_cases h : q = p
  · subst h
    rw [rd_wr_same]
    ext i
    simp +contextual
  · rw [rd_wr_page s _ (by decide) (by decide) h, BitVec.and_self]

/-- Nothing that happens while an event rises clears an EVT_STAT bit (R80). -/
theorem evtClosed_evtGrows : EvtClosed EvtGrows where
  refl s := .of_eq fun _ => rfl
  trans {t u s} h k p := by rw [← k p, ← BitVec.and_assoc, h p]
  orEvt := evtGrows_orEvt
  intr o v s ho := .of_eq fun p => by
    show rd (wr pIntr (o + 4) _ (wr pIntr o _ s)) p 0x10 = _
    rw [rd_wr_off _ _ (by omega) (by decide) (by omega), rd_wr_off _ _ (by omega) (by decide) (by omega)]
  emit o s := .of_eq fun _ => rfl
  alert s := .of_eq fun _ => rfl

/-- Raising bits on a page leaves set what was set there, and sets them. -/
theorem rd_raiseEvt_and (p : Nat) (b : Word) (s : State) :
    rd (raiseEvt p b s) p 0x10 &&& (rd s p 0x10 ||| b) = rd s p 0x10 ||| b := by
  have h := evtClosed_evtGrows.raiseEvt p b s p
  rwa [orEvt, rd_wr_same] at h

/-- Raising no bits sends no message and leaves EVT_STAT as it was. -/
theorem rd_raiseEvt_zero (p : Nat) (s : State) : rd (raiseEvt p 0 s) p 0x10 = rd s p 0x10 := by
  have h10 : rd (orEvt p 0 s) p 0x10 = rd s p 0x10 := by
    rw [orEvt, rd_wr_same]
    exact BitVec.or_zero
  have h14 : rd (orEvt p 0 s) p 0x14 = rd s p 0x14 := rd_wr_off s _ (by decide) (by decide) (by decide)
  unfold raiseEvt raiseEvtF
  simp only [evtPending, h10, h14, Bool.or_not_self, if_true]

/-! ### Consecutive words -/

theorem rd_wrWords_out (p o : Nat) (l : List Word) (s : State) {q x : Nat} (hl : o + 4 * l.length ≤ 0x1000) (hx : x < 0x1000)
    (h : x < o ∨ o + 4 * l.length ≤ x) : rd (wrWords p o l s) q x = rd s q x := by
  induction l generalizing o s with
  | nil => rfl
  | cons w t ih =>
    rw [List.length_cons] at hl h
    rw [wrWords, ih _ _ (by omega) (by omega), rd_wr_off s w (by omega) hx (by omega)]

theorem rd_wrWords_at (p o : Nat) (l : List Word) (s : State) (hl : o + 4 * l.length ≤ 0x1000) {i : Nat} (hi : i < l.length) :
    rd (wrWords p o l s) p (o + 4 * i) = l[i] := by
  induction l generalizing o s i with
  | nil => cases hi
  | cons w t ih =>
    rw [List.length_cons] at hl hi
    rw [wrWords]
    cases i with
    | zero => rw [rd_wrWords_out _ _ _ _ (by omega) (by omega) (by omega)]; exact rd_wr_same s _ _ _
    | succ j =>
      rw [show o + 4 * (j + 1) = o + 4 + 4 * j by omega, ih _ _ (by omega) (by omega)]
      rfl

/-- A cleared record reads 0 in all eight words (R84). -/
theorem rd_clearErr (p : Nat) (s : State) {i : Nat} (hi : i < 8) : rd (clearErr p s) p (0x20 + 4 * i) = 0 := by
  rw [clearErr, rd_wrWords_at _ _ _ _ (by simp) (by simpa using hi), List.getElem_replicate]

theorem rd_clearErr_evtStat (p q : Nat) (s : State) : rd (clearErr p s) q 0x10 = rd s q 0x10 :=
  rd_wrWords_out _ _ _ _ (by simp) (by decide) (by simp)

/-! ### The PF's writes of header registers -/

/-- No register of the common header is Holog's alone (R18, R71). -/
theorem hologOnly_header (p : Nat) {o : Nat} (ho : o < 0x100) : hologOnly p o = false := by
  unfold hologOnly
  split <;> simp <;> omega

/-- An aligned 32-bit write that its requester may make and that HOLD does not keep back reaches its register (R61, R759). -/
theorem regWrite_now {req p o : Nat} {v : DWord} {s : State} (hp : p < 0x4000) (ho : o < 0x1000) (h4 : o % 4 = 0)
    (hw : mayWrite s req p o v = true) (hs : s.inHold = true → holdOpen p = true) :
    regWrite req (p * 0x1000 + o) v false s = writeOne req (p * 0x1000 + o) v false s := by
  have hpage : (p * 0x1000 + o) / 0x1000 = p := by omega
  have hoff : (p * 0x1000 + o) % 0x1000 = o := by omega
  have hlt : ¬0x4000000 ≤ p * 0x1000 + o := by omega
  have hal : (p * 0x1000 + o) % 4 = 0 := by omega
  have hheld : ¬(s.inHold = true ∧ (!holdOpen p) = true) := fun ⟨h, h'⟩ => by simp [hs h] at h'
  simp only [regWrite, writeNow, hpage, hoff, hw, hal, if_neg hlt, if_neg hheld, Bool.false_eq_true, if_false, ne_eq, not_true,
    Bool.not_true, Bool.not_false, if_true]

/-- Outside HOLD an aligned write by the PF to the common header of a page takes effect there, if the page is present. -/
theorem regWrite_header {p o : Nat} (v : DWord) (s : State) (hp : p < 0x4000) (ho : o < 0x100) (h4 : o % 4 = 0)
    (hh : hasHeader p = true) (hs : s.inHold = false) :
    regWrite 0 (p * 0x1000 + o) v false s = if pagePresent s p then writeHeader p o (BitVec.ofNat 32 v.toNat) s else s := by
  have hw : mayWrite s 0 p o v = true := by simp [mayWrite, hologOnly_header p ho]
  have hpage : (p * 0x1000 + o) / 0x1000 = p := by omega
  have hoff : (p * 0x1000 + o) % 0x1000 = o := by omega
  obtain ⟨k, hk, hkh⟩ : ∃ k, pageKind p = some k ∧ k.hasHeader = true := by
    unfold hasHeader at hh
    split at hh
    case h_1 k e => exact ⟨k, e, hh⟩
    case h_2 => cases hh
  rw [regWrite_now hp (by omega) h4 hw fun h => by simp [hs] at h]
  simp only [writeOne, hpage, hoff, hk, hkh, if_pos ho, if_true]
  cases pagePresent s p <;> rfl

/-- EVT_FORCE by the PF, outside HOLD, on a page with the header (R80, R86). -/
theorem execEvtForce_eq {p : Nat} (bits : Word) {s : State} (hp : p < 0x4000) (hh : hasHeader p = true) (hs : s.inHold = false) :
    execEvtForce p bits s = .next (if pagePresent s p && !isGroupPage p then raiseEvt p (bits &&& 0xEFFFFFFF) s else s) := by
  have hbits : BitVec.ofNat 32 (BitVec.ofNat 64 bits.toNat).toNat = bits := by
    apply BitVec.eq_of_toNat_eq
    simp only [BitVec.toNat_ofNat]
    omega
  rw [execEvtForce, regWrite_header _ s hp (by decide) (by decide) hh hs, hbits]
  cases hpp : pagePresent s p <;> cases hg : isGroupPage p <;> simp [writeHeader, hg]

/-- ERR_CODE_CLEAR by the PF, outside HOLD, on a present page with the header (R84). -/
theorem execErrCodeClear_eq {p : Nat} {s : State} (hp : p < 0x4000) (hh : hasHeader p = true) (hpp : pagePresent s p = true)
    (hs : s.inHold = false) : execErrCodeClear p s = .next (clearErr p s) := by
  rw [execErrCodeClear, regWrite_header _ s hp (by decide) (by decide) hh hs, if_pos hpp]
  rfl

/-- EVT_STAT_CLEAR outside HOLD on a present member page: the hardware's bits rise, then the others written clear (R81). -/
theorem evtStatClear_eq {p : Nat} (bits hw : Word) {s : State} (hh : hasHeader p = true) (hg : isGroupPage p = false)
    (hpp : pagePresent s p = true) (hs : s.inHold = false) :
    evtStatClear p bits hw s = dropEvt p (bits &&& ~~~hw) (raiseEvt p hw s) := by
  simp [evtStatClear, hh, hg, hpp, (quiet_raiseEvt p hw s).inHold, hs]

/-! ### A plain register, and the writes of HOLD -/

/-- SNAP_CFG is a plain register (R18, R95): a write sets its writable bits 15:8 and 3:0 and changes the stored word alone. -/
theorem regWrite_snapCfg (v : DWord) (s : State) :
    regWrite 0 (pSnap * 0x1000 + 0x100) v false s
      = wr pSnap 0x100 (rd s pSnap 0x100 &&& ~~~0xFF0F ||| BitVec.ofNat 32 v.toNat &&& 0xFF0F) s := by
  rw [regWrite_now (by decide) (by decide) (by decide) rfl fun _ => rfl]
  have hpage : (pSnap * 0x1000 + 0x100) / 0x1000 = pSnap := by decide
  have hoff : (pSnap * 0x1000 + 0x100) % 0x1000 = 0x100 := by decide
  have hk : pageKind pSnap = some .snapUnit := rfl
  simp only [writeOne, hpage, hoff, hk, pagePresent, bankOf]
  rfl

/-- A write at or beyond BAR0's 64 MiB changes nothing (R60, R64). -/
theorem regWrite_beyond {req off : Nat} (v : DWord) (s : State) (h4 : off % 4 = 0) (h : 0x4000000 ≤ off) :
    regWrite req off v false s = s := by
  unfold regWrite
  simp only [Bool.false_eq_true, if_false, h4, ne_eq, not_true, if_pos h]

/-- In HOLD an aligned write by Holog to a page of a compute die waits (R759). -/
theorem regWrite_hold {off : Nat} (v : DWord) (s : State) (hs : s.inHold = true) (h4 : off % 4 = 0) (hd : pageDie (off / 0x1000) < 8) :
    regWrite 64 off v false s = holdWrite 64 off v false s := by
  have hlt : ¬0x4000000 ≤ off := by unfold pageDie at hd; omega
  have hopen : holdOpen (off / 0x1000) = false := by
    simp only [holdOpen, Bool.or_eq_false_iff, beq_eq_false_iff_ne]
    omega
  have hw : mayWrite s 64 (off / 0x1000) (off % 0x1000) v = true := rfl
  simp only [regWrite, Bool.false_eq_true, if_false, h4, ne_eq, not_true, if_neg hlt, hw, hs, hopen, Bool.not_true, Bool.not_false,
    true_and, if_true]


end Sys2Proof.Machine
end

section
/-! PROOFS. The statements on writes of plain registers and on the event and error registers of the common header. -/

namespace Sys2Proof.Machine

/-- Settles O3: SNAP_CFG takes the data under its mask and nothing else changes; beyond BAR0 nothing changes; in HOLD the write
waits. -/
theorem plainRegisterWritten : Obligations.PlainRegisterWritten := by
  unfold Obligations.PlainRegisterWritten
  refine ⟨fun s v => ⟨_, congrArg Host.Outcome.next (regWrite_snapCfg v s), ?_, rfl⟩,
    fun s req off v h4 h => congrArg Host.Outcome.next (regWrite_beyond v s h4 h),
    fun s off v hs h4 hd => congrArg Host.Outcome.next (regWrite_hold v s hs h4 hd)⟩
  rw [rd_wr_same, masked_and]

/-- Settles O6: what EVT_FORCE, EVT_STAT_CLEAR and ERR_CODE_CLEAR do to a page, from what raising, clearing and the record's
words leave in EVT_STAT. -/
theorem eventBitsForcedAndCleared : Obligations.EventBitsForcedAndCleared := by
  unfold Obligations.EventBitsForcedAndCleared
  refine ⟨fun s p bits hp hh hg hpp hs => ?_, fun s p bits hp hh hg hs => ?_, fun s p bits hw hh hg hpp hs => ?_,
    fun s p bits hh hg hpp hs => ?_, fun s p hp hh hpp hs => ?_⟩
  · refine ⟨_, execEvtForce_eq bits hp hh hs, ?_⟩
    rw [hpp, hg]
    exact ⟨rfl, rd_raiseEvt_and p _ s⟩
  · refine (execEvtForce_eq bits hp hh hs).trans ?_
    rw [hg, Bool.not_true, Bool.and_false]
    rfl
  · refine ⟨_, congrArg Host.Outcome.next (evtStatClear_eq bits hw hh hg hpp hs), ?_⟩
    show rd _ p 0x10 &&& hw = hw
    rw [rd_dropEvt_same p _ _ hg]
    exact and_not_and_of_or bits (rd_raiseEvt_and p hw s)
  · refine ⟨_, congrArg Host.Outcome.next (evtStatClear_eq bits 0 hh hg hpp hs), ?_⟩
    show rd _ p 0x10 = _
    rw [rd_dropEvt_same p _ _ hg, rd_raiseEvt_zero, show bits &&& ~~~(0 : Word) = bits from BitVec.and_allOnes]
  · exact ⟨_, execErrCodeClear_eq hp hh hpp hs, fun i hi => rd_clearErr p s hi, rd_clearErr_evtStat p p s⟩

end Sys2Proof.Machine
end

section
/-! SUPPORT. Reads of data registers (01_organisation.md R51, R52; 17_firmware.md R810): what a 32-bit read of DIST_DATA and of
NOR_DATA puts out and changes, and what an update of the DIST table leaves. -/

namespace Sys2Proof.Machine

/-! ### Reads of DIST_DATA and NOR_DATA -/

/-- The PF and Holog may read every register (R639). -/
theorem mayRead_of_owner {req : Nat} (h : req = 0 ∨ 64 ≤ req) (s : State) (p o : Nat) : mayRead s req p o = true := by
  rcases h with rfl | h
  · rfl
  · simp [mayRead, h]

/-- A permitted 32-bit read of a present page's register, no word of a 64-bit counter, returns the register's word; on the DIST
page and the JOURNAL page it changes what the data register's read changes (R51, R64, R810). -/
theorem read32_uncounted {req p o : Nat} {s : State} (hp : p < 0x4000) (ho : o < 0x1000) (hr : mayRead s req p o = true)
    (hpp : pagePresent s p = true) (hlow : isCounter64 p o = false) (hhigh : isCounter64 p (o - 4) = false) :
    (read32 req (p * 0x1000 + o) s).1 = (readWord s req p o).toNat
      ∧ (pageKind p = some .dist → (read32 req (p * 0x1000 + o) s).2 = if o = 0x104 ∧ bitOf (rd s pDist 0x100) 31 = true then
          wr pDist 0x100 (setFld (rd s pDist 0x100) 13 0 (fld (rd s pDist 0x100) 13 0 + 1)) s else s)
      ∧ (pageKind p = some .journal → (read32 req (p * 0x1000 + o) s).2 = if o = 0x114 then norRead s else s) := by
  have hpage : (p * 0x1000 + o) / 0x1000 = p := by omega
  have hoff : (p * 0x1000 + o) % 0x1000 = o := by omega
  have hlt : ¬0x4000000 ≤ p * 0x1000 + o := by omega
  simp only [read32, hpage, hoff, if_neg hlt, hr, hpp, hlow, hhigh, Bool.not_true, Bool.false_eq_true, and_false, if_false]
  refine ⟨?_, fun hk => by rw [hk], fun hk => by rw [hk]⟩
  split <;> rfl

/-- A read of DIST_DATA returns the selected entry, and with AUTOINC the index advances (R51). -/
theorem read32_distData {req : Nat} (hreq : req = 0 ∨ 64 ≤ req) (s : State) :
    read32 req (pDist * 0x1000 + 0x104) s = ((BitVec.ofNat 32 (distData s)).toNat,
      if bitOf (rd s pDist 0x100) 31 then
        wr pDist 0x100 (setFld (rd s pDist 0x100) 13 0 (fld (rd s pDist 0x100) 13 0 + 1)) s
      else s) := by
  obtain ⟨hword, heffect, -⟩ := read32_uncounted (p := pDist) (o := 0x104) (by decide) (by decide) (mayRead_of_owner hreq s _ _) rfl
    (by decide) (by decide)
  refine Prod.ext hword ((heffect rfl).trans ?_)
  simp only [true_and]

/-- A read of NOR_DATA returns what JOURNAL shows and has its side effect (R810). -/
theorem read32_norData {req : Nat} (hreq : req = 0 ∨ 64 ≤ req) (s : State) :
    read32 req (pJournal * 0x1000 + 0x114) s = ((norData s).toNat, norRead s) := by
  obtain ⟨hword, -, heffect⟩ := read32_uncounted (p := pJournal) (o := 0x114) (by decide) (by decide) (mayRead_of_owner hreq s _ _) rfl
    (by decide) (by decide)
  exact Prod.ext hword (heffect rfl)

/-! ### Updates of the DIST table -/

/-- A wrapping count reads as advanced. -/
theorem rd_inc32_same (p o n : Nat) (s : State) : rd (inc32 p o n s) p o = rd s p o + BitVec.ofNat 32 n := by
  rw [inc32, rd_wr_same, BitVec.ofNat_add, BitVec.ofNat_toNat, BitVec.setWidth_eq]

/-- An update of one entry of the table writes that entry; what follows it leaves the table alone (R52). -/
theorem distUpdate_single_dist {i : Nat} (w : Word) (s : State) (hi : i < 15360) :
    (distUpdate [(i, w)] s).org.dist = sput (fun _ => (0 : Word)) s.org.dist i w := by
  simp [distUpdate, hi]

/-- An update ends in DIST_CHANGED, raised once DIST_GEN has passed its odd value (R52). -/
theorem distUpdate_raises (changes : List (Nat × Word)) (s : State) :
    ∃ u : State, distUpdate changes s = event pDist 0 u ∧ rd u pDist 0x108 = rd s pDist 0x108 + 2 := by
  refine ⟨_, rfl, ?_⟩
  rw [rd_inc32_same]
  show rd (inc32 pDist 0x108 1 s) pDist 0x108 + 1 = _
  rw [rd_inc32_same, BitVec.add_assoc]
  rfl

end Sys2Proof.Machine
end

section
/-! PROOFS. The statement on the data registers of DIST and JOURNAL and the update of the DIST table. -/

namespace Sys2Proof.Machine

/-- Settles O5: the two reads from what a read of DIST_DATA and of NOR_DATA answers, the update from the entry it writes and
the generation it ends with. -/
theorem dataPortReads : Obligations.DataPortReads := by
  unfold Obligations.DataPortReads
  refine ⟨fun s => ?_, fun s => ?_, fun s i w hi => ⟨_, rfl, ?_, fun j hj => ?_, distUpdate_raises _ s⟩⟩
  · refine ⟨_, rfl, ?_⟩
    rw [readOut, read32_distData (.inl rfl)]
    cases hinc : bitOf (rd s pDist 0x100) 31
    case false => exact ⟨rfl, fun _ => rfl, nofun⟩
    case true => exact ⟨rfl, nofun, fun _ => rd_wr_same s _ _ _⟩
  · refine ⟨_, rfl, ?_⟩
    rw [readOut, read32_norData (.inr (Nat.le_refl 64))]
  · rw [distUpdate_single_dist w s hi, sget_sput_same]
  · rw [distUpdate_single_dist w s hi, sget_sput_ne _ _ _ hj]

end Sys2Proof.Machine
end

section
/-! SUPPORT. Register accesses that are no aligned words, and 64-bit counters read in two halves (02_register_pages.md R62, R63). -/

namespace Sys2Proof.Machine

/-- A write at an offset that is no multiple of its size raises BAD_REG_ACCESS and does nothing else (R62). -/
theorem regWrite_misaligned {off : Nat} {wide : Bool} (req : Nat) (data : DWord) (s : State)
    (h : off % (if wide then 8 else 4) ≠ 0) : regWrite req off data wide s = event pHostif 0 s :=
  if_pos h

/-- A write that is no aligned access raises BAD_REG_ACCESS and does nothing else (R62). -/
theorem badRegAccess_write {off bytes : Nat} (req : Nat) (s : State)
    (h : ¬(bytes = 0 ∨ (bytes = 4 ∨ bytes = 8) ∧ off % bytes = 0)) : badRegAccess req off bytes true s = event pHostif 0 s := by
  rw [badRegAccess, if_neg h, if_pos rfl]

/-- A narrow read within one word returns its bytes of the 32-bit read, with that read's side effects (R62). -/
theorem badRegAccess_narrowRead {off bytes : Nat} (req : Nat) (s : State) (h0 : 0 < bytes) (h4 : bytes < 4)
    (hw : off % 4 + bytes ≤ 4) : badRegAccess req off bytes false s
      = emit (.readData req off ((read32 req (off / 4 * 4) s).1 / 2 ^ (8 * (off % 4)) % 2 ^ (8 * bytes)))
          (read32 req (off / 4 * 4) s).2 := by
  rw [badRegAccess, if_neg (by omega), if_neg Bool.false_ne_true, if_pos ⟨h4, hw⟩]

/-- Every other read that is no aligned access returns 0 and raises BAD_REG_ACCESS (R62). -/
theorem badRegAccess_otherRead {off bytes : Nat} (req : Nat) (s : State)
    (h : ¬(bytes = 0 ∨ (bytes = 4 ∨ bytes = 8) ∧ off % bytes = 0)) (hw : ¬(bytes < 4 ∧ off % 4 + bytes ≤ 4)) :
    badRegAccess req off bytes false s = event pHostif 0 (emit (.readData req off 0) s) := by
  rw [badRegAccess, if_neg h, if_neg Bool.false_ne_true, if_neg hw]

/-- The shadow that a read of a counter's low word leaves its requester (R63). -/
def counterShadow (s : State) (req off : Nat) : Shadow :=
  { off := off, high := readWord s req (off / 0x1000) (off % 0x1000 + 4) }

/-- A permitted read of a counter's low word returns it and keeps the high word of that moment for the requester (R63). -/
theorem read32_counterLow {req off : Nat} {s : State} (hoff : off < 0x4000000)
    (hr : mayRead s req (off / 0x1000) (off % 0x1000) = true) (hpp : pagePresent s (off / 0x1000) = true)
    (hc : isCounter64 (off / 0x1000) (off % 0x1000) = true) :
    read32 req off s = ((readWord s req (off / 0x1000) (off % 0x1000)).toNat,
      { s with shadows := sadd s.shadows req (counterShadow s req off) }) := by
  simp only [read32, if_neg (Nat.not_le.mpr hoff), hr, hpp, hc, Bool.not_true, Bool.false_eq_true, if_false, if_true, counterShadow]

/-- A permitted read of a counter's high word returns the word kept with the low one, while that shadow stands (R63). -/
theorem read32_counterHigh {req off : Nat} {x : Shadow} {s : State} (hoff : off + 4 < 0x4000000)
    (hpage : (off + 4) / 0x1000 = off / 0x1000) (hr : mayRead s req (off / 0x1000) (off % 0x1000 + 4) = true)
    (hpp : pagePresent s (off / 0x1000) = true) (hlow : isCounter64 (off / 0x1000) (off % 0x1000) = true)
    (hhigh : isCounter64 (off / 0x1000) (off % 0x1000 + 4) = false) (hs : shadowOf s req = some x) (hx : x.off = off) :
    read32 req (off + 4) s = (x.high.toNat, s) := by
  have hword : (off + 4) % 0x1000 = off % 0x1000 + 4 := by omega
  simp only [read32, hpage, hword, if_neg (Nat.not_le.mpr hoff), hr, hpp, hhigh, hs, hx, Nat.add_sub_cancel, hlow, Bool.not_true,
    Bool.false_eq_true, if_false, if_true, Nat.le_add_left, and_self]

/-- LOW_WORD_READ puts out what an aligned 32-bit read returns. -/
theorem execLowWordRead_eq {off : Nat} (req : Nat) (s : State) (h4 : off % 4 = 0) :
    execLowWordRead req off s = .next (emit (.readData req off (read32 req off s).1) (read32 req off s).2) :=
  if_neg (not_not_intro h4)

end Sys2Proof.Machine
end

section
/-! PROOFS. The statements on misaligned register accesses and on counters read in two halves. -/

namespace Sys2Proof.Machine

/-- Settles O2: each clause is one of the cases in which an access is no aligned word. -/
theorem misalignedRegisterAccess : Obligations.MisalignedRegisterAccess := by
  unfold Obligations.MisalignedRegisterAccess
  refine ⟨fun s req off data wide h => congrArg Host.Outcome.next (regWrite_misaligned req data s h),
    fun s req off bytes h0 h4 => congrArg Host.Outcome.next (badRegAccess_write req s (by omega)),
    fun s req off bytes h0 h4 hw => ⟨_, congrArg Host.Outcome.next (badRegAccess_narrowRead req s h0 h4 hw), rfl, rfl⟩,
    fun s req off bytes h0 hw hal => congrArg Host.Outcome.next (badRegAccess_otherRead req s ?_ ?_)⟩
  · rintro (h | ⟨hb, h⟩)
    · omega
    · exact hal hb h
  · rintro ⟨h4, h⟩
    exact absurd (hw h4) (by omega)

/-- Settles O4: the low word's read leaves the high word of its moment in the requester's shadow, from which the high word's
read answers. -/
theorem counterReadIsWhole : Obligations.CounterReadIsWhole := by
  unfold Obligations.CounterReadIsWhole
  intro s u req off h4 hoff hpage hlow hhigh hrs hru hps hpu
  have hread := read32_counterLow (by omega) hrs hps hlow
  refine ⟨_, execLowWordRead_eq req s h4, ?_, fun hsh => ⟨_, execLowWordRead_eq req u (by omega), ?_⟩⟩
  · rw [hread]
    rfl
  · rw [hread] at hsh
    have hkept : shadowOf u req = some (counterShadow s req off) := hsh.trans (slook_sadd_same _ _ _)
    rw [read32_counterHigh hoff hpage hru hpu hlow hhigh hkept rfl]
    rfl

end Sys2Proof.Machine
end

section
/-! SUPPORT. Snapshots (02_register_pages.md R93 to R99): which stored words a latch of every page leaves as they were, what a
trigger taken leaves in the snapshot unit's registers, and what a release leaves there. -/

namespace Sys2Proof.Machine

/-! ### What a fold leaves as it was -/

/-- What every step of a fold leaves as it was, the fold leaves as it was. -/
theorem foldl_keeps {α β : Type} (g : State → β) {f : State → α → State} (hf : ∀ t x, g (f t x) = g t) (l : List α) (s : State) :
    g (l.foldl f s) = g s := by
  induction l generalizing s with
  | nil => rfl
  | cons x l ih => exact (ih _).trans (hf s x)

/-- Items put out one after another change the output alone. -/
theorem foldl_emit {α : Type} (f : α → Out) (l : List α) (s : State) :
    l.foldl (fun t x => emit (f x) t) s = { s with out := (l.map f).reverse ++ s.out } := by
  induction l generalizing s with
  | nil => rfl
  | cons x l ih => exact (ih (emit (f x) s)).trans (by simp [emit])

/-- Two states with the same stored registers read alike. -/
theorem rd_congr {t s : State} (h : t.regs = s.regs) (q x : Nat) : rd t q x = rd s q x :=
  congrArg (fun m => sget regReset m (regKey 0 q x)) h

theorem rd_tickFree (n : Nat) (s : State) (q x : Nat) : rd (tickFree n s) q x = rd s q x := rd_congr rfl q x

/-! ### Words that events and latches leave alone -/

/-- No rising event and no page's latch writes the word: it is no EVT_STAT, lies outside the SNAP window (R98), and is none of
the INTR page's own registers. -/
abbrev Unlatched (q x : Nat) : Prop := x < 0x1000 ∧ x ≠ 0x10 ∧ (x < 0x80 ∨ 0x100 ≤ x) ∧ (q = pIntr → x < 0x100)

theorem rd_wr64_off {p q o x : Nat} (v : Nat) (s : State) (ho : o + 4 < 0x1000) (hx : x < 0x1000) (h : x ≠ o) (h4 : x ≠ o + 4) :
    rd (wr64 p o v s) q x = rd s q x :=
  (rd_wr_off _ _ ho hx h4).trans (rd_wr_off s _ (by omega) hx h)

/-- What happens while an event rises leaves such a word as it was. -/
theorem evtClosed_unlatched {q x : Nat} (h : Unlatched q x) : EvtClosed fun t s => rd t q x = rd s q x := by
  obtain ⟨hx, h10, -, hintr⟩ := h
  refine ⟨fun _ => rfl, fun h k => h.trans k, fun p b s => rd_wr_off s _ (by decide) hx h10, fun o v s ho => ?_, fun _ _ => rfl,
    fun _ => rfl⟩
  by_cases hq : q = pIntr
  · have := hintr hq
    exact rd_wr64_off v s (by omega) hx (by omega) (by omega)
  · exact (rd_wr_page _ _ (by omega) hx hq).trans (rd_wr_page s _ (by omega) hx hq)

theorem rd_raiseEvt_unlatched {q x : Nat} (h : Unlatched q x) (p : Nat) (b : Word) (s : State) :
    rd (raiseEvt p b s) q x = rd s q x :=
  ((evtClosed_unlatched h).raiseEvt p b s).trans (rd_wr_off s _ (by decide) h.1 h.2.1)

/-- The 32 words of a SNAP window are all that a write of it changes. -/
theorem rd_wrWords_window {q x : Nat} (h : Unlatched q x) (p : Nat) {l : List Word} (hl : l.length = 32) (s : State) :
    rd (wrWords p 0x80 l s) q x = rd s q x := by
  obtain ⟨hx, -, hwin, -⟩ := h
  exact rd_wrWords_out p 0x80 l s (by omega) hx (by omega)

theorem ite_eq_then_or_else {α : Type} (c : Prop) [Decidable c] (a b : α) :
    (if c then a else b) = a ∨ (if c then a else b) = b := by
  by_cases h : c
  · exact .inl (if_pos h)
  · exact .inr (if_neg h)

/-- A present page's latch fills the 32 words of its SNAP window and, on a member page, then raises SNAP (R96, R98, R101). -/
theorem latchPage_eq (ts seq src origin : Nat) {s : State} {p : Nat} (hp : pagePresent s p = true) :
    ∃ l : List Word, l.length = 32 ∧ (latchPage ts seq src origin s p = raiseEvt p (oneBit 29) (wrWords p 0x80 l s)
      ∨ latchPage ts seq src origin s p = wrWords p 0x80 l s) := by
  rw [latchPage, if_neg (by simp [hp])]
  refine ⟨_, ?_, ite_eq_then_or_else _ _ _⟩
  simp only [List.length_cons, List.length_append, List.length_replicate, List.length_take]
  omega

theorem rd_latchPage {q x : Nat} (h : Unlatched q x) (ts seq src origin : Nat) (s : State) (p : Nat) :
    rd (latchPage ts seq src origin s p) q x = rd s q x := by
  cases hp : pagePresent s p
  case false => rw [latchPage, if_pos (by simp [hp])]
  case true =>
    obtain ⟨l, hl, e | e⟩ := latchPage_eq ts seq src origin hp
    · rw [e, rd_raiseEvt_unlatched h, rd_wrWords_window h p hl]
    · rw [e, rd_wrWords_window h p hl]

/-! ### Every page latches -/

/-- Latching every page leaves every other word as it was but SNAP_STAT and SNAP_LAST_TS. -/
theorem rd_latchAll {q x : Nat} (h : Unlatched q x) (hs : x ≠ 0x10C ∧ x ≠ 0x120 ∧ x ≠ 0x124) (seq src origin : Nat) (s : State) :
    rd (latchAll seq src origin s) q x = rd s q x := by
  obtain ⟨hstat, hlo, hhi⟩ := hs
  exact (rd_wr64_off _ _ (by decide) h.1 hlo hhi).trans ((rd_wr_off _ _ (by decide) h.1 hstat).trans
    (foldl_keeps (rd · q x) (rd_latchPage h s.now seq src origin) _ s))

/-- SNAP_STAT after a latch: LATCHED and the sources (R94). -/
theorem rd_latchAll_stat (seq src origin : Nat) (s : State) :
    rd (latchAll seq src origin s) pSnap 0x10C = BitVec.ofNat 32 (2 + 0x100 * (src % 16)) :=
  (rd_wr64_off _ _ (by decide) (by decide) (by decide) (by decide)).trans (rd_wr_same _ _ _ _)

/-! ### A trigger of this device -/

/-- The number SNAP_SEQ takes with the next trigger (R94). -/
def nextSnapSeq (s : State) : Nat := (fld (rd s pSnap 0x110) 15 0 + 1) % 0x10000

/-- A trigger that is taken leaves the registers as the latch of every page under its number does. -/
theorem snapTrigger_regs (src : Nat) {s : State} (h : (snapLatched s && !bitOf (rd s pSnap 0x100) 3) = false) :
    (snapTrigger src s).regs
      = (latchAll (nextSnapSeq s) src (nodeId s) (wr pSnap 0x110 (BitVec.ofNat 32 (nextSnapSeq s)) s)).regs := by
  rw [snapTrigger, if_neg (by simp [h])]
  simp only
  split
  · rw [foldl_emit]
    rfl
  · rfl

/-- A trigger that finds the unit LATCHED without OVERWRITE is only counted (R97). -/
theorem snapTrigger_missed (src : Nat) {s : State} (hl : snapLatched s = true) (ho : bitOf (rd s pSnap 0x100) 3 = false) :
    snapTrigger src s = satInc pSnap 0x114 1 s := by
  rw [snapTrigger, if_pos (by simp [hl, ho])]

theorem fld_ofNat_low (n : Nat) (h : n < 0x10000) : fld (BitVec.ofNat 32 n) 15 0 = n := by
  simp only [fld, BitVec.toNat_ofNat]
  omega

/-- SNAP_SEQ, SNAP_STAT and SNAP_MISSED after a trigger that is taken (R94, R97). -/
theorem rd_snapTrigger_taken (src : Nat) {s : State} (h : (snapLatched s && !bitOf (rd s pSnap 0x100) 3) = false) :
    fld (rd (snapTrigger src s) pSnap 0x110) 15 0 = nextSnapSeq s
      ∧ rd (snapTrigger src s) pSnap 0x10C = BitVec.ofNat 32 (2 + 0x100 * (src % 16))
      ∧ rd (snapTrigger src s) pSnap 0x114 = rd s pSnap 0x114 := by
  have hrd (x : Nat) : rd (snapTrigger src s) pSnap x
      = rd (latchAll (nextSnapSeq s) src (nodeId s) (wr pSnap 0x110 (BitVec.ofNat 32 (nextSnapSeq s)) s)) pSnap x :=
    rd_congr (snapTrigger_regs src h) pSnap x
  refine ⟨?_, (hrd _).trans (rd_latchAll_stat _ _ _ _), ?_⟩
  · rw [hrd, rd_latchAll (by decide) (by decide), rd_wr_same]
    exact fld_ofNat_low _ (Nat.mod_lt _ (by decide))
  · rw [hrd, rd_latchAll (by decide) (by decide), rd_wr_off s _ (by decide) (by decide) (by decide)]

/-! ### SNAP_RELEASE and the pin -/

/-- The bits of SNAP_STAT as a release writes it. -/
theorem releasedStat_fields {n : Nat} (h : n < 256) :
    bitOf (BitVec.ofNat 32 (1 + 0x100 * n)) 1 = false ∧ bitOf (BitVec.ofNat 32 (1 + 0x100 * n)) 0 = true
      ∧ fld (BitVec.ofNat 32 (1 + 0x100 * n)) 15 8 = n := by
  simp only [bitOf, fld, BitVec.toNat_ofNat, beq_eq_false_iff_ne, beq_iff_eq]
  omega

/-- A release of a latched unit leaves SNAP_STAT with ARMED and the sources it had; SNAP_SEQ stays (R97). -/
theorem rd_snapRelease {s : State} (h : snapLatched s = true) :
    rd (snapRelease s) pSnap 0x10C = BitVec.ofNat 32 (1 + 0x100 * fld (rd s pSnap 0x10C) 15 8)
      ∧ rd (snapRelease s) pSnap 0x110 = rd s pSnap 0x110 := by
  rw [snapRelease, if_neg (by simp [h])]
  simp only [rd_tickFree]
  refine ⟨rd_wr_same _ _ _ _, (rd_wr_off _ _ (by decide) (by decide) (by decide)).trans ?_⟩
  refine foldl_keeps (rd · pSnap 0x110) (fun t e => ?_) _ s
  exact rd_wrWords_window (by decide) e.1 ((List.length_map _).trans List.length_range) t

/-- After a release the unit is armed and no longer latched, and its sources and SNAP_SEQ are as they were (R94, R97). -/
theorem snapRelease_armed {s : State} (h : snapLatched s = true) :
    snapLatched (snapRelease s) = false ∧ bitOf (rd (snapRelease s) pSnap 0x10C) 0 = true
      ∧ fld (rd (snapRelease s) pSnap 0x10C) 15 8 = fld (rd s pSnap 0x10C) 15 8
      ∧ rd (snapRelease s) pSnap 0x110 = rd s pSnap 0x110 := by
  obtain ⟨hstat, hseq⟩ := rd_snapRelease h
  rw [snapLatched, hstat]
  obtain ⟨hlatched, harmed, hsources⟩ := releasedStat_fields (n := fld (rd s pSnap 0x10C) 15 8) (Nat.mod_lt _ (by decide))
  exact ⟨hlatched, harmed, hsources, hseq⟩

/-- An edge of the pin within 100 µs of the last accepted one is only counted (R840). -/
theorem snapPin_early {s : State} {at' : Nat} (hp : s.snap.lastPin = some at') (hn : s.now < at' + 100000) :
    snapPin s = satInc pSnap 0x118 1 s := by
  simp only [snapPin, hp, if_pos hn]

/-- An edge of the pin after that is accepted and, under PIN_EN, acts as a trigger of source PIN (R93, R840). -/
theorem snapPin_accepted {s : State} (hp : ∀ at', s.snap.lastPin = some at' → at' + 100000 ≤ s.now)
    (he : bitOf (rd s pSnap 0x100) 0 = true) :
    snapPin s = snapTrigger 1 { s with snap := { s.snap with lastPin := some s.now } } := by
  unfold snapPin
  split
  case h_1 at' h => rw [if_neg (Nat.not_lt.mpr (hp at' h))]; exact if_pos he
  case h_2 => exact if_pos he

/-! ### A trigger from the fabric -/

/-- A fabric trigger seen before is dropped (R99). -/
theorem fabSnap_seen (k : Nat) {o q : Nat} {s : State} (h : s.snap.seen.contains (o, q) = true) : fabSnap k o q s = s :=
  if_pos (.inr h)

/-- In HOLD a fabric trigger waits for resumption (R575). -/
theorem fabSnap_held (k : Nat) {o q : Nat} {s : State} (he : bitOf (rd s pSnap 0x100) 1 = true)
    (h : s.snap.seen.contains (o, q) = false) (hs : s.inHold = true) :
    fabSnap k o q s = { s with snap := { s.snap with waiting := s.snap.waiting ++ [(k, o, q)] } } := by
  rw [fabSnap, if_neg (by rw [he, h]; decide), if_pos hs]

/-- The state in which a fabric trigger is among those seen. -/
def seenTrigger (o q : Nat) (s : State) : State := { s with snap := { s.snap with seen := ((o, q) :: s.snap.seen).take 16 } }

/-- The state in which a trigger that arrived on port `k` has been put out on the other ports in UP (R99). -/
def forwardTrigger (k o q : Nat) (u : State) : State :=
  { u with out := (((List.range 48).filter fun j => j != k && portLState u j == 6).map fun j => Out.snapTrig j o q).reverse ++ u.out }

theorem forwardTrigger_snap (k o q : Nat) (u : State) : (forwardTrigger k o q u).snap = u.snap := rfl
theorem forwardTrigger_mem (k o q : Nat) (u : State) : (forwardTrigger k o q u).mem = u.mem := rfl
theorem rd_forwardTrigger (k o q : Nat) (u : State) (p x : Nat) : rd (forwardTrigger k o q u) p x = rd u p x := rd_congr rfl p x

theorem mem_forwardTrigger {k j : Nat} (o q : Nat) {u : State} (hj : j < 48) (hk : j ≠ k) (hup : portLState u j = 6) :
    Out.snapTrig j o q ∈ (forwardTrigger k o q u).out := by
  simp [forwardTrigger, hj, hk, hup]

/-- A new fabric trigger outside HOLD, while the unit takes triggers: every page latches, and the trigger goes out on the other
ports in UP (R99). -/
theorem fabSnap_taken (k : Nat) {o q : Nat} {s : State} (he : bitOf (rd s pSnap 0x100) 1 = true)
    (h : s.snap.seen.contains (o, q) = false) (hs : s.inHold = false) (hl : (snapLatched s && !bitOf (rd s pSnap 0x100) 3) = false) :
    fabSnap k o q s = forwardTrigger k o q (latchAll q 8 o (seenTrigger o q s)) := by
  have hl' : ¬(snapLatched (seenTrigger o q s) && !bitOf (rd (seenTrigger o q s) pSnap 0x100) 3) = true :=
    Bool.not_eq_true _ ▸ hl
  rw [fabSnap, if_neg (by rw [he, h]; decide), if_neg (by simp [hs])]
  refine (foldl_emit _ _ _).trans ?_
  rw [← seenTrigger, if_neg hl', forwardTrigger]

/-- Latching leaves the link states as they were. -/
theorem portLState_latchAll (seq src origin : Nat) (s : State) {j : Nat} (hj : j < 48) :
    portLState (latchAll seq src origin s) j = portLState s j := by
  have hp : pPort j ≠ pIntr := by
    unfold pPort pIntr pageOf
    omega
  exact congrArg (fld · 3 0) (rd_latchAll ⟨by decide, by decide, by decide, fun e => absurd e hp⟩ (by decide) _ _ _ _)

end Sys2Proof.Machine
end

section
/-! PROOFS. The statement on triggers of a snapshot by register, pin and fabric. -/

namespace Sys2Proof.Machine

/-- Settles O9: each trigger from what it leaves when it is taken, counted, dropped or held. -/
theorem snapshotTriggers : Obligations.SnapshotTriggers := by
  unfold Obligations.SnapshotTriggers
  refine ⟨fun s hl => ?_, fun s hl ho => congrArg Host.Outcome.next (snapTrigger_missed 2 hl ho), fun s hl => ?_,
    fun s at' hup hp hn => ?_, fun s hup hp he => ?_,
    fun s k o q _ h => congrArg Host.Outcome.next (fabSnap_seen k h),
    fun s k o q he h hs => congrArg Host.Outcome.next (fabSnap_held k he h hs), fun s k o q he h hs hl => ?_⟩
  · obtain ⟨hseq, hstat, hmissed⟩ := rd_snapTrigger_taken 2 hl
    exact ⟨_, rfl, hseq, hstat, hmissed, (recorded_snapTrigger 2 s).mem, (recorded_snapTrigger 2 s).units⟩
  · exact ⟨_, rfl, snapRelease_armed hl⟩
  · exact congrArg Host.Outcome.next ((if_pos hup).trans (snapPin_early hp hn))
  · exact congrArg Host.Outcome.next ((if_pos hup).trans (snapPin_accepted hp he))
  · have hquiet := quiet_latchAll q 8 o (seenTrigger o q s)
    exact ⟨_, congrArg Host.Outcome.next (fabSnap_taken k he h hs hl), (rd_forwardTrigger _ _ _ _ _ _).trans (rd_latchAll_stat _ _ _ _),
      congrArg SnapSt.seen ((forwardTrigger_snap _ _ _ _).trans hquiet.snap), (forwardTrigger_mem _ _ _ _).trans hquiet.mem,
      fun j hj hjk hup => mem_forwardTrigger o q hj hjk ((portLState_latchAll q 8 o _ hj).trans hup)⟩

end Sys2Proof.Machine
end

section
/-! SUPPORT. Units that finish and fault (02_register_pages.md R75, R76, R79, R84 to R86; 03_tiles.md R116, R124): the error
record of a unit's first fault, what it shows after any later capture, and the ways a unit's command takes effect. -/

namespace Sys2Proof.Machine

/-! ### The first word of an error record -/

/-- VALID, CLASS and DETAIL lie outside the COUNT field of ERR_CODE (R84). -/
theorem setFld_count (w : Word) (n : Nat) :
    bitOf (setFld w 30 24 n) 31 = bitOf w 31 ∧ fld (setFld w 30 24 n) 15 8 = fld w 15 8 ∧ fld (setFld w 30 24 n) 7 0 = fld w 7 0 := by
  have hw := w.isLt
  simp only [bitOf, fld, setFld, BitVec.toNat_ofNat, Bool.beq_eq_decide_eq, decide_eq_decide]
  omega

/-- ERR_CODE of a new record is VALID and carries the error's class and detail (R84). -/
theorem errCodeWord_fields (e : ErrRec) :
    bitOf (errCodeWord e 1) 31 = true ∧ fld (errCodeWord e 1) 15 8 = e.cls % 256 ∧ fld (errCodeWord e 1) 7 0 = e.detail % 256 := by
  simp only [bitOf, fld, errCodeWord, BitVec.toNat_ofNat, beq_iff_eq]
  omega

/-- What the record of page `p` showed when VALID it still shows: VALID, CLASS and DETAIL stand until the record is cleared (R85). -/
def KeepsRecord (p : Nat) (t s : State) : Prop :=
  bitOf (rd s p 0x20) 31 = true → bitOf (rd t p 0x20) 31 = true ∧ fld (rd t p 0x20) 15 8 = fld (rd s p 0x20) 15 8
    ∧ fld (rd t p 0x20) 7 0 = fld (rd s p 0x20) 7 0

namespace KeepsRecord

variable {p : Nat} {t u s : State}

theorem of_eq (h : rd t p 0x20 = rd s p 0x20) : KeepsRecord p t s := fun hv => by
  rw [h]
  exact ⟨hv, rfl, rfl⟩

theorem trans (h : KeepsRecord p t u) (k : KeepsRecord p u s) : KeepsRecord p t s := fun hv => by
  obtain ⟨hu, hucls, hudt⟩ := k hv
  obtain ⟨ht, htcls, htdt⟩ := h hu
  exact ⟨ht, htcls.trans hucls, htdt.trans hudt⟩

/-- A step that is taken or left out. -/
theorem ite {c : Prop} [Decidable c] (h : KeepsRecord p t u) (k : KeepsRecord p u s) : KeepsRecord p (if c then t else u) s := by
  split
  · exact h.trans k
  · exact k

theorem foldl {α : Type} {f : State → α → State} (hf : ∀ t x, KeepsRecord p (f t x) t) (l : List α) (s : State) :
    KeepsRecord p (l.foldl f s) s := by
  induction l generalizing s with
  | nil => exact .of_eq rfl
  | cons x l ih => exact (ih _).trans (hf s x)

end KeepsRecord

theorem keepsRecord_event (p q n : Nat) (s : State) : KeepsRecord p (event q n s) s :=
  .of_eq (rd_raiseEvt_unlatched ⟨by decide, by decide, by decide, fun _ => by decide⟩ _ _ s)

/-- Words written to one page leave every other page's as they were. -/
theorem rd_wrWords_page {p q x : Nat} (h : q ≠ p) (hx : x < 0x1000) (o : Nat) (l : List Word) (s : State) (hl : o + 4 * l.length ≤ 0x1000) :
    rd (wrWords p o l s) q x = rd s q x := by
  induction l generalizing o s with
  | nil => rfl
  | cons w l ih =>
    rw [List.length_cons] at hl
    exact (ih (o + 4) _ (by omega)).trans (rd_wr_page s w (by omega) hx h)

/-- A capture counts in the record of its own page while that is VALID, and writes no other page (R85). -/
theorem keepsRecord_capture1 (p g : Nat) (e : ErrRec) (s : State) : KeepsRecord p (capture1 g e s) s := fun hv => by
  by_cases hg : p = g
  · subst hg
    rw [capture1, if_pos hv, rd_wr_same]
    obtain ⟨hvalid, hcls, hdt⟩ := setFld_count (rd s p 0x20) (min (fld (rd s p 0x20) 30 24 + 1) 127)
    exact ⟨hvalid.trans hv, hcls, hdt⟩
  · refine KeepsRecord.of_eq ?_ hv
    unfold capture1
    simp only
    split
    · exact rd_wr_page s _ (by decide) (by decide) hg
    · exact rd_wrWords_page hg (by decide) _ _ s (by simp [errWords])

/-- A capture on a page whose record is not VALID writes a new one there (R85). -/
theorem rd_capture1_new {p : Nat} (e : ErrRec) {s : State} (h : bitOf (rd s p 0x20) 31 = false) :
    rd (capture1 p e s) p 0x20 = errCodeWord e 1 := by
  rw [capture1, if_neg (by simp [h])]
  exact rd_wrWords_at p 0x20 (errWords e s.now) s (by simp [errWords]) (i := 0) (by simp [errWords])

/-- A snapshot trigger leaves the words below the SNAP windows as they were, but for EVT_STAT. -/
theorem rd_snapTrigger_header {q x : Nat} (hx : x < 0x80) (h10 : x ≠ 0x10) (src : Nat) (s : State) :
    rd (snapTrigger src s) q x = rd s q x := by
  cases h : (snapLatched s && !bitOf (rd s pSnap 0x100) 3)
  case true =>
    rw [snapTrigger, if_pos h]
    exact rd_wr_off s _ (by decide) (by omega) (by omega)
  case false =>
    rw [rd_congr (snapTrigger_regs src h), rd_latchAll ⟨by omega, h10, .inl hx, fun _ => by omega⟩ (by omega)]
    exact rd_wr_off s _ (by decide) (by omega) (by omega)

/-- Nothing that follows the capture on the unit's own page changes what its record shows: the event, the captures of its groups
and the snapshot (R84 to R87, R93). -/
theorem keepsRecord_captureErr (p : Nat) (e : ErrRec) (s : State) : KeepsRecord p (captureErr p e s) (capture1 p e s) := by
  unfold captureErr
  exact .ite (.of_eq (rd_snapTrigger_header (by decide) (by decide) 4 _)) (.ite (.foldl (fun t g => keepsRecord_capture1 p g e t) _ _)
    (.ite (keepsRecord_event p p 31 _) (.ite (.of_eq (rd_congr rfl _ _)) (.of_eq rfl))))

/-- After a unit captures an error its record is VALID, with the error's class and detail if it was not VALID before (R84, R85). -/
theorem captureErr_record (p : Nat) (e : ErrRec) (s : State) :
    bitOf (rd (captureErr p e s) p 0x20) 31 = true ∧ (bitOf (rd s p 0x20) 31 = false →
      fld (rd (captureErr p e s) p 0x20) 15 8 = e.cls % 256 ∧ fld (rd (captureErr p e s) p 0x20) 7 0 = e.detail % 256) := by
  cases h : bitOf (rd s p 0x20) 31
  case true =>
    obtain ⟨hvalid, -, -⟩ := (keepsRecord_captureErr p e s).trans (keepsRecord_capture1 p p e s) h
    exact ⟨hvalid, nofun⟩
  case false =>
    have hnew := rd_capture1_new e h
    obtain ⟨hv, hcls, hdt⟩ := errCodeWord_fields e
    obtain ⟨hvalid, kcls, kdt⟩ := keepsRecord_captureErr p e s (hnew ▸ hv)
    rw [hnew] at kcls kdt
    exact ⟨hvalid, fun _ => ⟨kcls.trans hcls, kdt.trans hdt⟩⟩

/-- A change of a unit's state leaves the error records as they were (R79). -/
theorem rd_setUState_record (p q : Nat) (st : UState) (byCtrl : Bool) (s : State) :
    rd (setUState q st byCtrl s) p 0x20 = rd s p 0x20 := by
  unfold setUState
  split
  · rfl
  · simp only
    split
    · rfl
    · exact rd_raiseEvt_unlatched ⟨by decide, by decide, by decide, fun _ => by decide⟩ _ _ _

/-- The record of a unit's internal fault carries the fault's class and detail (R672). -/
theorem faultRec_fields (s : State) (p cls dt : Nat) : (faultRec s p cls dt).cls = cls ∧ (faultRec s p cls dt).detail = dt := by
  unfold faultRec
  split <;> exact ⟨rfl, rfl⟩

/-! ### Accepted work finishes -/

/-- With no commit in progress nothing follows a unit that goes OFF. -/
theorem commitFollow_idle {s : State} (h : s.prot.phase ≠ .committing) : commitFollow s = s :=
  if_pos h

/-- A leaf that drains with ENABLE 0 and holds no accepted work goes OFF; a port follows its unit (R76, R543). -/
theorem workFinished_drained {s : State} {p : Nat} (hs : s.inHold = false) (hl : isLeaf p = true)
    (hd : (unitSt s p).state = .draining) (he : (unitSt s p).enable = false) (hb : leafBusy s p = false) :
    workFinished p s = commitFollow (if pageKind p = some .port then
      portFollow (6 * pageDie p + (pageUnit p - 36)) (setUState p .off false s) else setUState p .off false s) := by
  simp [workFinished, hs, hl, hd, he, hb]

/-- While a leaf holds accepted work ACCEPTED_WORK_FINISHED has no occasion. -/
theorem workFinished_busy {s : State} {p : Nat} (hb : leafBusy s p = true) : workFinished p s = s := by
  simp [workFinished, hb]

/-! ### An internal fault -/

section
variable {s : State} {p : Nat} {k : PageKind} (hl : isLeaf p = true) (hk : pageKind p = some k) (hh : k.honoursCtrl = true)
  (hc : counted s p = true) (cls dt : Nat)
include hl hk hh hc

/-- A counted leaf that was not FAULTED captures the record, enters FAULTED, and its kind's recovery follows (R76, R672). -/
theorem unitFault_now (hs : s.inHold = false) (hf : (unitSt s p).state ≠ .faulted) :
    unitFault p cls dt s = afterFault p (unitSlices s p) (setUState p .faulted false (captureErr p (faultRec s p cls dt) s)) := by
  simp [unitFault, hl, hk, hh, hc, hs, hf]

/-- In HOLD the fault is kept for resumption (R757). -/
theorem unitFault_hold (hs : s.inHold = true) : unitFault p cls dt s
    = { s with power := { s.power with hold := { s.power.hold with faults := s.power.hold.faults ++ [(p, cls, dt)] } } } := by
  simp [unitFault, hl, hk, hh, hc, hs]

end

/-! ### Held loads -/

/-- The oldest request that lost its bank is served, and its load ends once nothing of it is left (R116). -/
theorem bankReplay_load {s s1 : State} {d u core : Nat} {r : Replay} {rest : List Replay} {gr : Group} {pl : PendLoad}
    (hq : takeFirst (fun r : Replay => r.overlap.isNone) (replaysOf (tileSt s d u) core) = some (r, rest))
    (h1 : s1 = addProg (pVC d u core) 4 1 (setReplays d u core rest s)) (hg : groupOf (tileSt s1 d u) r.slot = some gr)
    (hp : gr.load = some pl) : bankReplay d u core s = loadCheck d u r.slot (countLoadRows d u pl [(r.tile, r.row)]
      (setGroup d u r.slot { gr with load := some (serveRow d r.tile r.row gr s1 pl) } s1)) := by
  subst h1
  simp only [bankReplay, hq, hg, hp]

/-- A load held for an overlap is performed again once no entry of the store buffer holds a byte of it (R124). -/
theorem overlapReplay_clear {s : State} {d u core slot : Nat} {r : Replay} {rest : List Replay} {ins : LoadIns} {k : Task}
    {gr : Group} (hq : takeFirst (fun r : Replay => r.slot == slot && r.overlap.isSome) (replaysOf (tileSt s d u) core) = some (r, rest))
    (ho : r.overlap = some ins) (hk : (tileSt s d u).task = some k) (hg : groupOf (tileSt s d u) slot = some gr)
    (hb : ∀ ks ∈ allKeys ins.bytes (accesses s ⟨d, u, slot⟩ k gr ins.space ins.addr .read ins.bytes),
      sbCheck (sbOf (tileSt s d u) core) ks = .none) :
    overlapReplay d u core slot s = loadIssue ⟨d, u, slot⟩ ins k { gr with wait := .ready }
      (setGroup d u slot { gr with wait := .ready } (setReplays d u core rest s)) := by
  have hclear : ¬((allKeys ins.bytes (accesses s ⟨d, u, slot⟩ k gr ins.space ins.addr .read ins.bytes)).any fun ks =>
      sbCheck (sbOf (tileSt s d u) core) ks ≠ .none) = true := by
    simpa using hb
  simp only [overlapReplay, hq, ho, hk, hg, if_neg hclear]

end Sys2Proof.Machine
end

section
/-! PROOFS. The statement on units that finish or fault and on held loads. -/

namespace Sys2Proof.Machine

/-- Settles O34: the unit's own change by what a drained leaf and a faulting leaf do, the record from what a capture leaves in it,
and the replays from what each serves. -/
theorem unitsFinishAndFault : Obligations.UnitsFinishAndFault := by
  unfold Obligations.UnitsFinishAndFault
  refine ⟨fun s p hs hl hd he hb hk hc => ?_, fun s p hs hl hd he hb hk => ?_,
    fun s p hb => congrArg Host.Outcome.next (workFinished_busy hb), fun s p cls dt k hl hk hh hc hs hf => ?_,
    fun s p cls dt k hl hk hh hc hs =>
      ⟨_, congrArg Host.Outcome.next (unitFault_hold hl hk hh hc cls dt hs), rfl, rfl, rfl⟩,
    fun s d u core r rest gr pl s1 hs hq h1 hg hp => ?_, fun s d u core slot r rest ins k gr hs hq ho hk hg hb => ?_⟩
  · have hoff : workFinished p s = setUState p .off false s := by
      rw [workFinished_drained hs hl hd he hb, if_neg hk, commitFollow_idle (by rwa [setUState_prot])]
    exact ⟨_, congrArg Host.Outcome.next hoff, congrArg UnitSt.state (unitSt_setUState p .off false s),
      fun q hq => unitSt_setUState_ne .off false s hq, setUState_mem p .off false s⟩
  · refine congrArg Host.Outcome.next ((workFinished_drained hs hl hd he hb).trans ?_)
    rw [if_pos hk]
  · obtain ⟨hvalid, hnew⟩ := captureErr_record p (faultRec s p cls dt) s
    obtain ⟨hcls, hdt⟩ := faultRec_fields s p cls dt
    refine ⟨_, rfl, congrArg Host.Outcome.next (unitFault_now hl hk hh hc cls dt hs hf),
      congrArg UnitSt.state (unitSt_setUState p .faulted false _), ?_⟩
    rw [hcls, hdt] at hnew
    rw [rd_setUState_record]
    exact ⟨hvalid, hnew⟩
  · exact congrArg Host.Outcome.next ((if_neg (by simp [hs])).trans (bankReplay_load hq h1 hg hp))
  · exact congrArg Host.Outcome.next ((if_neg (by simp [hs])).trans (overlapReplay_clear hq ho hk hg hb))

end Sys2Proof.Machine
end

section
/-! SUPPORT. The batch steward (06_sequences.md R261 to R294): its own storage and the end of a command leave the pools' records
alone, and what a STEP, its release and a PAGES command do once they are taken. -/

namespace Sys2Proof.Machine

/-! ### Coherent accesses of the device's own units leave the steward alone (R299, R324) -/

@[simp] theorem setHome_steward (seg line : Nat) (h : HomeLine) (s : State) : (setHome seg line h s).steward = s.steward := rfl

@[simp] theorem logPoison_steward (seg line : Nat) (sectors : List Nat) (detail agent : Nat) (s : State) :
    (logPoison seg line sectors detail agent s).steward = s.steward := by
  unfold logPoison
  split
  · rfl
  · simp

@[simp] theorem countAccess_steward (pa : Nat) (s : State) : (countAccess pa s).steward = s.steward := by
  unfold countAccess
  simp only
  repeat' split
  all_goals rfl

@[simp] theorem fetchInto_steward (seg line : Nat) (sectors : List Nat) (s : State) :
    (fetchInto seg line sectors s).steward = s.steward := by
  unfold fetchInto
  simp only
  split
  · rfl
  · simp

@[simp] theorem hostGiveUp_steward (line : Nat) (s : State) : (hostGiveUp line s).steward = s.steward := by
  unfold hostGiveUp
  split
  · simp
  · rfl

@[simp] theorem recallLine_steward (seg line : Nat) (s : State) : (recallLine seg line s).steward = s.steward := by
  unfold recallLine
  simp only [setHome_steward, hostGiveUp_steward]
  split
  · exact logPoison_steward seg line _ _ _ _
  · rfl

@[simp] theorem countServed_steward (seg n : Nat) (s : State) : (countServed seg n s).steward = s.steward := by
  simp [countServed]

theorem cohWriteLine_steward (il : Bool) (slice : Option Nat) (line : Nat) (cells : List Cell) (s : State) :
    (cohWriteLine il slice line cells s).steward = s.steward := by
  simp [cohWriteLine, patchNet]

@[simp] theorem cohWrite_steward (il : Bool) (slice : Option Nat) (pa : Nat) (bs : List Byte) (s : State) :
    (cohWrite il slice pa bs s).steward = s.steward := by
  unfold cohWrite
  split
  · rfl
  · exact foldl_keeps State.steward (fun t k => cohWriteLine_steward il slice _ _ t) _ s

@[simp] theorem logDirty_steward (slice pa : Nat) (s : State) : (logDirty slice pa s).steward = s.steward := by
  unfold logDirty
  simp only
  split
  · simp
  · rfl

@[simp] theorem wrTier_steward (slice pa : Nat) (bs : List Byte) (s : State) : (wrTier slice pa bs s).steward = s.steward := by
  simp [wrTier]

@[simp] theorem putSeqRec_steward (sl q : Nat) (r : SeqRec) (s : State) : (putSeqRec sl q r s).steward = s.steward :=
  wrTier_steward _ _ _ s

@[simp] theorem setLaneFree_steward (sl k n : Nat) (s : State) : (setLaneFree sl k n s).steward = s.steward :=
  wrTier_steward _ _ _ s

/-! ### The end of a command changes at most which STEPs the pools run (R268) -/

/-- The steward's tables are those before but for the STEPs that run. -/
def OnlyRunning (t s : State) : Prop := ∃ run, t.steward = { s.steward with running := run }

namespace OnlyRunning

variable {t u s : State}

theorem of_eq (h : t.steward = s.steward) : OnlyRunning t s := ⟨s.steward.running, h⟩

theorem trans (h : OnlyRunning t u) (k : OnlyRunning u s) : OnlyRunning t s := by
  obtain ⟨run, h⟩ := h
  obtain ⟨_, k⟩ := k
  exact ⟨run, by rw [h, k]⟩

theorem fallback (h : OnlyRunning t s) : t.steward.fallback = s.steward.fallback := by
  obtain ⟨_, h⟩ := h
  rw [h]

theorem active (h : OnlyRunning t s) : t.steward.active = s.steward.active := by
  obtain ⟨_, h⟩ := h
  rw [h]

theorem foldl {α : Type} {f : State → α → State} (hf : ∀ t x, OnlyRunning (f t x) t) (l : List α) (s : State) :
    OnlyRunning (l.foldl f s) s := by
  induction l generalizing s with
  | nil => exact .of_eq rfl
  | cons x l ih => exact (ih _).trans (hf s x)

end OnlyRunning

theorem onlyRunning_endRecord (c : Cmd) (st : Nat × Nat) (s : State) : OnlyRunning (endRecord c st s) s := by
  refine ⟨s.steward.running.filter fun e => decide (e.2 ≠ (c.ring, c.no)), ?_⟩
  unfold endRecord
  simp only [setRing]
  split
  · rw [event_steward]
    rfl
  · rfl

theorem onlyRunning_finishBarrier (ring : Nat) (s : State) : OnlyRunning (finishBarrier ring s) s := by
  unfold finishBarrier
  split
  case h_1 b _ =>
    simp only
    split
    · exact onlyRunning_endRecord b _ s
    · exact (OnlyRunning.of_eq (captureErr_steward _ _ _)).trans (onlyRunning_endRecord b _ s)
  case h_2 => exact .of_eq rfl

theorem onlyRunning_endCmd (ring no : Nat) (st : Nat × Nat) (s : State) : OnlyRunning (endCmd ring no st s) s := by
  unfold endCmd
  split
  case h_1 => exact .of_eq rfl
  case h_2 c _ =>
    split
    · exact .of_eq rfl
    · exact (OnlyRunning.of_eq (dispSync_steward _)).trans
        ((onlyRunning_finishBarrier ring _).trans (onlyRunning_endRecord c st s))

theorem onlyRunning_pagesDone (c : Cmd) (s : State) : OnlyRunning (pagesDone c s) s :=
  (onlyRunning_endCmd c.ring c.no (0, 0) _).trans (.of_eq (addProg_steward pPageAlloc 0 1 s))

/-- No part of DEVICE type is met, in the form in which the commands test for one. -/
theorem not_any_device {ps : List Piece} (h : ∀ p ∈ ps, p.mtype ≠ 3) : ¬(ps.any fun p => p.mtype == 3) = true := by
  simpa using h

/-! ### STEP, stage 1 (R265 to R269) -/

/-- The entries of a STEP as they stand in the translated list, and each with its sequence's record. -/
abbrev stepEntries (s : State) (ps : List Piece) (n : Nat) : List SEnt :=
  (List.range n).map fun i => sentDecode (((readPieces s ps).drop (64 * i)).take 64)

abbrev stepRecords (s : State) (ps : List Piece) (n : Nat) : List (SEnt × SeqRec) :=
  (stepEntries s ps n).map fun x => (x, seqRec s x.seq)

/-- The steward takes a waiting STEP of a pool that runs none, of a slice that is not CONTAINED (R268). -/
theorem execStep_taken {s : State} {ring seq : Nat} {c : Cmd} (hw : waitingCmd s ring seq 2 = some c) (hd : dispRuns s = true)
    (hr : slook s.steward.running c.slice = none) (hc : (sliceSt s c.slice).contained = false) :
    execStep ring seq s = .next (stepBegin c s) := by
  simp [execStep, hw, hd, hr, hc]

/-- A body with its second reserved word set is refused with detail 1, and the step number is taken (R267, R268). -/
theorem stepBegin_reserved {c : Cmd} {s : State} (h : bytesAt c.raw 76 4 ≠ 0) :
    stepBegin c s = stewardIllegal c 1 (takeStepNo c.slice (addProg pPageAlloc 0 1 s)) := by
  have hbody : nfld (bytesAt c.raw 72 4) 31 13 ≠ 0 ∨ bytesAt c.raw 76 4 ≠ 0 ∨ bytesAt c.raw 64 8 % 64 ≠ 0
      ∨ 2048 < nfld (bytesAt c.raw 72 4) 11 0 + 1 := .inr (.inl h)
  unfold stepBegin
  rw [if_pos hbody]

/-- A STEP of `n` entries that earns no detail of R267 and meets no poison goes on to its allocation phase. -/
theorem stepBegin_run {c : Cmd} {s s1 : State} {ps : List Piece} {n : Nat} (hen : poolEn s c.slice = true)
    (hpasid : c.pasid = poolPasid s c.slice) (hrsv : nfld (bytesAt c.raw 72 4) 31 13 = 0) (hrsv' : bytesAt c.raw 76 4 = 0)
    (hva : bytesAt c.raw 64 8 % 64 = 0) (hn : nfld (bytesAt c.raw 72 4) 11 0 + 1 = n) (hmax : n ≤ 2048)
    (hx : xlateRange c.ctx pDispatch c.pasid (bytesAt c.raw 64 8) (64 * n) .read s = .ok ps s1) (hmem : ∀ p ∈ ps, p.mtype ≠ 3)
    (hlist : piecesPoison s1 ps = false) (hrecs : ∀ x ∈ stepEntries s1 ps n, cohPoisonN s1 true (seqPa s1 x.seq) 64 = false)
    (hchecks : ∀ e ∈ (stepRecords s1 ps n).zipIdx,
      sentDetails s1 c.slice (((stepEntries s1 ps n).take e.2).any fun y => y.seq == e.1.1.seq) e.1.1 e.1.2 = []) :
    stepBegin c s
      = stepRun c (bytesAt c.raw 64 8) ((slook s.steward.stepNo c.slice).getD 0) (stepRecords s1 ps n) s1 := by
  have hbody : ¬(nfld (bytesAt c.raw 72 4) 31 13 ≠ 0 ∨ bytesAt c.raw 76 4 ≠ 0 ∨ bytesAt c.raw 64 8 % 64 ≠ 0 ∨ 2048 < n) := by omega
  have hpoison : ¬(piecesPoison s1 ps || (stepEntries s1 ps n).any fun x => cohPoisonN s1 true (seqPa s1 x.seq) 64) = true := by
    rw [hlist, Bool.false_or, List.any_eq_true]
    rintro ⟨x, hxs, hx⟩
    exact Bool.false_ne_true ((hrecs x hxs).symm.trans hx)
  have hdetails := List.flatMap_eq_nil_iff.mpr hchecks
  unfold stepBegin
  simp only [hn, if_neg hbody, hx, if_neg (not_any_device hmem), if_neg hpoison, hdetails, if_neg (not_not_intro hpasid), hen, if_true, List.append_nil,
    ne_eq, not_true, if_false]

/-! ### STEP_RELEASE (R269, R281) -/

/-- A STEP whose work has all ended without a failure releases its pages, and may complete. -/
theorem execStepRelease_done {s s1 : State} {ring seq : Nat} {c : Cmd} {l : List FreeOne}
    (hf : (s.disp.cmds.find? fun c => c.ring == ring && c.seq == seq && c.opc == 2 && decide (c.step ≠ []) && c.status.isNone) = some c)
    (hd : dispRuns s = true) (hfail : c.fail = none) (hu : c.unissued = false) (hb : cmdBusy s c.ring c.no = false)
    (hx : xlateReleases c c.step s = .ok l s1) :
    execStepRelease ring seq s = .next (maybeFinish c.ring c.no (updCmd c.ring c.no (fun x => { x with step := [] })
      (applyReleases c l (dropHeld pDispatch c.ring s1)))) := by
  have hready : ¬((!dispRuns s) = true ∨ c.fail.isSome = true ∨ c.unissued = true ∨ cmdBusy s c.ring c.no = true) := by
    simp [hd, hfail, hu, hb]
  simp only [execStepRelease, hf, if_neg hready, hx]

/-! ### PAGES (R286 to R290) -/

section
variable {s s1 : State} {ring seq : Nat} {c : Cmd} {ps : List Piece}

/-- GROW of legal entries that the lane has room for pushes them (R287). -/
theorem execPagesGrow_pushes (hc : pagesCmd s ring seq 0 = some c) (hb : pagesBad c = false)
    (hx : xlateRange c.ctx pDispatch c.pasid (pgBuf c) (16 + 16 * pgCount c) .read s = .ok ps s1) (hmem : ∀ p ∈ ps, p.mtype ≠ 3)
    (hen : poolEn s1 c.slice = true) (hpoison : piecesPoison s1 ps = false)
    (hcap : laneFree s1 c.slice (pgLane c) + pgCount c ≤ laneCap s1 c.slice)
    (hok : ∀ i, i < pgCount c → poolEntryOk (((readPieces s1 ps).drop (16 + 16 * i)).take 16) = true) :
    execPagesGrow ring seq s = .next (pagesDone c (addProg pPageAlloc 1 (16 * pgCount c) (lanePush c.slice (pgLane c)
      ((List.range (pgCount c)).map fun i => ((readPieces s1 ps).drop (16 + 16 * i)).take 16) (dropHeld pDispatch c.ring s1)))) := by
  have hentries : ¬(((List.range (pgCount c)).map fun i => ((readPieces s1 ps).drop (16 + 16 * i)).take 16).any
      fun b => !poolEntryOk b) = true := by
    simpa using hok
  simp only [execPagesGrow, hc, hb, hx, if_neg (not_any_device hmem), hen, hpoison, if_neg (Nat.not_lt.mpr hcap), if_neg hentries, Bool.not_true,
    Bool.false_eq_true, if_false]

/-- What TRIM writes to its buffer: the count, the buffer's own twelve bytes, then the entries popped, the last free one first
(R288). -/
def trimBytes (s : State) (c : Cmd) (ps : List Piece) (free n : Nat) : List Byte :=
  leBytes 4 n ++ ((readPieces s ps).drop 4).take 12
    ++ ((List.range n).map fun i => laneEntry s c.slice (pgLane c) (free - 1 - i)).flatMap id ++ (readPieces s ps).drop (16 + 16 * n)

theorem leBytes_length (n v : Nat) : (leBytes n v).length = n := by
  induction n generalizing v with
  | zero => rfl
  | succ n ih => rw [leBytes, List.length_cons, ih]

theorem trimBytes_count (s : State) (c : Cmd) (ps : List Piece) (free n : Nat) : (trimBytes s c ps free n).take 4 = leBytes 4 n := by
  simp only [trimBytes, List.append_assoc]
  exact List.take_left' (leBytes_length 4 n)

/-- TRIM of an enabled pool pops at most what is free (R288, R290). -/
theorem execPagesTrim_pops {n : Nat} (hc : pagesCmd s ring seq 1 = some c) (hb : pagesBad c = false)
    (hn : n = min (pgCount c) (laneFree s c.slice (pgLane c)))
    (hx : xlateRange c.ctx pDispatch c.pasid (pgBuf c) (16 + 16 * n) .write s = .ok ps s1) (hmem : ∀ p ∈ ps, p.mtype ≠ 3)
    (hen : poolEn s1 c.slice = true) :
    execPagesTrim ring seq s = .next (pagesDone c (poolEvent c.slice false (addProg pPageAlloc 1 (16 * n + 4)
      (setLaneFree c.slice (pgLane c) (laneFree s c.slice (pgLane c) - n)
        (writePieces c.slice ps (trimBytes s1 c ps (laneFree s c.slice (pgLane c)) n) (dropHeld pDispatch c.ring s1)))))) := by
  subst hn
  simp only [execPagesTrim, hc, hb, hx, if_neg (not_any_device hmem), hen, Bool.not_true, Bool.false_eq_true, if_false, trimBytes]

/-- RESET with fields that its body may not use is refused with detail 1 (R287, R289). -/
theorem execPagesReset_bad (hc : pagesCmd s ring seq 2 = some c) (hb : pagesBad c = true) :
    execPagesReset ring seq s = .next (stewardIllegal c 1 (addProg pPageAlloc 0 1 s)) := by
  simp only [execPagesReset, hc, hb, if_true]

/-- The storage of a pool after RESET: its active sequences' records cleared, its lanes empty (R289). -/
def resetStorage (sl : Nat) (s : State) : State :=
  (List.range 8).foldl (fun t k => setLaneFree sl k 0 t)
    (((List.range 16384).filter fun q => seqOwned s sl q && (seqRec s q).active).foldl
      (fun t q => putSeqRec sl q { seqRec t q with active := false } t) s)

theorem onlyRunning_resetStorage (sl : Nat) (s : State) : OnlyRunning (resetStorage sl s) s :=
  (OnlyRunning.foldl (fun t k => .of_eq (setLaneFree_steward sl k 0 t)) _ _).trans
    (OnlyRunning.foldl (fun t q => .of_eq (putSeqRec_steward sl q _ t)) _ s)

/-- The state in which the steward's tables hold nothing of a slice: neither fallback records nor active sequences (R289). -/
def forgetPool (sl : Nat) (s : State) : State :=
  { s with steward := { s.steward with
      fallback := s.steward.fallback.filter fun x => x.slice != sl
      active := s.steward.active.filter fun e => e.2 != sl } }

/-- RESET of a legal body empties the pool's storage and drops the slice from the steward's tables (R289). -/
theorem execPagesReset_empties (hc : pagesCmd s ring seq 2 = some c) (hb : pagesBad c = false) :
    execPagesReset ring seq s
      = .next (pagesDone c (wrB c.slice pPools 0x164 0 (forgetPool c.slice (resetStorage c.slice s)))) := by
  simp only [execPagesReset, hc, hb, Bool.false_eq_true, if_false, forgetPool, resetStorage]

end

end Sys2Proof.Machine
end

section
/-! PROOFS. The statement on the steward's steps and pages. -/

namespace Sys2Proof.Machine

/-- Settles O21: each clause from what its command does once the steward takes it; after RESET the steward's tables are those the
emptied pool leaves, for the command's end changes only which STEPs run. -/
theorem stewardTakesStepsAndPages : Obligations.StewardTakesStepsAndPages := by
  unfold Obligations.StewardTakesStepsAndPages
  refine ⟨fun s s1 ring seq c ps hw hd hr hc hen hpasid hrsv hrsv' hva hn hx hmem hlist hrecs hchecks => ?_,
    fun s ring seq c hw hd hr hc h => ?_,
    fun s s1 ring seq c l hf hd hfail hu hb hx => execStepRelease_done hf hd hfail hu hb hx,
    fun s s1 ring seq c ps hc hb hx hmem hen hpoison hcap hok => execPagesGrow_pushes hc hb hx hmem hen hpoison hcap hok,
    fun s s1 ring seq c ps hc hb hx hmem hen => ?_, fun s ring seq c hc hb => ?_,
    fun s ring seq c hb hc => execPagesReset_bad hc hb⟩
  · exact (execStep_taken hw hd hr hc).trans
      (congrArg Host.Outcome.next (stepBegin_run hen hpasid hrsv hrsv' hva rfl hn hx hmem hlist hrecs hchecks))
  · exact (execStep_taken hw hd hr hc).trans (congrArg Host.Outcome.next (stepBegin_reserved h))
  · exact ⟨_, execPagesTrim_pops hc hb rfl hx hmem hen, _, trimBytes_count _ _ _ _ _, rfl⟩
  · have hdone := onlyRunning_pagesDone c (wrB c.slice pPools 0x164 0 (forgetPool c.slice (resetStorage c.slice s)))
    have hstorage := onlyRunning_resetStorage c.slice s
    exact ⟨_, execPagesReset_empties hc hb, hdone.fallback.trans (by rw [wrB_steward, forgetPool, hstorage.fallback]),
      hdone.active.trans (by rw [wrB_steward, forgetPool, hstorage.active])⟩

end Sys2Proof.Machine
end

section
/-! SUPPORT. The Felt's lines and messages (07_felt.md): what is read back of a line after it was written, which updates leave
the homes alone, and the messages that are taken and in flight. -/

namespace Sys2Proof.Machine

/-! ### Lines at their homes -/

@[simp] theorem home_setHome_same (seg line : Nat) (h : HomeLine) (s : State) : home (setHome seg line h s) seg line = h :=
  sget_sput_same _ _ _ _

@[simp] theorem setHome_mem (seg line : Nat) (h : HomeLine) (s : State) : (setHome seg line h s).mem = s.mem := rfl

theorem home_congr {t s : State} (h : t.felt = s.felt) (seg line : Nat) : home t seg line = home s seg line :=
  congrArg (fun f : FeltSt => sget (fun _ => ({} : HomeLine)) f.lines (lineKey seg line)) h

@[simp] theorem home_send (m : FMsg) (s : State) (seg line : Nat) : home (send m s) seg line = home s seg line := rfl

@[simp] theorem send_mem (m : FMsg) (s : State) : (send m s).mem = s.mem := rfl

theorem setSector_data (h : HomeLine) (i : Nat) (v : SState) : (h.setSector i v).data = h.data := rfl

/-- Marking sectors leaves a line's bytes as they were. -/
theorem foldl_setSector_data {f : HomeLine → Nat → HomeLine} (hf : ∀ h i, (f h i).data = h.data) (l : List Nat) (h : HomeLine) :
    (l.foldl f h).data = h.data := by
  induction l generalizing h with
  | nil => rfl
  | cons i l ih => exact (ih _).trans (hf h i)

/-- A write puts its bytes over the line's. -/
theorem applyWrite_data (cells : List Cell) (h : HomeLine) : (applyWrite cells h).data = putCells cells h.data :=
  foldl_setSector_data (fun x i => by
    split
    · rfl
    · split <;> rfl) _ _

/-- An owner's data is put over the line's. -/
theorem mergeOwner_data (m : FMsg) (h : HomeLine) : (mergeOwner m h).data = putCells m.data h.data :=
  foldl_setSector_data (fun x i => setSector_data x i _) _ _

/-! ### Messages -/

theorem mem_send (m : FMsg) (s : State) : m ∈ (send m s).felt.net := List.mem_append_right _ (List.mem_singleton_self m)

/-- A message put in flight is in flight. -/
theorem inNet_send {k : FMsgKind} {seg line agent stream : Nat} {m : FMsg} {P : FMsg → Prop} (s : State) (hk : m.kind = k)
    (hseg : m.seg = seg) (hline : m.line = line) (hagent : m.agent = agent) (hstream : m.stream = stream) (hP : P m) :
    inNet k seg line agent stream (send m s) P :=
  ⟨m, mem_send m s, hk, hseg, hline, hagent, hstream, hP⟩

/-! ### What a home logs and counts -/

/-- Sectors marked poisoned are logged in registers and records alone (R341). -/
theorem recorded_logPoison (seg line : Nat) (sectors : List Nat) (detail agent : Nat) (s : State) :
    Recorded (logPoison seg line sectors detail agent s) s := by
  unfold logPoison
  split
  · exact .refl s
  · exact (recorded_captureErr _ _ _).trans ((quiet_event _ _ _).trans ((quiet_satInc _ _ _ _).trans
      ((quiet_wr _ _ _ _).trans (quiet_wr64 _ _ _ s)))).recorded

theorem logPoison_nil (seg line detail agent : Nat) (s : State) : logPoison seg line [] detail agent s = s := rfl

theorem quiet_countPoisonReads (seg n : Nat) (s : State) : Quiet (countPoisonReads seg n s) s := by
  unfold countPoisonReads
  split
  · exact .refl s
  · exact quiet_satInc _ _ _ s

/-! ### The end of a transaction (R322) -/

/-- A line as the end of its transaction leaves it: free, or reserved for the head of its starve queue. -/
def HomeLine.freed (h : HomeLine) : HomeLine :=
  match h.starve with
  | a :: t => { h with trans := none, rsvd := some a, starve := t }
  | [] => { h with trans := none }

theorem HomeLine.freed_trans (h : HomeLine) : h.freed.trans = none := by unfold HomeLine.freed; split <;> rfl
theorem HomeLine.freed_dir (h : HomeLine) : h.freed.dir = h.dir := by unfold HomeLine.freed; split <;> rfl
theorem HomeLine.freed_data (h : HomeLine) : h.freed.data = h.data := by unfold HomeLine.freed; split <;> rfl
theorem HomeLine.freed_sect (h : HomeLine) : h.freed.sect = h.sect := by unfold HomeLine.freed; split <;> rfl
theorem HomeLine.freed_owner (h : HomeLine) : h.freed.owner = h.owner := by rw [HomeLine.owner, freed_dir]; rfl

/-- Ending a transaction frees its line; the rest is counts and an event. -/
theorem quiet_endTrans (seg line : Nat) (s : State) :
    Quiet (endTrans seg line s) (setHome seg line (home s seg line).freed s) := by
  unfold endTrans HomeLine.freed
  simp only
  cases (home s seg line).starve with
  | nil => exact quiet_addProg _ _ _ _
  | cons a t => exact (quiet_event _ _ _).trans ((quiet_addProg _ _ _ _).trans (quiet_addProg _ _ _ _))

theorem home_endTrans (seg line : Nat) (s : State) : home (endTrans seg line s) seg line = (home s seg line).freed :=
  (home_congr (quiet_endTrans seg line s).felt seg line).trans (home_setHome_same _ _ _ _)

theorem endTrans_mem (seg line : Nat) (s : State) : (endTrans seg line s).mem = s.mem := (quiet_endTrans seg line s).mem

theorem endTrans_net (seg line : Nat) (s : State) : (endTrans seg line s).felt.net = s.felt.net := by
  rw [(quiet_endTrans seg line s).felt]
  rfl

end Sys2Proof.Machine
end

section
/-! SUPPORT. A request at its home on an idle line (07_felt.md R319 to R327): when the home serves it, and what serving a read,
a write and an owner's WB or EVICT does where no snoop and no fetch is needed. -/

namespace Sys2Proof.Machine

/-! ### What a request changes before it reaches its home -/

/-- Only copies and requests outstanding differ. -/
def RequesterSide (t s : State) : Prop := ∃ copies reqs, t = { s with felt := { s.felt with copies := copies, reqs := reqs } }

theorem RequesterSide.refl (s : State) : RequesterSide s s := ⟨s.felt.copies, s.felt.reqs, rfl⟩

theorem RequesterSide.trans {t u s : State} (h : RequesterSide t u) (k : RequesterSide u s) : RequesterSide t s := by
  obtain ⟨c, r, rfl⟩ := h
  obtain ⟨c', r', rfl⟩ := k
  exact ⟨c, r, rfl⟩

theorem requesterSide_addPend (seg line : Nat) (r : FReq) (s : State) : RequesterSide (addPend seg line r s) s := by
  unfold addPend
  split
  · exact .refl s
  · exact ⟨s.felt.copies, _, rfl⟩

theorem requesterSide_dropOwnReplica (line : Nat) (r : FReq) (s : State) : RequesterSide (dropOwnReplica line r s) s := by
  unfold dropOwnReplica
  split
  · exact ⟨_, s.felt.reqs, rfl⟩
  · exact .refl s

theorem RequesterSide.home {t s : State} (h : RequesterSide t s) (seg line : Nat) : home t seg line = home s seg line := by
  obtain ⟨_, _, rfl⟩ := h
  rfl

theorem RequesterSide.mem {t s : State} (h : RequesterSide t s) : t.mem = s.mem := by
  obtain ⟨_, _, rfl⟩ := h
  rfl

/-- A home takes a request on an idle line and serves it (R319 to R324). -/
theorem homeAccept_idle {seg line : Nat} {r : FReq} {s : State} (ht : homeTakes seg r s) (hi : lineIdle seg line s)
    (ho : r.kind ≠ .red ∧ r.kind ≠ .lse ∨ r.ordered = false ∨ orderedFull s seg line r = false) :
    homeAccept seg line r s = serveReq seg line r s := by
  obtain ⟨hgen, hreset, hactive, hdir, hdata⟩ := ht
  obtain ⟨htrans, hrsvd, hopen⟩ := hi
  have hfull : ¬(r.ordered = true ∧ (r.kind = .red ∨ r.kind = .lse) ∧ orderedFull s seg line r = true) := by
    rintro ⟨hord, hkind, hfull⟩
    rcases ho with ⟨hred, hlse⟩ | h | h
    · exact hkind.elim hred hlse
    · rw [hord] at h; cases h
    · rw [hfull] at h; cases h
  simp [homeAccept, hgen, hreset, hactive, hdir, hdata, htrans, hrsvd, Nat.not_le.mpr hopen, hfull]

/-- So it does whatever the requester changed on its own side first. -/
theorem homeAccept_served {seg line : Nat} {r : FReq} {t s : State} (h : RequesterSide t s) (ht : homeTakes seg r s)
    (hi : lineIdle seg line s) (ho : r.kind ≠ .red ∧ r.kind ≠ .lse) : homeAccept seg line r t = serveReq seg line r t := by
  obtain ⟨_, _, rfl⟩ := h
  exact homeAccept_idle ht hi (.inl ho)

/-! ### Serving it -/

/-- A line charged to a request's slice, its reservation used up (R322, R855). -/
def HomeLine.chargedTo (r : FReq) (h : HomeLine) : HomeLine :=
  { h with rsvd := (if h.rsvd = some r.agent then none else h.rsvd),
           slice := (if h.slice.isSome then h.slice else r.slice), stream := h.stream || r.streamType }

/-- The state in which a home has counted a request and charged its line. -/
def takenIn (seg line : Nat) (r : FReq) (s : State) : State :=
  addProg (segPage s seg) 2 1 (setHome seg line ((home s seg line).chargedTo r) s)

theorem home_takenIn (seg line : Nat) (r : FReq) (s : State) :
    home (takenIn seg line r s) seg line = (home s seg line).chargedTo r :=
  (home_congr (addProg_felt _ _ _ _) seg line).trans (home_setHome_same _ _ _ _)

theorem takenIn_mem (seg line : Nat) (r : FReq) (s : State) : (takenIn seg line r s).mem = s.mem := addProg_mem _ _ _ _

/-- The transaction a request opens. -/
def openReq (r : FReq) : Trans := { req := r, phase := .snoop }

/-- A line whose needed sectors the home holds goes to its end without a fetch (R324). -/
theorem proceed_present {seg line : Nat} {t : Trans} {s : State} (h : ∀ i ∈ neededSectors t.req, (home s seg line).sector i ≠ .i) :
    proceed seg line t s = finishTrans seg line t s := by
  have hneed : ((neededSectors t.req).filter fun i => decide ((home s seg line).sector i = .i)) = [] :=
    List.filter_eq_nil_iff.mpr fun i hi => by simp [h i hi]
  simp only [proceed, hneed, List.isEmpty_nil, or_true, if_true]

/-- A read of a line that nobody owns and of which the home holds some data needs no snoop (R324). -/
theorem serveReq_rdOnce {seg line : Nat} {r : FReq} {s : State} (hk : r.kind = .rdOnce) (ho : (home s seg line).owner = none)
    (hs : (home s seg line).sect ≠ [.i, .i, .i, .i]) :
    serveReq seg line r s = proceed seg line (openReq r) (takenIn seg line r s) := by
  simp only [serveReq, hk]
  split
  case h_1 o h => cases h.symm.trans ho
  case h_2 =>
    split
    case h_1 => exact if_neg fun h => hs h.1
    case h_2 => rfl

theorem invTargets_of_noEntry {s : State} {seg requester : Nat} {h : HomeLine} (hd : h.dir = none) :
    invTargets s seg h requester = [] := by
  rw [invTargets, hd]

/-- A write of a line without a directory entry needs no snoop (R326). -/
theorem serveReq_wr {seg line : Nat} {r : FReq} {s : State} (hk : r.kind = .wr) (hd : (home s seg line).dir = none) :
    serveReq seg line r s = proceed seg line (openReq r) (takenIn seg line r s) := by
  have ho : (home s seg line).owner = none := by rw [HomeLine.owner, hd]
  simp only [serveReq, hk]
  split
  case h_1 o h => cases h.symm.trans ho
  case h_2 =>
    rw [invTargets_of_noEntry]
    · rfl
    · exact hd

/-- GO to a requester. -/
def goTo (seg line : Nat) (r : FReq) : FMsg := { kind := .go, seg := seg, line := line, agent := r.agent, stream := r.stream }

/-- The owner's WB in the form in which its home merges it (R324). -/
def wbMsg (seg line : Nat) (r : FReq) : FMsg :=
  { kind := .wbData, seg := seg, line := line, sectors := [0, 1, 2, 3], data := r.data, poison := r.poison }

/-- The owner's WB is merged, its entry freed and its poison logged (R324, R341). -/
theorem serveReq_wb {seg line : Nat} {r : FReq} {s : State} (hk : r.kind = .wb) (ho : (home s seg line).owner = some r.agent) :
    serveReq seg line r s = endTrans seg line (send (goTo seg line r) (logPoison seg line r.poison 0x0B r.agent
      (setHome seg line { mergeOwner (wbMsg seg line r) ((home s seg line).chargedTo r) with dir := none } (takenIn seg line r s)))) := by
  simp only [serveReq, hk]
  split
  case h_1 o h =>
    cases h.symm.trans ho
    exact if_pos ⟨trivial, rfl⟩
  case h_2 h => cases h.symm.trans ho

/-- The owner's EVICT frees the entry (R324). -/
theorem serveReq_evict {seg line : Nat} {r : FReq} {s : State} (hk : r.kind = .evict) (ho : (home s seg line).owner = some r.agent) :
    serveReq seg line r s = endTrans seg line (send (goTo seg line r)
      (setHome seg line { (home s seg line).chargedTo r with dir := none } (takenIn seg line r s))) := by
  simp only [serveReq, hk]
  split
  case h_1 o h =>
    cases h.symm.trans ho
    exact (if_neg nofun).trans (if_pos ⟨trivial, rfl⟩)
  case h_2 h => cases h.symm.trans ho

/-! ### Finishing it -/

/-- A read alone in its transaction is filled; the bytes through the ports are counted (R324, R352). -/
theorem finishTrans_rdOnce {seg line : Nat} {r : FReq} {s : State} (hk : r.kind = .rdOnce) :
    ∃ n, finishTrans seg line (openReq r) s = endTrans seg line (sendFill seg line r (portBytes seg n s)) := by
  simp only [finishTrans, openReq, hk, serveRead, List.foldl_nil, false_and, if_false, reduceCtorEq]
  exact ⟨_, rfl⟩

/-- A write takes effect on the line, whose entry is freed, and is accepted by GO (R326). -/
theorem finishTrans_wr {seg line : Nat} {r : FReq} {s : State} (hk : r.kind = .wr) :
    finishTrans seg line (openReq r) s = endTrans seg line (send (goTo seg line r)
      (setHome seg line { applyWrite r.data (home s seg line) with dir := none }
        (setHome seg line (applyWrite r.data (home s seg line)) (portBytes seg r.data.length s)))) := by
  have hport : home (portBytes seg r.data.length s) seg line = home s seg line := home_congr (addProg_felt _ _ _ _) seg line
  simp only [finishTrans, openReq, hk, applyReq, home_setHome_same, hport, if_true]
  rfl

/-- The FILL a home sends for RD_ONCE: the sectors asked for, their bytes, and those of them that are poisoned (R324, R340). -/
def fillOnce (seg line : Nat) (r : FReq) (h : HomeLine) : FMsg :=
  { kind := .fill, seg := seg, line := line, agent := r.agent, stream := r.stream, sectors := r.sectors,
    data := r.sectors.flatMap fun i => cellsOfSector h.byte i,
    poison := r.sectors.filter fun i => decide (h.sector i = .p) }

theorem quiet_sendFill_rdOnce {seg line : Nat} {r : FReq} (hk : r.kind = .rdOnce) (s : State) :
    Quiet (sendFill seg line r s) (send (fillOnce seg line r (home s seg line)) s) := by
  unfold sendFill
  simp only [hk, if_true]
  exact quiet_countPoisonReads _ _ _

/-! ### What a served request leaves -/

/-- A request has been served: memory is as it was, its line has come to the end of a transaction as `h`, and `m` is in flight. -/
structure Served (seg line : Nat) (h : HomeLine) (m : FMsg) (t s : State) : Prop where
  mem : t.mem = s.mem
  line : home t seg line = h.freed
  net : m ∈ t.felt.net

theorem served_endTrans {seg line : Nat} {h : HomeLine} {m : FMsg} {u s : State} (hmem : u.mem = s.mem) (hline : home u seg line = h)
    (hnet : m ∈ u.felt.net) : Served seg line h m (endTrans seg line u) s where
  mem := (endTrans_mem seg line u).trans hmem
  line := hline ▸ home_endTrans seg line u
  net := (endTrans_net seg line u).symm ▸ hnet

theorem Served.inNet {seg line agent stream : Nat} {k : FMsgKind} {h : HomeLine} {m : FMsg} {t s : State} {P : FMsg → Prop}
    (hs : Served seg line h m t s) (hk : m.kind = k) (hseg : m.seg = seg) (hline : m.line = line) (hagent : m.agent = agent)
    (hstream : m.stream = stream) (hP : P m) : inNet k seg line agent stream t P :=
  ⟨m, hs.net, hk, hseg, hline, hagent, hstream, hP⟩

theorem served_rdOnce {seg line : Nat} {r : FReq} {s : State} (hk : r.kind = .rdOnce) (ho : (home s seg line).owner = none)
    (hs : (home s seg line).sect ≠ [.i, .i, .i, .i]) (hheld : ∀ i ∈ r.sectors, (home s seg line).sector i ≠ .i) :
    Served seg line ((home s seg line).chargedTo r) (fillOnce seg line r (home s seg line)) (serveReq seg line r s) s := by
  have hneed : ∀ i ∈ neededSectors (openReq r).req, (home (takenIn seg line r s) seg line).sector i ≠ .i := by
    rw [home_takenIn]
    simp only [neededSectors, openReq, hk]
    exact hheld
  obtain ⟨n, hfinish⟩ := finishTrans_rdOnce (seg := seg) (line := line) (s := takenIn seg line r s) hk
  have hport : Quiet (portBytes seg n (takenIn seg line r s)) (takenIn seg line r s) := quiet_addProg _ _ _ _
  have hline : home (portBytes seg n (takenIn seg line r s)) seg line = (home s seg line).chargedTo r :=
    (home_congr hport.felt seg line).trans (home_takenIn seg line r s)
  have hfill := quiet_sendFill_rdOnce (seg := seg) (line := line) hk (portBytes seg n (takenIn seg line r s))
  rw [hline] at hfill
  rw [serveReq_rdOnce hk ho hs, proceed_present hneed, hfinish]
  refine served_endTrans (hfill.mem.trans (hport.mem.trans (takenIn_mem seg line r s))) ?_ ?_
  · exact (home_congr hfill.felt seg line).trans hline
  · rw [hfill.felt]
    exact mem_send _ _

theorem served_wr {seg line : Nat} {r : FReq} {s : State} (hk : r.kind = .wr) (hd : (home s seg line).dir = none)
    (hheld : ∀ i ∈ sectorsTouched r.data, coversSector r.data i = false → (home s seg line).sector i ≠ .i) :
    Served seg line { applyWrite r.data ((home s seg line).chargedTo r) with dir := none } (goTo seg line r) (serveReq seg line r s) s := by
  have hneed : ∀ i ∈ neededSectors (openReq r).req, (home (takenIn seg line r s) seg line).sector i ≠ .i := by
    rw [home_takenIn]
    simp only [neededSectors, openReq, hk, List.mem_filter, Bool.not_eq_true']
    exact fun i ⟨hi, hpart⟩ => hheld i hi hpart
  rw [serveReq_wr hk hd, proceed_present hneed, finishTrans_wr hk, home_takenIn]
  refine served_endTrans ?_ ((home_send _ _ _ _).trans (home_setHome_same _ _ _ _)) (mem_send _ _)
  rw [send_mem, setHome_mem, setHome_mem, portBytes, addProg_mem, takenIn_mem]

theorem served_wb {seg line : Nat} {r : FReq} {s : State} (hk : r.kind = .wb) (ho : (home s seg line).owner = some r.agent) :
    Served seg line { mergeOwner (wbMsg seg line r) ((home s seg line).chargedTo r) with dir := none } (goTo seg line r)
      (serveReq seg line r s) s := by
  rw [serveReq_wb hk ho]
  refine served_endTrans ?_ ?_ (mem_send _ _)
  · exact (recorded_logPoison _ _ _ _ _ _).mem.trans (takenIn_mem seg line r s)
  · exact (home_congr (recorded_logPoison seg line r.poison 0x0B r.agent _).felt seg line).trans (home_setHome_same _ _ _ _)

theorem served_evict {seg line : Nat} {r : FReq} {s : State} (hk : r.kind = .evict) (ho : (home s seg line).owner = some r.agent) :
    Served seg line { (home s seg line).chargedTo r with dir := none } (goTo seg line r) (serveReq seg line r s) s := by
  rw [serveReq_evict hk ho]
  exact served_endTrans (takenIn_mem seg line r s) ((home_send _ _ _ _).trans (home_setHome_same _ _ _ _)) (mem_send _ _)

end Sys2Proof.Machine
end

section
/-! PROOFS. The statement on reads and writes of a line at its home. -/

namespace Sys2Proof.Machine

/-- Settles O23: each request is served at once, and its line ends as the fill, the write, the owner's WB or its EVICT leaves it. -/
theorem feltReadsAndWritesOfALine : Obligations.FeltReadsAndWritesOfALine := by
  unfold Obligations.FeltReadsAndWritesOfALine
  refine ⟨fun s seg line r ht hi ho hheld hsome => ?_, fun s seg line r ht hi hd hheld => ?_, fun s seg line r ht hi ho => ?_,
    fun s seg line r ht hi ho => ?_⟩
  · have hside := requesterSide_addPend seg line { r with kind := .rdOnce } s
    have hhome := hside.home seg line
    have h := served_rdOnce (r := { r with kind := .rdOnce }) rfl (hhome ▸ ho) (hhome ▸ hsome) (hhome ▸ hheld)
    rw [hhome] at h
    refine ⟨_, congrArg Host.Outcome.next (homeAccept_served hside ht hi ⟨nofun, nofun⟩), h.mem.trans hside.mem, ?_⟩
    rw [h.line, HomeLine.freed_trans, HomeLine.freed_data, HomeLine.freed_sect]
    exact ⟨rfl, rfl, rfl, h.inNet rfl rfl rfl rfl rfl ⟨rfl, rfl, rfl⟩⟩
  · have hside := (requesterSide_addPend seg line { r with kind := .wr } _).trans (requesterSide_dropOwnReplica line { r with kind := .wr } s)
    have hhome := hside.home seg line
    have h := served_wr (r := { r with kind := .wr }) rfl (hhome ▸ hd) (hhome ▸ hheld)
    rw [hhome] at h
    refine ⟨_, congrArg Host.Outcome.next (homeAccept_served hside ht hi ⟨nofun, nofun⟩), h.mem.trans hside.mem, ?_⟩
    rw [h.line, HomeLine.freed_trans, HomeLine.freed_dir, HomeLine.freed_data]
    exact ⟨rfl, rfl, applyWrite_data _ _, h.inNet rfl rfl rfl rfl rfl trivial⟩
  · have h := served_wb (r := { r with kind := .wb }) rfl ho
    refine ⟨_, congrArg Host.Outcome.next (homeAccept_served (.refl s) ht hi ⟨nofun, nofun⟩), h.mem, ?_⟩
    rw [h.line, HomeLine.freed_trans, HomeLine.freed_dir, HomeLine.freed_data]
    exact ⟨rfl, rfl, mergeOwner_data _ _, h.inNet rfl rfl rfl rfl rfl trivial⟩
  · have h := served_evict (r := { r with kind := .evict }) rfl ho
    refine ⟨_, congrArg Host.Outcome.next (homeAccept_served (.refl s) ht hi ⟨nofun, nofun⟩), h.mem, ?_⟩
    rw [h.line, HomeLine.freed_trans, HomeLine.freed_dir, HomeLine.freed_data]
    exact ⟨rfl, rfl, rfl, h.inNet rfl rfl rfl rfl rfl trivial⟩

end Sys2Proof.Machine
end

section
/-! SUPPORT. Answers at the home of a line (07_felt.md R324, R343): one of the generation expected is acted on, one of an old
generation is only counted. -/

namespace Sys2Proof.Machine

section
variable {k : FMsgKind} {seg line agent : Nat} {s s1 : State} {m : FMsg} (ht : takeMsg k seg line agent s = some (m, s1))
include ht

theorem takeAnswer_current (f : FMsg → State → State) (hg : m.agen = expectGen s1 seg agent) :
    takeAnswer k seg line agent s f = f m s1 := by
  simp only [takeAnswer, ht, hg, ne_eq, not_true, if_false]

theorem takeAnswer_stale (f : FMsg → State → State) (hg : m.agen ≠ expectGen s1 seg agent) :
    takeAnswer k seg line agent s f = staleDrop seg s1 := by
  simp only [takeAnswer, ht, ne_eq, hg, not_false_eq_true, if_true]

end

section
variable {seg line agent : Nat} {s s1 : State} {m : FMsg}

/-- ACK at a segment that is not resetting ends the wait for its agent. -/
theorem execAck_answered (ht : takeMsg .ack seg line agent s = some (m, s1)) (hg : m.agen = expectGen s1 seg agent)
    (hr : (segSt s1 seg).resetting = false) : execAck seg line agent s = .next (answered seg line agent s1) := by
  rw [execAck, takeAnswer_current ht _ hg, if_neg (by simp [hr])]

variable {x : Trans} (hx : (home s1 seg line).trans = some x)
include hx

/-- ACK_FWD ends the transaction that waits for its Forwarder, recording a sharer of another die (R309). -/
theorem execAckFwd_forward (ht : takeMsg .ackFwd seg line agent s = some (m, s1)) (hg : m.agen = expectGen s1 seg agent)
    (hp : x.phase = .forward) : execAckFwd seg line agent s = .next (endTrans seg line (setHome seg line { home s1 seg line with
      dir := if x.req.kind = .rdShared ∧ x.req.agent ≠ seg / 12 then some (addSharer x.req.agent x.req.sset (home s1 seg line).dir)
        else (home s1 seg line).dir } s1)) := by
  rw [execAckFwd, takeAnswer_current ht _ hg]
  simp only [hx, hp, ne_eq, not_true, if_false]

/-- MISS clears the Forwarder it asked from the entry and goes on to memory (R309). -/
theorem execMiss_forward (ht : takeMsg .miss seg line agent s = some (m, s1)) (hg : m.agen = expectGen s1 seg agent)
    (hp : x.phase = .forward) : execMiss seg line agent s = .next (proceed seg line { x with waiting := [] }
      (setHome seg line { home s1 seg line with dir := (home s1 seg line).dir.map fun d => d.clear agent } s1)) := by
  rw [execMiss, takeAnswer_current ht _ hg]
  simp only [hx, hp, ne_eq, not_true, if_false]

/-- WB_DATA without poison is merged and ends the wait for its owner. -/
theorem execWbData_merged (ht : takeMsg .wbData seg line agent s = some (m, s1)) (hg : m.agen = expectGen s1 seg agent)
    (hr : (segSt s1 seg).resetting = false) (hm : m.poison = []) :
    execWbData seg line agent s = .next (answered seg line agent (setHome seg line (mergeOwner m (home s1 seg line)) s1)) := by
  rw [execWbData, takeAnswer_current ht _ hg, if_neg (by simp [hr])]
  simp only [hx, hm, logPoison_nil]

/-- DONE of the requester makes it the owner (R309). -/
theorem execDone_owned (ht : takeMsg .done seg line agent s = some (m, s1)) (hg : m.agen = expectGen s1 seg agent)
    (hp : x.phase = .done) (ha : x.req.agent = agent) : execDone seg line agent s = .next (endTrans seg line
      (setHome seg line { home s1 seg line with
        dir := some { mode := .owned, ptrs := [some agent, none, none], fwd := 0, sset := x.req.sset } } s1)) := by
  rw [execDone, takeAnswer_current ht _ hg]
  simp only [hx, hp, ha, ne_eq, not_true, or_self, if_false]

/-- MEM_DATA of every sector awaited, none of them poisoned, fills the line and finishes the transaction (R340). -/
theorem execMemData_last (ht : takeMsg .memData seg line 0 s = some (m, s1)) (hp : x.phase = .memory)
    (hall : ∀ i ∈ x.fetch, i ∈ m.sectors) (hm : m.poison = []) :
    execMemData seg line s = .next (finishTrans seg line { x with fetch := [] } (portBytes seg (256 * m.sectors.length)
      (setHome seg line { mergeMemory m (home s1 seg line) with trans := some { x with fetch := [] } } s1))) := by
  have hleft : (x.fetch.filter fun i => !m.sectors.contains i) = [] :=
    List.filter_eq_nil_iff.mpr fun i hi => by simp [hall i hi]
  simp only [execMemData, ht, hx, hp, hm, hleft, List.filter_nil, logPoison_nil, List.isEmpty_nil, ne_eq, not_true, if_false, if_true]

end

end Sys2Proof.Machine
end

section
/-! PROOFS. The statement on answers that homes take. -/

namespace Sys2Proof.Machine

/-- Settles O25: each clause from what its answer does when it is of the generation expected, the last from what any answer of an
old generation does. -/
theorem homesTakeTheAnswers : Obligations.HomesTakeTheAnswers := by
  unfold Obligations.HomesTakeTheAnswers
  refine ⟨fun s s1 seg line agent m ht hg => congrArg Host.Outcome.next (takeAnswer_current ht _ hg),
    fun s s1 seg line agent m ht hg hr => execAck_answered ht hg hr, fun s s1 seg line agent m x ht hg hx hp => ?_,
    fun s s1 seg line agent m x ht hg hx hp => execMiss_forward hx ht hg hp,
    fun s s1 seg line agent m x ht hg hr hx hm => execWbData_merged hx ht hg hr hm,
    fun s s1 seg line agent m x ht hg hx hp ha => ?_,
    fun s s1 seg line m x ht hx hp hall hm => execMemData_last hx ht hp hall hm,
    fun s s1 seg line agent m c k hc ht hg => ?_⟩
  · refine ⟨_, execAckFwd_forward hx ht hg hp, ?_⟩
    simp only [home_endTrans, home_setHome_same, HomeLine.freed_trans, HomeLine.freed_data, HomeLine.freed_dir, and_self]
  · refine ⟨_, execDone_owned hx ht hg hp ha, ?_⟩
    simp only [home_endTrans, home_setHome_same, HomeLine.freed_trans, HomeLine.freed_owner, true_and]
    rfl
  · simp only [List.mem_cons, Prod.mk.injEq, List.not_mem_nil, or_false] at hc
    rcases hc with ⟨rfl, rfl⟩ | ⟨rfl, rfl⟩ | ⟨rfl, rfl⟩ | ⟨rfl, rfl⟩ | ⟨rfl, rfl⟩ | ⟨rfl, rfl⟩ <;>
      exact congrArg Host.Outcome.next (takeAnswer_stale ht _ hg)

end Sys2Proof.Machine
end

section
/-! SUPPORT. Answers at the requester (07_felt.md R320, R326, R328): its entry is removed, and a copy installed or given up. -/

namespace Sys2Proof.Machine

/-- Taking a message from the net changes nothing but the net. -/
theorem takeMsgS_net {k : FMsgKind} {seg line agent stream : Nat} {s s1 : State} {m : FMsg}
    (h : takeMsgS k seg line agent stream s = some (m, s1)) : ∃ rest, s1 = { s with felt := { s.felt with net := rest } } := by
  unfold takeMsgS at h
  split at h <;> cases h
  exact ⟨_, rfl⟩

theorem copyOf_congr {t s : State} (h : t.felt.copies = s.felt.copies) (agent line : Nat) : copyOf t agent line = copyOf s agent line :=
  congrArg (fun c => slook c (copyKey agent line)) h

@[simp] theorem copyOf_dropCopy_same (agent line : Nat) (s : State) : copyOf (dropCopy agent line s) agent line = none :=
  slook_serase_same _ _

@[simp] theorem copyOf_setCopy_same (agent line : Nat) (c : AgLine) (s : State) : copyOf (setCopy agent line c s) agent line = some c :=
  slook_sadd_same _ _ _

/-- A removed entry is not found. -/
theorem findPend_delPend (seg line agent stream : Nat) (s : State) :
    findPend seg line agent stream (delPend seg line agent stream s) = none :=
  List.find?_eq_none.mpr fun p hp => by simpa only [Bool.not_eq_true', Bool.not_eq_true] using (List.mem_filter.mp hp).2

theorem findPend_congr {t s : State} (h : t.felt.reqs = s.felt.reqs) (seg line agent stream : Nat) :
    findPend seg line agent stream t = findPend seg line agent stream s :=
  congrArg (fun l : List PendReq => l.find? _) h

/-! ### GO -/

/-- GO removes the entry, and with it a copy that its WB or EVICT kept (R326, R328). -/
def goTaken (seg line agent stream : Nat) (s : State) : State :=
  if (copyOf s agent line).any fun c => c.leaving.isSome then dropCopy agent line (delPend seg line agent stream s)
  else delPend seg line agent stream s

theorem execGo_taken {seg line agent stream : Nat} {s s1 : State} {m : FMsg}
    (h : takeMsgS .go seg line agent stream s = some (m, s1)) : execGo seg line agent stream s = .next (goTaken seg line agent stream s1) := by
  have hcopy : copyOf (delPend seg line agent stream s1) agent line = copyOf s1 agent line := rfl
  simp only [execGo, h, hcopy, goTaken]
  cases hc : copyOf s1 agent line with
  | none => rfl
  | some c => cases hl : c.leaving.isSome <;> simp [hl]

theorem findPend_goTaken (seg line agent stream : Nat) (s : State) :
    findPend seg line agent stream (goTaken seg line agent stream s) = none := by
  unfold goTaken
  split
  · exact (findPend_congr (s := delPend seg line agent stream s) rfl _ _ _ _).trans (findPend_delPend _ _ _ _ s)
  · exact findPend_delPend _ _ _ _ s

theorem copyOf_goTaken {seg line agent stream : Nat} {s : State} {c : AgLine} (h : copyOf s agent line = some c) :
    copyOf (goTaken seg line agent stream s) agent line = if c.leaving.isSome then none else some c := by
  simp only [goTaken, h, Option.any_some]
  split
  · exact copyOf_dropCopy_same _ _ _
  · exact h

/-! ### FILL and FWD_DATA -/

/-- The copy that a fill installs (R328). -/
def filledCopy (seg : Nat) (m : FMsg) : AgLine :=
  { st := if m.target = 2 then .e else .s, data := putCells m.data [], poison := m.poison, seg := seg }

/-- Whether a requester's fill is use-once (R328). -/
def usedOnce (seg line agent stream : Nat) (s : State) : Bool :=
  match findPend seg line agent stream s with
  | some p => p.useOnce
  | none => false

theorem usedOnce_of_some {seg line agent stream : Nat} {s : State} {p : PendReq} (h : findPend seg line agent stream s = some p) :
    usedOnce seg line agent stream s = p.useOnce := by
  rw [usedOnce, h]

theorem usedOnce_false {seg line agent stream : Nat} {s : State} (h : ∀ p, findPend seg line agent stream s = some p → p.useOnce = false) :
    usedOnce seg line agent stream s = false := by
  cases hp : findPend seg line agent stream s with
  | none => rw [usedOnce, hp]
  | some p => rw [usedOnce_of_some hp, h p hp]

/-- The state in which a requester has taken a fill: its entry is gone and the copy installed. -/
def fillTaken (seg line agent stream : Nat) (m : FMsg) (s : State) : State :=
  installFill seg line agent m (usedOnce seg line agent stream s) (delPend seg line agent stream s)

theorem execFill_taken {seg line agent stream : Nat} {s s1 : State} {m : FMsg}
    (h : takeMsgS .fill seg line agent stream s = some (m, s1)) : execFill seg line agent stream s
      = .next (if m.target = 2 then answer .done seg line agent (fillTaken seg line agent stream m s1)
          else fillTaken seg line agent stream m s1) := by
  simp only [execFill, h]
  rfl

theorem execFwdData_taken {seg line agent stream : Nat} {s s1 : State} {m : FMsg}
    (h : takeMsgS .fwdData seg line agent stream s = some (m, s1)) :
    execFwdData seg line agent stream s = .next (fillTaken seg line agent stream m s1) := by
  simp only [execFwdData, h]
  rfl

section
variable (seg line agent stream : Nat) (m : FMsg) (s : State)

theorem findPend_fillTaken : findPend seg line agent stream (fillTaken seg line agent stream m s) = none := by
  unfold fillTaken installFill
  split <;> exact findPend_delPend seg line agent stream s

theorem fillTaken_agen : (fillTaken seg line agent stream m s).felt.agen = s.felt.agen := by
  unfold fillTaken installFill
  split <;> rfl

variable {seg line agent stream m s}

/-- A fill for RD_ONCE, or a use-once fill, installs nothing. -/
theorem fillTaken_copies (h : m.target = 0 ∨ usedOnce seg line agent stream s = true) :
    (fillTaken seg line agent stream m s).felt.copies = s.felt.copies := by
  rw [fillTaken, installFill, if_pos h]
  rfl

/-- Every other fill installs the copy it carries. -/
theorem copyOf_fillTaken (ht : m.target ≠ 0) (h : usedOnce seg line agent stream s = false) :
    copyOf (fillTaken seg line agent stream m s) agent line = some (filledCopy seg m) := by
  rw [fillTaken, installFill, if_neg (by simp [ht, h])]
  exact copyOf_setCopy_same _ _ _ _

end

/-! ### The other answers -/

section
variable {seg line agent stream : Nat} {s s1 : State} {m : FMsg}

/-- NACK marks the entry, which waits to be sent again, and counts (R320). -/
theorem execNack_taken (h : takeMsgS .nack seg line agent stream s = some (m, s1)) :
    execNack seg line agent stream s = .next (modPend seg line agent stream
      (fun p => { p with nacked := true, req := { p.req with nacks := min (p.req.nacks + 1) 15 } }) s1) := by
  simp only [execNack, h]

/-- ABORT outside a recovery removes the entry (R346). -/
theorem execAbort_taken (h : takeMsgS .abort seg line agent stream s = some (m, s1)) (hr : s1.recov.running = false) :
    execAbort seg line agent stream s = .next (delPend seg line agent stream s1) := by
  simp only [execAbort, h, hr, Bool.false_eq_true, false_and, if_false]

/-- ATOM_DATA removes the entry and delivers the result (R332). -/
theorem execAtomData_taken (h : takeMsgS .atomData seg line agent stream s = some (m, s1)) : execAtomData seg line agent stream s
    = .next (emit (.atomResult agent stream m.value m.flags m.detail) (delPend seg line agent stream s1)) := by
  simp only [execAtomData, h]

end

/-- Answering DONE changes the net alone. -/
theorem copies_reqs_ite_answerDone {seg line agent : Nat} (c : Prop) [Decidable c] (s : State) :
    (if c then answer .done seg line agent s else s).felt.copies = s.felt.copies
      ∧ (if c then answer .done seg line agent s else s).felt.reqs = s.felt.reqs := by
  split <;> exact ⟨rfl, rfl⟩

/-! ### NACK_RETRY -/

/-- A NACKed request is sent again, unless it would be the agent's second with STARVE at the segment (R320, R321). -/
theorem execNackRetry_sent {seg line agent stream : Nat} {s : State} {p : PendReq} (h : findPend seg line agent stream s = some p)
    (hn : p.nacked = true) (hs : (decide (8 ≤ p.req.nacks) && starveOut s seg agent) = false) :
    execNackRetry seg line agent stream s = .next (homeAccept seg line { p.req with starve := decide (8 ≤ p.req.nacks) }
      (modPend seg line agent stream
        (fun q => { q with nacked := false, req := { p.req with starve := decide (8 ≤ p.req.nacks) } }) s)) := by
  simp only [execNackRetry, h, hn, hs, Bool.not_true, Bool.false_eq_true, if_false]

end Sys2Proof.Machine
end

section
/-! PROOFS. The statement on answers that requesters take. -/

namespace Sys2Proof.Machine

/-- Settles O26: each answer from what its requester's side is once it is taken. -/
theorem requestersTakeTheirAnswers : Obligations.RequestersTakeTheirAnswers := by
  unfold Obligations.RequestersTakeTheirAnswers
  refine ⟨fun s s1 seg line agent stream m h => ?_, fun s seg line agent stream p h hn hs => execNackRetry_sent h hn hs,
    fun s s1 seg line agent stream m h => ?_, fun s s1 seg line agent stream m h hr => ?_,
    fun s s1 seg line agent stream m h => ?_, fun s s1 seg line agent stream m h => ?_,
    fun s s1 seg line agent stream m h => ?_⟩ <;>
    obtain ⟨rest, rfl⟩ := takeMsgS_net h
  · exact ⟨_, execNack_taken h, rfl, rfl⟩
  · exact ⟨_, execGo_taken h, findPend_goTaken _ _ _ _ _, fun c hc => copyOf_goTaken hc⟩
  · exact ⟨_, execAbort_taken h hr, findPend_delPend _ _ _ _ _, rfl⟩
  · refine ⟨_, execFill_taken h, ?_⟩
    obtain ⟨hcopies, hreqs⟩ := copies_reqs_ite_answerDone (seg := seg) (line := line) (agent := agent) (m.target = 2)
      (fillTaken seg line agent stream m { s with felt := { s.felt with net := rest } })
    refine ⟨(findPend_congr hreqs _ _ _ _).trans (findPend_fillTaken _ _ _ _ _ _), fun ht => hcopies.trans (fillTaken_copies (.inl ht)),
      fun ht => ?_, fun honce ht => (copyOf_congr hcopies _ _).trans (copyOf_fillTaken ht (usedOnce_false honce)),
      fun p hp honce => hcopies.trans (fillTaken_copies (.inr ((usedOnce_of_some hp).trans honce)))⟩
    rw [if_pos ht]
    exact inNet_send _ rfl rfl rfl rfl rfl (congrArg (sget (fun _ => 0) · agent) (fillTaken_agen _ _ _ _ _ _))
  · refine ⟨_, execFwdData_taken h, findPend_fillTaken _ _ _ _ _ _, fun ht => fillTaken_copies (.inl ht), fun honce ht => ?_⟩
    have hcopy := copyOf_fillTaken (m := m) (s := { s with felt := { s.felt with net := rest } }) (by omega) (usedOnce_false honce)
    rw [hcopy, filledCopy, if_neg (by omega)]
  · exact ⟨_, execAtomData_taken h, findPend_delPend _ _ _ _ _, rfl⟩

end Sys2Proof.Machine
end

section
/-! SUPPORT. Dead agents and their reclaim (07_felt.md R342 to R346): whatever a home settles, it leaves what the agents hold and
which of them are dead as it was. -/

namespace Sys2Proof.Machine

/-! ### The agents' side of the Felt -/

/-- What the agents hold, and which of them are dead. -/
def agentSide (s : State) : List (Nat × AgLine) × List Nat := (s.felt.copies, s.felt.dead)

theorem agentSide_congr {t s : State} (h : t.felt = s.felt) : agentSide t = agentSide s :=
  congrArg (fun f : FeltSt => (f.copies, f.dead)) h

@[simp] theorem agentSide_setHome (seg line : Nat) (h : HomeLine) (s : State) : agentSide (setHome seg line h s) = agentSide s := rfl
@[simp] theorem agentSide_setSegSt (seg : Nat) (v : SegSt) (s : State) : agentSide (setSegSt seg v s) = agentSide s := rfl
@[simp] theorem agentSide_send (m : FMsg) (s : State) : agentSide (send m s) = agentSide s := rfl
@[simp] theorem agentSide_emit (o : Out) (s : State) : agentSide (emit o s) = agentSide s := rfl
@[simp] theorem agentSide_setUnit (p : Nat) (u : UnitSt) (s : State) : agentSide (setUnit p u s) = agentSide s := rfl
@[simp] theorem agentSide_addProg (p i n : Nat) (s : State) : agentSide (addProg p i n s) = agentSide s :=
  agentSide_congr (addProg_felt p i n s)
@[simp] theorem agentSide_event (p n : Nat) (s : State) : agentSide (event p n s) = agentSide s := agentSide_congr (event_felt p n s)
@[simp] theorem agentSide_captureErr (p : Nat) (e : ErrRec) (s : State) : agentSide (captureErr p e s) = agentSide s :=
  agentSide_congr (captureErr_felt p e s)
@[simp] theorem agentSide_setUState (p : Nat) (st : UState) (c : Bool) (s : State) : agentSide (setUState p st c s) = agentSide s :=
  agentSide_congr (setUState_felt p st c s)
@[simp] theorem agentSide_portBytes (seg n : Nat) (s : State) : agentSide (portBytes seg n s) = agentSide s := agentSide_addProg _ _ _ s
@[simp] theorem agentSide_putOrder (seg tgt : Nat) (isLse : Bool) (o : Option Order) (s : State) :
    agentSide (putOrder seg tgt isLse o s) = agentSide s := rfl
@[simp] theorem agentSide_logPoison (seg line : Nat) (sectors : List Nat) (detail agent : Nat) (s : State) :
    agentSide (logPoison seg line sectors detail agent s) = agentSide s :=
  agentSide_congr (recorded_logPoison seg line sectors detail agent s).felt
@[simp] theorem agentSide_countPoisonReads (seg n : Nat) (s : State) : agentSide (countPoisonReads seg n s) = agentSide s :=
  agentSide_congr (quiet_countPoisonReads seg n s).felt
@[simp] theorem agentSide_endTrans (seg line : Nat) (s : State) : agentSide (endTrans seg line s) = agentSide s :=
  (agentSide_congr (quiet_endTrans seg line s).felt).trans (agentSide_setHome _ _ _ s)

@[simp] theorem agentSide_markPoison (seg line : Nat) (sectors : List Nat) (detail agent : Nat) (s : State) :
    agentSide (markPoison seg line sectors detail agent s) = agentSide s := by
  unfold markPoison
  split <;> simp

theorem agentSide_ite {c : Prop} [Decidable c] {t u s : State} (ht : agentSide t = agentSide s) (hu : agentSide u = agentSide s) :
    agentSide (if c then t else u) = agentSide s := by
  split <;> assumption

/-! ### Transactions -/

@[simp] theorem agentSide_homeFail (seg line : Nat) (r : FReq) (detail : Nat) (s : State) :
    agentSide (homeFail seg line r detail s) = agentSide s := by
  unfold homeFail
  simp only [agentSide_captureErr]
  split <;> simp

theorem agentSide_applyOrderedReq (seg line : Nat) (r : FReq) (s : State) :
    agentSide (applyOrderedReq seg line r s).1 = agentSide s := by
  unfold applyOrderedReq
  simp only
  split
  · simp
  · split
    · simp
    · split
      · simp
      · rw [agentSide_putOrder]
        exact foldl_keeps agentSide (fun t _ => agentSide_homeFail seg line r 0x05 t) _ _

@[simp] theorem agentSide_applyReq (seg line : Nat) (r : FReq) (s : State) : agentSide (applyReq seg line r s).1 = agentSide s := by
  unfold applyReq
  split
  case h_1 => simp
  case h_2 => exact agentSide_ite (by simp) (by simp)
  case h_5 => rfl
  all_goals
    split
    · exact agentSide_applyOrderedReq seg line r s
    · exact agentSide_ite (by simp) (by simp)

@[simp] theorem agentSide_sendFill (seg line : Nat) (r : FReq) (s : State) : agentSide (sendFill seg line r s) = agentSide s := by
  simp [sendFill]

@[simp] theorem agentSide_serveRead (seg line : Nat) (s : State) (r : FReq) : agentSide (serveRead seg line s r) = agentSide s := by
  unfold serveRead
  simp only
  split <;> simp

@[simp] theorem agentSide_sendMemWr (seg line : Nat) (sectors : List Nat) (agent stream : Nat) (answer : Bool) (s : State) :
    agentSide (sendMemWr seg line sectors agent stream answer s) = agentSide s := by
  simp [sendMemWr]

@[simp] theorem agentSide_finishTrans (seg line : Nat) (t : Trans) (s : State) : agentSide (finishTrans seg line t s) = agentSide s := by
  have hreads (u : State) : agentSide (t.merged.foldl (serveRead seg line) u) = agentSide u :=
    foldl_keeps agentSide (agentSide_serveRead seg line) _ _
  unfold finishTrans
  simp only
  split
  case h_1 => simp
  case h_2 => simp
  case h_3 =>
    simp only [agentSide_endTrans, agentSide_emit, agentSide_setHome]
    split <;> simp
  case h_4 =>
    split
    case h_1 => simp [hreads]
    case h_2 => simp [hreads]
    case h_3 => simp
    case h_4 => split <;> simp
    case h_5 => simp

@[simp] theorem agentSide_proceed (seg line : Nat) (t : Trans) (s : State) : agentSide (proceed seg line t s) = agentSide s := by
  unfold proceed
  simp only
  split <;> simp

@[simp] theorem agentSide_answered (seg line agent : Nat) (s : State) : agentSide (answered seg line agent s) = agentSide s := by
  unfold answered
  simp only
  split
  · rfl
  · split
    · rfl
    · split <;> simp

/-! ### Reclaim -/

theorem agentSide_reclaimLine (seg line a : Nat) (s : State) : agentSide (reclaimLine seg line a s) = agentSide s := by
  unfold reclaimLine
  extract_lets h h0 s0 s1 h1
  have hs1 : agentSide s1 = agentSide s := by
    unfold s1
    split
    · rfl
    · split
      · exact agentSide_endTrans seg line s0
      · refine agentSide_ite ?_ rfl
        exact agentSide_ite (by simp [s0]) (agentSide_ite (by simp [s0]) (by simp [s0]))
  split
  · exact hs1
  · split
    · exact agentSide_ite (by simpa using hs1) hs1
    · exact hs1
    · exact hs1

@[simp] theorem agentSide_finishReset (seg : Nat) (s : State) : agentSide (finishReset seg s) = agentSide s := by
  unfold finishReset
  simp only
  exact agentSide_ite rfl ((agentSide_setUState _ _ _ _).trans rfl)

@[simp] theorem agentSide_reclaimAt (a : Nat) (s : State) (seg : Nat) : agentSide (reclaimAt a s seg) = agentSide s := by
  unfold reclaimAt
  extract_lets g s1 s2 g2
  have hs2 : agentSide s2 = agentSide s :=
    (foldl_keeps agentSide (fun t _ => agentSide_reclaimLine seg _ a t) _ s1).trans (agentSide_setSegSt _ _ s)
  refine agentSide_ite (agentSide_ite ?_ hs2) hs2
  exact (agentSide_finishReset _ _).trans hs2

/-- The reclaim of an agent by the homes leaves its copies gone and the agent dead (R342, R343). -/
theorem agentSide_agentDead (a : Nat) (s : State) : agentSide (agentDead a s)
    = (s.felt.copies.filter fun e => decide (e.1 / 0x4000000000 ≠ a), setAdd a s.felt.dead) :=
  foldl_keeps agentSide (agentSide_reclaimAt a) _ _

theorem mem_setAdd (a : Nat) (l : List Nat) : a ∈ setAdd a l := by
  unfold setAdd
  split
  · simpa using ‹l.contains a = true›
  · exact List.mem_cons_self

theorem not_mem_setDel (a : Nat) (l : List Nat) : a ∉ setDel a l := by simp [setDel]

@[simp] theorem segSt_setSegSt_same (seg : Nat) (v : SegSt) (s : State) : segSt (setSegSt seg v s) seg = v := sget_sput_same _ _ _ _

theorem segSt_congr {t s : State} (h : t.felt = s.felt) (seg : Nat) : segSt t seg = segSt s seg :=
  congrArg (fun f : FeltSt => sget (fun _ => ({} : SegSt)) f.segs seg) h

theorem bitOf_eq_getLsbD (w : Word) (n : Nat) : bitOf w n = w.getLsbD n := by
  rw [BitVec.getLsbD, Nat.testBit_eq_decide_div_mod_eq]
  rfl

/-- An event that has risen is set in EVT_STAT (R80). -/
theorem bitOf_event {n : Nat} (hn : n < 32) (p : Nat) (s : State) : bitOf (rd (event p n s) p 0x10) n = true := by
  have hset : (oneBit n).getLsbD n = true := by
    rw [oneBit, BitVec.getLsbD_ofNat, Nat.testBit_two_pow_self, decide_eq_true hn, Bool.and_true]
  have h := congrArg (·.getLsbD n) (rd_raiseEvt_and p (oneBit n) s)
  simp only [BitVec.getLsbD_and, BitVec.getLsbD_or, hset, Bool.or_true, Bool.and_true] at h
  rw [bitOf_eq_getLsbD]
  exact h

end Sys2Proof.Machine
end

section
/-! PROOFS. The statement on dead agents, their reclaim and return, and segment resets. -/

namespace Sys2Proof.Machine

/-- Settles O28: what the agents hold after AGENT_DEAD by the frame of the homes' reclaim, the rest from what each command writes. -/
theorem deadAgentsAreReclaimed : Obligations.DeadAgentsAreReclaimed := by
  unfold Obligations.DeadAgentsAreReclaimed
  refine ⟨fun s a ha hd => ?_, fun s seg a hseg hr => ?_, fun s a hd hr => ?_, fun s seg u hseg hr => ?_, fun s seg u hr => ?_⟩
  · obtain ⟨hcopies, hdead⟩ := Prod.mk.inj (agentSide_agentDead a s)
    have hexists : ¬(11 ≤ a ∨ s.felt.dead.contains a = true) := by
      simp only [Nat.not_le.mpr ha, hd, Bool.false_eq_true, or_self, not_false_eq_true]
    refine ⟨agentDead a s, if_neg hexists, rfl, ?_, fun e he => ?_⟩
    · rw [hdead]
      exact mem_setAdd a _
    · rw [hcopies] at he
      exact of_decide_eq_true (List.mem_filter.mp he).2
  · have hpending : ¬(96 ≤ seg ∨ (!(segSt s seg).reclaim.contains a) = true) := by
      simp only [Nat.not_le.mpr hseg, hr, Bool.not_true, Bool.false_eq_true, or_self, not_false_eq_true]
    refine ⟨_, if_neg hpending, ?_, bitOf_event (by decide) _ _, event_mem _ _ _⟩
    rw [segSt_congr (event_felt _ _ _), segSt_setSegSt_same]
  · have hready : ¬((!s.felt.dead.contains a) = true ∨ ((List.range 96).any fun g => (segSt s g).reclaim.contains a) = true) := by
      simpa only [hd, Bool.not_true, Bool.false_eq_true, false_or, List.any_eq_true, List.mem_range, not_exists, not_and,
        Bool.not_eq_true] using hr
    exact ⟨_, if_neg hready, not_mem_setDel a _, sget_sput_same _ _ _ _, rfl⟩
  · exact if_neg (by simp [Nat.not_le.mpr hseg, hr])
  · exact if_pos (.inr hr)

end Sys2Proof.Machine
end

section
/-! SUPPORT. Memory controllers (07_felt.md R313; 09_device_memory.md R399, R400, R404, R406, R414): their counts, records and poison
marks leave memory's bytes and the Felt alone, and a write puts exactly its bytes into memory. -/

namespace Sys2Proof.Machine

/-! ### Messages taken -/

theorem takeFirst_mem {α : Type} {p : α → Bool} {l rest : List α} {a : α} (h : takeFirst p l = some (a, rest)) :
    p a = true ∧ ∀ x ∈ rest, x ∈ l := by
  induction l generalizing rest with
  | nil => cases h
  | cons b l ih =>
    unfold takeFirst at h
    split at h
    case isTrue hb =>
      cases h
      exact ⟨hb, fun x hx => List.mem_cons_of_mem _ hx⟩
    case isFalse =>
      split at h
      case h_1 c l' hl =>
        cases h
        obtain ⟨ha, hsub⟩ := ih hl
        refine ⟨ha, fun x hx => ?_⟩
        rcases List.mem_cons.mp hx with rfl | hx
        · exact List.mem_cons_self
        · exact List.mem_cons_of_mem _ (hsub x hx)
      case h_2 => cases h

/-- Taking a message changes nothing but the net, which holds no message that it did not hold before. -/
theorem takeMsg_net {k : FMsgKind} {seg line agent : Nat} {s s1 : State} {m : FMsg} (h : takeMsg k seg line agent s = some (m, s1)) :
    ∃ rest, s1 = { s with felt := { s.felt with net := rest } } ∧ ∀ x ∈ rest, x ∈ s.felt.net := by
  unfold takeMsg at h
  split at h
  case h_1 m rest hm =>
    cases h
    exact ⟨rest, rfl, (takeFirst_mem hm).2⟩
  case h_2 => cases h

/-! ### What leaves memory's bytes and the Felt alone -/

/-- Memory's bytes and the Felt are as they were. -/
structure SameData (t s : State) : Prop where
  mem : t.mem = s.mem
  felt : t.felt = s.felt

theorem SameData.refl (s : State) : SameData s s := ⟨rfl, rfl⟩
theorem SameData.trans {t u s : State} (h : SameData t u) (k : SameData u s) : SameData t s := ⟨h.mem.trans k.mem, h.felt.trans k.felt⟩
theorem Recorded.sameData {t s : State} (h : Recorded t s) : SameData t s := ⟨h.mem, h.felt⟩
theorem Quiet.sameData {t s : State} (h : Quiet t s) : SameData t s := ⟨h.mem, h.felt⟩

theorem SameData.foldl {α : Type} {f : State → α → State} (hf : ∀ t x, SameData (f t x) t) (l : List α) (s : State) :
    SameData (l.foldl f s) s :=
  ⟨foldl_keeps State.mem (fun t x => (hf t x).mem) l s, foldl_keeps State.felt (fun t x => (hf t x).felt) l s⟩

theorem sameData_addProg (p i n : Nat) (s : State) : SameData (addProg p i n s) s := (quiet_addProg p i n s).sameData
theorem sameData_satInc (p o n : Nat) (s : State) : SameData (satInc p o n s) s := (quiet_satInc p o n s).sameData
theorem sameData_setMemCtl (d : Nat) (m : MemCtl) (s : State) : SameData (setMemCtl d m s) s := ⟨rfl, rfl⟩

/-- The access counters count in the controllers' own tables (R416). -/
theorem sameData_countAccess (pa : Nat) (s : State) : SameData (countAccess pa s) s := by
  unfold countAccess
  split
  case h_1 => split <;> exact ⟨rfl, rfl⟩
  case h_2 => split <;> exact ⟨rfl, rfl⟩
  case h_3 =>
    simp only
    split
    · split <;> exact ⟨rfl, rfl⟩
    · exact .refl s
  case h_4 => exact .refl s

/-- An uncorrectable read is recorded in registers (R399, R404). -/
theorem sameData_controllerUe (sector : Nat) (s : State) : SameData (controllerUe sector s) s := by
  unfold controllerUe
  simp only
  split
  · exact (recorded_captureErr _ _ _).sameData.trans ((quiet_event _ _ _).sameData.trans ((quiet_wr _ _ _ _).sameData.trans
      ((sameData_satInc _ _ _ _).trans ⟨rfl, rfl⟩)))
  · exact (recorded_captureErr _ _ _).sameData.trans ((quiet_event _ _ _).sameData.trans ((sameData_satInc _ _ _ _).trans
      ((sameData_addProg _ _ _ _).trans (sameData_satInc _ _ _ s))))
  · exact .refl s

theorem sameData_countCorrected (die : Nat) (far : Bool) (n : Nat) (s : State) : SameData (countCorrected die far n s) s := by
  unfold countCorrected
  split
  · exact .refl s
  · split
    · exact sameData_satInc _ _ _ s
    · exact (sameData_addProg _ _ _ _).trans (sameData_satInc _ _ _ s)

/-- Marking a sector as poisoned writes markers and lists, no byte (R400, R406). -/
theorem sameData_setMemPoison (sector : Nat) (on : Bool) (s : State) : SameData (setMemPoison sector on s) s := by
  unfold setMemPoison
  split
  case h_1 => exact ⟨rfl, rfl⟩
  case h_2 d _ _ =>
    simp only
    split
    · exact sameData_setMemCtl _ _ s
    · split
      · exact .refl s
      · split
        · exact SameData.trans ⟨setUState_mem _ _ _ _, setUState_felt _ _ _ _⟩ ((quiet_event _ _ _).sameData.trans
            ((recorded_captureErr _ _ _).sameData.trans (sameData_setMemCtl _ _ s)))
        · exact sameData_setMemCtl _ _ s
  case h_3 => exact .refl s

/-- The controller's counts of one access (R416). -/
theorem sameData_countedAccess (pa n : Nat) (s : State) :
    SameData (addProg (ctlPage pa) 1 n (addProg (ctlPage pa) 0 1 (countAccess pa s))) s :=
  (sameData_addProg _ _ _ _).trans ((sameData_addProg _ _ _ _).trans (sameData_countAccess pa s))

/-! ### MEMRD -/

theorem landWrites_none {line : Nat} {s : State} (h : ∀ x ∈ s.felt.net, x.writes line = false) : landWrites line s = s := by
  have hnone : s.felt.net.filter (FMsg.writes line) = [] := List.filter_eq_nil_iff.mpr fun x hx => by simp [h x hx]
  rw [landWrites, hnone]

/-- The answer to a MEMRD: the bytes memory holds of the sectors asked for, and those poisoned or uncorrectable (R399, R406). -/
def memAnswer (seg line : Nat) (ue sectors : List Nat) (s : State) : FMsg :=
  { kind := .memData, seg := seg, line := line, sectors := sectors,
    poison := sectors.filter fun i => memPoison s (line * 4 + i) || ue.contains i,
    data := sectors.flatMap fun i => cellsOfSector (fun o => rdMem s (line * 1024 + o)) i }

theorem execMemrd_answered {seg line ce : Nat} {ue : List Nat} {s s1 : State} {m : FMsg}
    (h : takeMsg .memRd seg line 0 s = some (m, s1)) (hw : ∀ x ∈ s1.felt.net, x.writes line = false)
    (hb : backed s (line * 1024) = true ∨ inTier (line * 1024) = true) :
    ∃ u, SameData u s1 ∧ execMemrd seg line ue ce s = .next (send (memAnswer seg line ue m.sectors s1) u) := by
  have hserved : ¬((!backed s (line * 1024)) = true ∧ (!inTier (line * 1024)) = true) := by
    rintro ⟨hnb, hnt⟩
    rcases hb with hb | hb
    · rw [hb] at hnb; cases hnb
    · rw [hb] at hnt; cases hnt
  unfold execMemrd
  simp only [h, if_neg hserved, landWrites_none hw]
  refine ⟨_, (sameData_countedAccess _ _ _).trans ?_, rfl⟩
  have hue (l : List Nat) : SameData (l.foldl (fun t i => controllerUe (line * 4 + i) t) s1) s1 :=
    .foldl (fun t _ => sameData_controllerUe _ t) l s1
  split
  · exact (sameData_countCorrected _ _ _ _).trans (hue _)
  · exact (sameData_countCorrected _ _ _ _).trans ((sameData_addProg _ _ _ _).trans (hue _))
  · exact hue _

/-- A MEMRD of an address no tier backs is the model's stop. -/
theorem execMemrd_unbacked {seg line ce : Nat} {ue : List Nat} {s s1 : State} {m : FMsg}
    (h : takeMsg .memRd seg line 0 s = some (m, s1)) (hb : backed s (line * 1024) = false) (ht : inTier (line * 1024) = false) :
    execMemrd seg line ue ce s = .fault (.unbackedAddress (line * 1024)) := by
  simp only [execMemrd, h, hb, ht, Bool.not_false, and_self, if_true]

/-! ### MEMWR -/

theorem rdMem_congr {t s : State} (h : t.mem = s.mem) (a : Nat) : rdMem t a = rdMem s a := congrArg (sget memDefault · a) h

/-- Cells written one after another at a base address. -/
def wrCells (base : Nat) (cells : List Cell) (s : State) : State := cells.foldl (fun t c => wrMem (base + c.1) c.2 t) s

theorem wrCells_felt (base : Nat) (cells : List Cell) (s : State) : (wrCells base cells s).felt = s.felt :=
  foldl_keeps (f := fun t (c : Cell) => wrMem (base + c.1) c.2 t) State.felt (fun _ _ => rfl) cells s

/-- A byte that no cell names stays. -/
theorem rdMem_wrCells_out {base a : Nat} {cells : List Cell} (s : State) (h : ∀ c ∈ cells, base + c.1 ≠ a) :
    rdMem (wrCells base cells s) a = rdMem s a := by
  induction cells generalizing s with
  | nil => rfl
  | cons c l ih =>
    exact (ih _ fun x hx => h x (List.mem_cons_of_mem _ hx)).trans (rdMem_wrMem_ne s c.2 (h c List.mem_cons_self).symm)

/-- A cell whose offset has one value in the list is in memory. -/
theorem rdMem_wrCells_in {base : Nat} {cells : List Cell} (s : State) {c : Cell} (hc : c ∈ cells)
    (huniq : ∀ c' ∈ cells, c'.1 = c.1 → c'.2 = c.2) : rdMem (wrCells base cells s) (base + c.1) = c.2 := by
  induction cells generalizing s with
  | nil => cases hc
  | cons d l ih =>
    by_cases hl : ∃ c' ∈ l, c'.1 = c.1
    case pos =>
      obtain ⟨c', hc', hoff⟩ := hl
      have hcl : c' = c := Prod.ext hoff (huniq c' (List.mem_cons_of_mem _ hc') hoff)
      exact ih _ (hcl ▸ hc') fun x hx => huniq x (List.mem_cons_of_mem _ hx)
    case neg =>
      have hd : d = c := ((List.mem_cons.mp hc).resolve_right fun h => hl ⟨c, h, rfl⟩).symm
      subst hd
      have hout := rdMem_wrCells_out (base := base) (wrMem (base + d.1) d.2 s) (a := base + d.1) (cells := l)
        fun x hx e => hl ⟨x, hx, Nat.add_left_cancel e⟩
      exact hout.trans (rdMem_wrMem_same s _ _)

/-- A write of sectors puts its cells into memory and marks the sectors. -/
theorem sameData_writeSectors (line : Nat) (sectors poison : List Nat) (data : List Cell) (s : State) :
    SameData (writeSectors line sectors poison data s) (wrCells (line * 1024) data s) :=
  .foldl (fun t _ => sameData_setMemPoison _ _ t) sectors _

/-- A controller takes the MEMWR of a backed address: its cells are in memory, and a FLUSH is accepted by GO (R400, R414). -/
theorem takeMemWr_backed {m : FMsg} {s : State} (hb : backed s (m.line * 1024) = true) :
    ∃ u, SameData u (wrCells (m.line * 1024) m.data s) ∧ takeMemWr m s = if m.owned then
      send { kind := .go, seg := m.seg, line := m.line, agent := m.agent, stream := m.stream } u else u := by
  unfold takeMemWr
  simp only [hb, if_true]
  exact ⟨_, (sameData_countedAccess _ _ _).trans (sameData_writeSectors _ _ _ _ s), rfl⟩

section
variable {seg line : Nat} {s : State} {m : FMsg} {rest : List FMsg}
  (h : takeFirst (fun m : FMsg => decide (m.kind = .memWr) && m.seg == seg && m.line == line) s.felt.net = some (m, rest))
include h

theorem execMemwr_taken (hb : backed s (line * 1024) = true) :
    execMemwr seg line s = .next (takeMemWr m { s with felt := { s.felt with net := rest } }) := by
  simp only [execMemwr, h, hb, Bool.not_true, Bool.false_eq_true, false_and, if_false]

/-- A MEMWR of an address no tier backs is the model's stop. -/
theorem execMemwr_unbacked (hb : backed s (line * 1024) = false) (ht : inTier (line * 1024) = false) :
    execMemwr seg line s = .fault (.unbackedAddress (line * 1024)) := by
  simp only [execMemwr, h, hb, ht, Bool.not_false, and_self, if_true]

end

end Sys2Proof.Machine
end

section
/-! PROOFS. The statement on reads and writes at the memory controllers. -/

namespace Sys2Proof.Machine

/-- Settles O30: MEMRD's answer is put in flight over unchanged data, MEMWR writes its cells, and both stop at an address no tier
backs. -/
theorem memoryControllersReadAndWriteSectors : Obligations.MemoryControllersReadAndWriteSectors := by
  unfold Obligations.MemoryControllersReadAndWriteSectors
  refine ⟨fun s s1 seg line ce ue m h hw hb => ?_, fun s seg line m rest h hb => ?_,
    fun s s1 seg line ce ue m h hb ht => execMemrd_unbacked h hb ht,
    fun s seg line m rest h hb ht => execMemwr_unbacked h hb ht⟩
  · obtain ⟨rest, rfl, hsub⟩ := takeMsg_net h
    obtain ⟨u, hu, he⟩ := execMemrd_answered (ue := ue) (ce := ce) h (fun x hx => hw x (hsub x hx)) hb
    have hlines : u.felt.lines = s.felt.lines := by rw [hu.felt]
    exact ⟨_, he, hu.mem, hlines, inNet_send u rfl rfl rfl rfl rfl ⟨rfl, rfl, rfl⟩⟩
  · obtain ⟨hm, -⟩ := takeFirst_mem h
    simp only [Bool.and_eq_true, beq_iff_eq] at hm
    obtain ⟨⟨-, rfl⟩, rfl⟩ := hm
    obtain ⟨u, hu, he⟩ := takeMemWr_backed (m := m) (s := { s with felt := { s.felt with net := rest } }) hb
    have hlines : u.felt.lines = s.felt.lines := by
      rw [hu.felt, wrCells_felt]
    have hread (a : Nat) : rdMem (takeMemWr m { s with felt := { s.felt with net := rest } }) a
        = rdMem (wrCells (m.line * 1024) m.data { s with felt := { s.felt with net := rest } }) a := by
      refine (rdMem_congr ?_ a).trans (rdMem_congr hu.mem a)
      rw [he]
      split <;> rfl
    refine ⟨_, execMemwr_taken h hb, ?_, fun c hc huniq => (hread _).trans (rdMem_wrCells_in _ hc huniq),
      fun a ha => (hread a).trans (rdMem_wrCells_out _ ha), fun ho => ?_⟩
    · rw [he]
      split <;> exact hlines
    · rw [he, if_pos ho]
      exact inNet_send u rfl rfl rfl rfl rfl trivial

end Sys2Proof.Machine
end

section
/-! SUPPORT. Segments that move, change their ways and drop replicas (07_felt.md R298, R348, R351, R354). -/

namespace Sys2Proof.Machine

theorem segUnit_congr {t s : State} (h : t.org.bindSeg = s.org.bindSeg) (seg : Nat) : segUnit t seg = segUnit s seg :=
  congrArg (sget (fun k => k % 12) · seg) h

theorem quiet_pounceDone (subst : Bool) (s : State) : Quiet (pounceDone subst s) s := by
  unfold pounceDone
  refine (quiet_addProg _ _ _ _).trans ((quiet_event _ _ _).trans ?_)
  split
  · exact quiet_wr _ _ _ s
  · exact .refl s

/-- A change of the DIST table leaves the bindings of segments and the Felt as they were (R52). -/
theorem distUpdate_bindSeg (changes : List (Nat × Word)) (s : State) : (distUpdate changes s).org.bindSeg = s.org.bindSeg := by
  simp [distUpdate]

theorem distUpdate_felt (changes : List (Nat × Word)) (s : State) : (distUpdate changes s).felt = s.felt := by
  simp [distUpdate]

/-- After its replicas are dropped a segment holds none. -/
theorem replicasIn_dropReplicas (die seg : Nat) (s : State) : replicasIn (dropReplicas die seg s) die seg = [] :=
  List.filter_eq_nil_iff.mpr fun e he => by
    simpa only [Bool.not_eq_true', Bool.not_eq_true] using (List.mem_filter.mp he).2

theorem rd_setSegSt (seg : Nat) (v : SegSt) (s : State) (p o : Nat) : rd (setSegSt seg v s) p o = rd s p o := rfl

/-! ### SEG_MIGRATE (R348) -/

/-- SEG_MIGRATE as it reads once a move to `target` has begun: ACTIVE, with no set moved. -/
def moveShown (d u target : Nat) (s : State) : State :=
  wr (pSegment d u) 0x10C (BitVec.ofNat 32 (target + 64)) (wr (pSegment d u) 0x110 0 s)

section
variable {s : State} {d u seg : Nat} (hd : d < 8) (hu : u < 13) (hl : logicalSeg s d u = some seg)
include hd hu hl

/-- SEG_MIGRATE of an active segment to a unit in SPARE, with room in the wear record, begins the move. -/
theorem execSegMigrate_begins {target : Nat} (ht : target ≤ 32) (ht' : 20 ≤ target)
    (ha : (unitSt s (pSegment d u)).state = .active) (hs : (unitSt s (pageOf d target 0)).state = .spare) (hw : wearFull s = false) :
    ∃ v : State, execSegMigrate d u target s
      = .next (setSegSt seg { segSt (moveShown d u target v) seg with migTo := some (target - 20) } (moveShown d u target v)) := by
  have hrange : ¬(8 ≤ d ∨ 13 ≤ u ∨ target < 20 ∨ 32 < target) := by omega
  simp only [execSegMigrate, if_neg hrange, hl, ha, hs, hw, ne_eq, not_true, Bool.false_eq_true, or_self, if_false]
  exact ⟨_, rfl⟩

/-- Once its last set has moved, the logical segment is bound to the new unit and no longer migrates. -/
theorem execSegmentMigrateDone_moved {tt : Nat} (hm : (segSt s seg).migTo = some tt) : ∃ v : State,
    execSegmentMigrateDone d u s = .next v ∧ segUnit v seg = tt ∧ (segSt v seg).migTo = none := by
  have hrange : ¬(8 ≤ d ∨ 13 ≤ u) := by omega
  simp only [execSegmentMigrateDone, if_neg hrange, hl, hm]
  refine ⟨_, rfl, ?_, ?_⟩
  · rw [segUnit_congr (distUpdate_bindSeg _ _), segUnit, tickFree_org, (quiet_pounceDone _ _).org, event_org, setUState_org, setUnit_org]
    exact sget_sput_same _ _ _ _
  · rw [segSt_congr (distUpdate_felt _ _), segSt_congr (tickFree_felt _ _), segSt_congr (quiet_pounceDone _ _).felt,
      segSt_congr (event_felt _ _ _), segSt_congr (setUState_felt _ _ _ _), segSt_congr (setUnit_felt _ _ _), segSt_setSegSt_same]

/-! ### Ways (R298) -/

/-- The division written is in force once the ways are empty; replicas of ways that leave replica use are dropped first. -/
theorem execWayChangeDone_inForce (hb : bitOf (rd s (pSegment d u) 0x104) 7 = true)
    (hbuf : bufferedUnits s seg ≤ fld (rd s (pSegment d u) 0x100) 6 4 * 2048) : execWayChangeDone d u s
      = .next (wr (pSegment d u) 0x104 (rd s (pSegment d u) 0x100 &&& 0x7F)
          (if fld (rd s (pSegment d u) 0x100) 3 0 < fld (rd s (pSegment d u) 0x104) 3 0 then dropReplicas d seg s else s)) := by
  have hrange : ¬(8 ≤ d ∨ 13 ≤ u) := by omega
  simp only [execWayChangeDone, if_neg hrange, hb, hl, if_neg (Nat.not_lt.mpr hbuf), Bool.not_true, Bool.false_eq_true, if_false,
    decide_eq_true_eq]
  split <;> rfl

end

section
variable {d u : Nat} (hd : d < 8) (hu : u < 13) (w : Word) (s : State)
include hd hu

/-- A division within the limits is stored, and the change begins. -/
theorem execSegCfgWrite_begins (h : fld w 3 0 ≤ 8 ∧ fld w 6 4 ≤ 4 ∧ fld w 3 0 + fld w 6 4 ≤ 12) : execSegCfgWrite d u w s
    = .next (wr (pSegment d u) 0x104 (rd s (pSegment d u) 0x104 ||| 0x80) (wr (pSegment d u) 0x100 (w &&& 0x7F) s)) := by
  have hrange : ¬(8 ≤ d ∨ 13 ≤ u) := by omega
  have hlimits : ¬(8 < fld w 3 0 ∨ 4 < fld w 6 4 ∨ 12 < fld w 3 0 + fld w 6 4) := by omega
  simp only [execSegCfgWrite, if_neg hrange, if_neg hlimits]

/-- A division outside the limits only raises BAD_CFG. -/
theorem execSegCfgWrite_bad (h : 8 < fld w 3 0 ∨ 4 < fld w 6 4 ∨ 12 < fld w 3 0 + fld w 6 4) :
    execSegCfgWrite d u w s = .next (event (pSegment d u) 6 s) := by
  have hrange : ¬(8 ≤ d ∨ 13 ≤ u) := by omega
  simp only [execSegCfgWrite, if_neg hrange, if_pos h]

end

/-! ### REP_FLUSH (R354) -/

theorem execRepFlush_drops {s : State} {d u seg : Nat} (hl : logicalSeg s d u = some seg) :
    execRepFlush d u s = .next (dropReplicas d seg s) := by
  rw [execRepFlush, hl]

end Sys2Proof.Machine
end

section
/-! PROOFS. The statement on segments that migrate and change their ways. -/

namespace Sys2Proof.Machine

/-- Settles O29: each command from the state it answers, whose registers and bindings are read back. -/
theorem segmentsMigrateAndRedivide : Obligations.SegmentsMigrateAndRedivide := by
  unfold Obligations.SegmentsMigrateAndRedivide
  refine ⟨fun s d u target seg hd hu ht ht' hl ha hs hw => ?_, fun s d u seg tt hd hu hl hm => execSegmentMigrateDone_moved hd hu hl hm,
    fun s d u w hd hu h h' h'' => ?_,
    fun s d u w hd hu h => execSegCfgWrite_bad hd hu w s h, fun s d u seg hd hu hl hb hbuf => ?_,
    fun s d u seg hl => ?_⟩
  · obtain ⟨v, he⟩ := execSegMigrate_begins hd hu hl ht ht' ha hs hw
    refine ⟨_, he, ?_, ?_, ?_⟩
    · rw [segSt_setSegSt_same]
    · exact (rd_setSegSt _ _ _ _ _).trans (rd_wr_same _ _ _ _)
    · exact (rd_setSegSt _ _ _ _ _).trans ((rd_wr_off _ _ (by decide) (by decide) (by decide)).trans (rd_wr_same _ _ _ _))
  · refine ⟨_, execSegCfgWrite_begins hd hu w s ⟨h, h', h''⟩, ?_, ?_, ?_⟩
    · exact (rd_wr_off _ _ (by decide) (by decide) (by decide)).trans (rd_wr_same _ _ _ _)
    · rw [rd_wr_same]
    · rw [wr_felt, wr_felt]
  · refine ⟨_, execWayChangeDone_inForce hd hu hl hb hbuf, rd_wr_same _ _ _ _, ?_, fun hless => ?_⟩
    · rw [wr_mem]
      split <;> rfl
    · rw [if_pos hless]
      exact replicasIn_dropReplicas d seg s
  · refine ⟨_, execRepFlush_drops hl, ?_, rfl⟩
    exact replicasIn_dropReplicas d seg s

end Sys2Proof.Machine
end

section
/-! SUPPORT. Commands that the dispatcher hands to the engines (10_translation.md R468 to R470, 11_submission.md R494, R495, R510,
13_collectives.md R584 to R629): what a unit does with a command it can take, and what taking it leaves. -/

namespace Sys2Proof.Machine

/-! ### A unit takes a command -/

/-- A waiting command that its unit answers is worked on while the dispatcher runs. -/
theorem withCmd_runs {s : State} {ring seq opc : Nat} {c : Cmd} {p : Cmd → Bool} {f : Cmd → State}
    (hw : waitingCmd s ring seq opc = some c) (hr : dispRuns s = true) (hp : p c = true) :
    withCmd ring seq opc s p f = .next (f c) := by
  simp only [withCmd, hw, hr, hp, Bool.and_self, if_true]

@[simp] theorem takeCmd_xfer (c : Cmd) (s : State) : (takeCmd c s).xfer = s.xfer := rfl
@[simp] theorem takeCmd_mem (c : Cmd) (s : State) : (takeCmd c s).mem = s.mem := rfl
@[simp] theorem addMsgs_mem (l : List Msg) (s : State) : (addMsgs l s).mem = s.mem := rfl

/-- A command that its unit has taken is launched. -/
theorem launched_of_mem_takeCmd {c x : Cmd} {s : State} (hx : x ∈ (takeCmd c s).disp.cmds) (hr : x.ring = c.ring)
    (hn : x.no = c.no) : x.launched = true := by
  obtain ⟨y, -, rfl⟩ := List.mem_map.mp hx
  by_cases hy : y.ring = c.ring ∧ y.no = c.no
  · rw [if_pos hy]
  · rw [if_neg hy] at hr hn
    exact absurd ⟨hr, hn⟩ hy

theorem addMsgs_length (l : List Msg) (s : State) : (addMsgs l s).xfer.msgs.length = s.xfer.msgs.length + l.length := by
  simp only [addMsgs, List.length_append, List.length_map, List.length_zipIdx]

/-! ### COPY (R494, R606) -/

/-- A COPY's message to the engines of a die, of the kind that its mode gives. -/
def copyMsg (c : Cmd) (kind : MsgKind) (d : Nat) : Msg :=
  { msgOf c kind d none with src := bytesAt c.raw 16 8, dst := bytesAt c.raw 24 8, len := c.fld 32 39 0, pattern := bytesAt c.raw 44 4 }

/-- A COPY whose die is found and has an engine with room becomes one message of that die. -/
theorem copyStart_taken {c : Cmd} {s s1 : State} {d : Nat} {kind : MsgKind}
    (hkind : (if c.fld 40 1 0 = 0 then MsgKind.copy else if c.fld 40 1 0 = 1 then .flush else .fill) = kind)
    (hd : copyDie c s = .ok d s1) (ha : dieAvail s1 d = .go) :
    copyStart c s = takeCmd c (addMsgs [copyMsg c kind d] (dropHeld pDispatch c.ring s1)) := by
  simp only [copyStart, hd, ha, hkind, copyMsg]

/-! ### PUT, GET and SIGNAL (R495, R584, R587, R629) -/

/-- A transfer's message on the engine of its source queue. -/
def queuedMsg (c : Cmd) (q : Nat) (m : Msg) : Msg :=
  { m with die := q % 8, engine := some (q / 8), node := c.fld 40 11 0, queue := q, counter := c.fld 40 27 18,
           countEn := nbit (bytesAt c.raw 40 4) 28, holdMs := bytesAt c.raw 44 2 }

/-- What a PUT asks for, apart from its queue. -/
def putMsg (c : Cmd) : Msg :=
  { msgOf c .put 0 none with src := bytesAt c.raw 16 8, dst := bytesAt c.raw 24 8, len := c.fld 32 39 0 }

/-- What a GET asks for: its source is the peer's address. -/
def getMsg (c : Cmd) : Msg :=
  { msgOf c .get 0 none with src := bytesAt c.raw 24 8, dst := bytesAt c.raw 16 8, len := c.fld 32 39 0 }

/-- What a SIGNAL asks for: the peer's flag and its value. -/
def signalMsg (c : Cmd) : Msg :=
  { msgOf c .signal 0 none with dst := bytesAt c.raw 24 8, pattern := bytesAt c.raw 32 8 }

section
variable {c : Cmd} {s : State} {q : Nat} (m : Msg) (hq : q = c.fld 40 17 12) (ha : queueAvail s q = .go)
include hq ha

/-- A transfer of a slice with fabric rights becomes one message of its queue's engine. -/
theorem transferStart_taken (hf : fabEn s (pCopyEngine (q % 8) (q / 8)) c.slice = true) :
    transferStart c m s = takeCmd c (addMsgs [queuedMsg c q m] s) := by
  subst hq
  simp only [transferStart, ha, hf, Bool.not_true, Bool.false_eq_true, if_false, queuedMsg]

/-- A transfer of a slice without fabric rights fails on the engine's page. -/
theorem transferStart_noRights (hf : fabEn s (pCopyEngine (q % 8) (q / 8)) c.slice = false) :
    transferStart c m s = unitFail c (pCopyEngine (q % 8) (q / 8)) 0x13 0x03 s := by
  subst hq
  simp only [transferStart, ha, hf, Bool.not_false, if_true]

end

/-! ### DIRTYLOG (R468 to R470) -/

/-- One die's share of a DIRTYLOG: its bitmap, copied to its place in the command's buffer. -/
def dirtyShare (s : State) (c : Cmd) (sl d : Nat) : Msg :=
  { msgOf c (.dirty (nbit (bytesAt c.raw 24 4) 7) sl) d none with
    src := rd64B s sl (dlPage d) 0x108, dst := bytesAt c.raw 16 8 + 196608 * d, len := 196608 }

/-- A DIRTYLOG that passes its checks puts one share on each die it names, when all of them have room. -/
theorem dirtyStart_taken {c : Cmd} {s : State} {dies : List Nat} {sl : Nat} (hbad : dirtyBad s c = none)
    (hdies : dies = (List.range 8).filter fun d => nbit (bytesAt c.raw 24 4) (8 + d)) (hroom : ∀ d ∈ dies, dieAvail s d = .go)
    (hsl : sl = if nbit (bytesAt c.raw 24 4) 6 then nfld (bytesAt c.raw 24 4) 5 0 else c.slice) :
    dirtyStart c s = takeCmd c (addMsgs (dies.map (dirtyShare s c sl)) s) := by
  have hnone (a : Avail) (h : Avail.go ≠ a) : ¬(dies.any fun d => decide (dieAvail s d = a)) = true := by
    simp only [List.any_eq_true, decide_eq_true_eq, not_exists, not_and]
    exact fun d hd => hroom d hd ▸ h
  subst hdies hsl
  simp only [dirtyStart, hbad, if_neg (hnone .off (by decide)), if_neg (hnone .wait (by decide)), dirtyLen]
  rfl

/-! ### Reads through a holder -/

/-- What follows an access that succeeded goes on from its value and state. -/
@[simp] theorem VRes.bind_ok {α β : Type} (v : α) (s : State) (f : α → State → VRes β) : (VRes.ok v s).bind f = f v s := rfl

/-! ### COLLECTIVE (R610 to R612, R618) -/

/-- Tracking the peers of a plan writes the lag table and, at most, counts and raises an event (R618). -/
theorem trackPeers_plans (d : Nat) (p : Plan) (s : State) : (trackPeers d p s).xfer.plans = s.xfer.plans := by
  simp only [trackPeers, apply_ite State.xfer, event_xfer, satInc_xfer, ite_self]

theorem trackPeers_mem (d : Nat) (p : Plan) (s : State) : (trackPeers d p s).mem = s.mem := by
  simp only [trackPeers, apply_ite State.mem, event_mem, satInc_mem, ite_self]

/-- The state in which a plan stands in its slot. -/
def placePlan (k : Nat) (p : Plan) (s : State) : State :=
  { s with xfer := { s.xfer with plans := sadd s.xfer.plans k p } }

/-- The steps that the bytes of `n` of them spell. -/
abbrev stepsOf (x : List Byte) (n : Nat) : List (PlanStep × Bool) :=
  (List.range n).map fun i => stepOf ((x.drop (32 * i)).take 32)

/-- A COLLECTIVE that is read whole and passes the checks of R612 puts its plan in the free slot of its engine. -/
theorem collectiveStart_taken {c : Cmd} {s s1 s2 s3 : State} {d slot n : Nat} {hd x y : List Byte}
    (hhd : readRange c pDispatch (bytesAt c.raw 16 8) 64 s = .ok (hd, false) s1) (hdie : d = nfld (bytesAt hd 0 4) 10 7) (hd8 : d < 8)
    (hn : n = nfld (bytesAt hd 8 4) 15 0 + 1) (hlen : 64 + 32 * n ≤ bytesAt c.raw 24 4)
    (ha : availOf (pageState s1 (pCollective d)) = .go)
    (hslot : ((List.range 16).find? fun k => (slook s1.xfer.plans (d * 16 + k)).isNone) = some slot)
    (hx : readRange c (pCollective d) (bytesAt c.raw 16 8 + 64) (32 * n) s1 = .ok (x, false) s2)
    (hy : readRange c (pCollective d) (bytesAt hd 16 8) (2 * (nfld (bytesAt hd 4 4) 11 0 + 1)) s2 = .ok (y, false) s3)
    (hok : planBad s3 c hd (stepsOf x n) y (pCollective d) = none) :
    collectiveStart c s = takeCmd c (trackPeers d (planOf c hd ((stepsOf x n).map fun e => e.1) y)
      (placePlan (d * 16 + slot) (planOf c hd ((stepsOf x n).map fun e => e.1) y) (dropHeld pDispatch c.ring s3))) := by
  have hheader : ¬bytesAt c.raw 24 4 < 64 := by omega
  have hbody : ((readRange c (pCollective d) (bytesAt c.raw 16 8 + 64) (32 * n) s1).bind fun x t =>
      (readRange c (pCollective d) (bytesAt hd 16 8) (2 * (nfld (bytesAt hd 4 4) 11 0 + 1)) t).bind fun y t1 => .ok (x, y) t1)
      = .ok ((x, false), (y, false)) s3 := by
    rw [hx, VRes.bind_ok, hy, VRes.bind_ok]
  unfold collectiveStart
  rw [if_neg hheader, hhd]
  simp only []
  rw [if_neg Bool.false_ne_true, ← hdie, ← hn, if_neg (Nat.not_le.mpr hd8), if_neg (Nat.not_lt.mpr hlen), ha, hslot]
  simp only []
  rw [hbody]
  simp only []
  rw [Bool.or_self, if_neg Bool.false_ne_true, hok]
  rfl

end Sys2Proof.Machine
end

section
/-! PROOFS. The statement on commands that the engines take. -/

namespace Sys2Proof.Machine

/-- Settles O40: each command from what its unit does with it once the dispatcher runs; the plan is read back from its slot, for
tracking its peers leaves the plans and memory alone. -/
theorem enginesTakeTheirCommands : Obligations.EnginesTakeTheirCommands := by
  unfold Obligations.EnginesTakeTheirCommands
  refine ⟨fun s s1 ring seq d c hw hr hd ha => ?_, fun s ring seq q c m hr hq ha hf => ?_, fun s ring seq q c hr hq ha hf => ?_,
    fun s l c => ⟨addMsgs_length l s, rfl, fun x hx => launched_of_mem_takeCmd hx⟩,
    fun s ring seq sl c dies hw hr hbad hdies hroom hsl => ?_,
    fun s s1 s2 s3 ring seq d slot n c hd x y hw hr hhd hdie hd8 hn hlen ha hslot hx hy hok => ?_⟩
  · have hmode (e : Nat) {f : Cmd → State} (hm : c.fld 40 1 0 = e) :
        withCmd ring seq 3 s (fun c => c.fld 40 1 0 == e) f = .next (f c) := withCmd_runs hw hr (beq_iff_eq.mpr hm)
    rw [List.forall_mem_cons, List.forall_mem_cons, List.forall_mem_singleton]
    refine ⟨fun h0 => ?copy, fun h1 => ?flush, fun h2 => ?fill⟩
    case copy => exact (hmode 0 h0).trans (congrArg Host.Outcome.next (copyStart_taken (by rw [h0]; rfl) hd ha))
    case flush => exact (hmode 1 h1).trans (congrArg Host.Outcome.next (copyStart_taken (by rw [h1]; rfl) hd ha))
    case fill => exact (hmode 2 h2).trans (congrArg Host.Outcome.next (copyStart_taken (by rw [h2]; rfl) hd ha))
  · rw [List.forall_mem_cons, List.forall_mem_cons, List.forall_mem_singleton]
    have htaken (opc : Nat) (m : Cmd → Msg) (hw : waitingCmd s ring seq opc = some c) :
        withCmd ring seq opc s (fun _ => true) (fun c => transferStart c (m c) s) = .next (takeCmd c (addMsgs [queuedMsg c q (m c)] s)) :=
      (withCmd_runs hw hr rfl).trans (congrArg Host.Outcome.next (transferStart_taken (m c) hq ha hf))
    refine ⟨fun hw hm => ?put, fun hw hm => ?get, fun hw hm => ?signal⟩
    case put => subst hm; exact htaken 4 putMsg hw
    case get => subst hm; exact htaken 5 getMsg hw
    case signal => subst hm; exact htaken 6 signalMsg hw
  · rw [List.forall_mem_cons, List.forall_mem_cons, List.forall_mem_singleton]
    have hfails (opc : Nat) (m : Cmd → Msg) (hw : waitingCmd s ring seq opc = some c) :
        withCmd ring seq opc s (fun _ => true) (fun c => transferStart c (m c) s)
          = .next (unitFail c (pCopyEngine (q % 8) (q / 8)) 0x13 0x03 s) :=
      (withCmd_runs hw hr rfl).trans (congrArg Host.Outcome.next (transferStart_noRights (m c) hq ha hf))
    exact ⟨hfails 4 putMsg, hfails 5 getMsg, hfails 6 signalMsg⟩
  · exact (withCmd_runs hw hr rfl).trans (congrArg Host.Outcome.next (dirtyStart_taken hbad hdies hroom hsl))
  · refine ⟨_, (withCmd_runs hw hr rfl).trans
      (congrArg Host.Outcome.next (collectiveStart_taken hhd hdie hd8 hn hlen ha hslot hx hy hok)), ?_, ?_⟩
    · rw [takeCmd_xfer, trackPeers_plans]
      exact slook_sadd_same _ _ _
    · rw [takeCmd_mem, trackPeers_mem]
      rfl

end Sys2Proof.Machine
end

section
/-! SUPPORT. Doorbells (11_submission.md R482 to R484; 14_slices.md R640): what a write of DB_TAIL and of DB_CQ_HEAD leaves of a ring,
within the queue and beyond it. -/

namespace Sys2Proof.Machine

/-- BAD_DB leaves the dispatcher's state alone (R531). -/
@[simp] theorem badDb_disp (s : State) : (badDb s).disp = s.disp := event_disp _ _ s

/-- A doorbell of another function changes nothing (R640). -/
theorem dbTail_notOwner {s : State} {fn ring : Nat} (v : Nat) (ho : fnOwnsRing s fn ring = false) : dbTail fn ring v s = s := by
  simp only [dbTail, ho, Bool.not_false, or_true, if_true]

theorem dbCqHead_notOwner {s : State} {fn ring : Nat} (v : Nat) (ho : fnOwnsRing s fn ring = false) : dbCqHead fn ring v s = s := by
  simp only [dbCqHead, ho, Bool.not_false, or_true, if_true]

section
variable {s : State} {fn ring v : Nat} (hr : ring < 8192) (ho : fnOwnsRing s fn ring = true)
include hr ho

theorem doorbell_heard : ¬(8192 ≤ ring ∨ (!fnOwnsRing s fn ring) = true) := by
  simpa [ho] using hr

/-- A tail no further from the head than the queue holds is taken, and PEND shows whether a command waits (R483). -/
theorem dbTail_within (h : idxDiff (v % 0x20000) (ringSt s ring).head ≤ ringCapacity (ringSt s ring)) :
    dbTail fn ring v s
      = setRing ring { ringSt s ring with tail := v % 0x20000, pend := decide (v % 0x20000 ≠ (ringSt s ring).head) } s := by
  simp only [dbTail, if_neg (doorbell_heard hr ho), if_neg (Nat.not_lt.mpr h)]

theorem dbTail_beyond (h : ringCapacity (ringSt s ring) < idxDiff (v % 0x20000) (ringSt s ring).head) :
    dbTail fn ring v s = badDb s := by
  simp only [dbTail, if_neg (doorbell_heard hr ho), if_pos h]

/-- A completion head within the records written is taken (R484). -/
theorem dbCqHead_within (h : idxDiff (v % 0x20000) (ringSt s ring).cqHead ≤ idxDiff (ringSt s ring).cqTail (ringSt s ring).cqHead) :
    dbCqHead fn ring v s = setRing ring { ringSt s ring with cqHead := v % 0x20000 } s := by
  simp only [dbCqHead, if_neg (doorbell_heard hr ho), if_neg (Nat.not_lt.mpr h)]

theorem dbCqHead_beyond (h : idxDiff (ringSt s ring).cqTail (ringSt s ring).cqHead < idxDiff (v % 0x20000) (ringSt s ring).cqHead) :
    dbCqHead fn ring v s = badDb s := by
  simp only [dbCqHead, if_neg (doorbell_heard hr ho), if_pos h]

end

/-- Setting a ring gives that ring its value and leaves every other ring and everything else as it was. -/
theorem setRing_sets_only (ring : Nat) (r : Ring) (s : State) : ringSt (setRing ring r s) ring = r
    ∧ (∀ q, q ≠ ring → ringSt (setRing ring r s) q = ringSt s q)
    ∧ setRing ring r s = { s with disp := { s.disp with rings := (setRing ring r s).disp.rings } } :=
  ⟨ringSt_setRing_same ring r s, fun _ hq => ringSt_setRing_ne r s hq, rfl⟩

end Sys2Proof.Machine
end

section
/-! PROOFS. The statement on doorbells. -/

namespace Sys2Proof.Machine

/-- Settles O36: a doorbell sets its ring's index within the queue, raises BAD_DB beyond it, and is not heard from a function that
does not own the ring. -/
theorem doorbellsMoveRingIndices : Obligations.DoorbellsMoveRingIndices := by
  unfold Obligations.DoorbellsMoveRingIndices
  refine ⟨fun s fn ring v hr ho h => ?tail, fun s fn ring v hr ho h => ?tailBeyond, fun s fn ring v ho => ?other,
    fun s fn ring v hr ho h => ?head, fun s fn ring v hr ho h => ?headBeyond⟩
  case tail => exact ⟨_, congrArg Host.Outcome.next (dbTail_within hr ho h), setRing_sets_only ring _ s⟩
  case tailBeyond => exact ⟨_, congrArg Host.Outcome.next (dbTail_beyond hr ho h), rfl, badDb_disp s⟩
  case other => exact ⟨congrArg Host.Outcome.next (dbTail_notOwner v ho), congrArg Host.Outcome.next (dbCqHead_notOwner v ho)⟩
  case head => exact ⟨_, congrArg Host.Outcome.next (dbCqHead_within hr ho h), setRing_sets_only ring _ s⟩
  case headBeyond => exact ⟨_, congrArg Host.Outcome.next (dbCqHead_beyond hr ho h), rfl, badDb_disp s⟩

end Sys2Proof.Machine
end

section
/-! SUPPORT. Ring control (11_submission.md R480, R524 to R527, R530, R860; 15_recovery.md R685): what ENABLE, RESET_IDX, DRAIN and
FORCE_OFF make of a ring, and what ending its commands leaves of its state and generation. -/

namespace Sys2Proof.Machine

/-! ### RING_CTRL reaches the ring its function has selected (R530) -/

theorem ringCtrlBy_allowed {s : State} {fn ring : Nat} (w : Word) (hs : ringSel s fn = ring) (hm : fnMayRing s fn ring = true) :
    ringCtrlBy fn w s = ringCtrl ring w s := by
  subst hs
  rw [ringCtrlBy, if_pos hm]

theorem ringCtrlBy_refused {s : State} {fn : Nat} (w : Word) (hm : fnMayRing s fn (ringSel s fn) = false) :
    ringCtrlBy fn w s = badRing s := by
  rw [ringCtrlBy, hm, if_neg Bool.false_ne_true]

/-! ### ENABLE and RESET_IDX (R524, R527, R860) -/

section
variable {s : State} {ring sl : Nat} (hsl : sliceOfRing s ring = some sl) (hc : (sliceSt s sl).contained = false)
  (hq : quiescing s sl = false)
include hsl hc hq

theorem ringEnable_off (h : (ringSt s ring).state = .off) (resetIdx : Bool) :
    ringEnable ring resetIdx s = enableOff ring sl resetIdx s := by
  simp only [ringEnable, hsl, hc, hq, h, Bool.false_eq_true, if_false]

theorem ringEnable_draining (h : (ringSt s ring).state = .draining) (resetIdx : Bool) :
    ringEnable ring resetIdx s = setRing ring { ringSt s ring with state := .active } s := by
  simp only [ringEnable, hsl, hc, hq, h, Bool.false_eq_true, if_false]

end

/-- A ring as ENABLE of an OFF ring makes it: ACTIVE with the entry read. -/
def enabledRing (e : RingEntry) (r : Ring) : Ring :=
  { r with state := .active, ent := e, pend := decide (r.tail ≠ r.head), enableReq := false, cover := [] }

/-- A ring with its indices at 0 and the sequence number its entry starts with (R527). -/
def resetRing (e : RingEntry) (r : Ring) : Ring := { r with head := 0, tail := 0, cqHead := 0, cqTail := 0, expSeq := e.seq0 }

theorem idxDiff_self (n : Nat) : idxDiff n n = 0 := by
  unfold idxDiff
  omega

/-- An entry that passes the checks takes force in an OFF ring whose indices, reset or not, fit its queue (R860). -/
theorem enableOff_takes {s : State} {ring sl : Nat} {resetIdx : Bool} {r : Ring}
    (hp : cohPoisonN s true (rtBase s + 64 * ring) 64 = false) (hok : ringEntryOk s sl (ringTableBytes s ring) = true)
    (hr : r = if resetIdx then resetRing (ringEntryOf (ringTableBytes s ring)) (ringSt s ring) else ringSt s ring)
    (hroom : idxDiff r.tail r.head ≤ 2 ^ (ringEntryOf (ringTableBytes s ring)).sqLog2) :
    enableOff ring sl resetIdx s = setRing ring (enabledRing (ringEntryOf (ringTableBytes s ring)) r) s := by
  have hpass : ¬(cohPoisonN s true (rtBase s + 64 * ring) 64 || !ringEntryOk s sl (ringTableBytes s ring)
      || decide (2 ^ (ringEntryOf (ringTableBytes s ring)).sqLog2 < idxDiff r.tail r.head)) = true := by
    rw [hp, hok, decide_eq_false (Nat.not_lt.mpr hroom)]
    decide
  subst hr
  exact if_neg hpass

/-! ### DRAIN (R525) -/

@[simp] theorem noteQuietRing_disp (ring : Nat) (s : State) : (noteQuietRing ring s).disp = s.disp := by
  have hquiet (sl : Nat) : (noteQuiet sl s).disp = s.disp := by
    simp only [noteQuiet, apply_ite State.disp, event_disp, setSliceSt_disp, ite_self]
  unfold noteQuietRing
  split
  · exact hquiet _
  · rfl

theorem ringSt_congr {t s : State} (h : t.disp.rings = s.disp.rings) (q : Nat) : ringSt t q = ringSt s q :=
  congrArg (sget (fun _ => ({} : Ring)) · q) h

theorem ringSt_noteQuietRing (ring : Nat) (s : State) (q : Nat) : ringSt (noteQuietRing ring s) q = ringSt s q :=
  ringSt_congr (congrArg DispSt.rings (noteQuietRing_disp ring s)) q

/-- A DRAINING ring with a command whose record is not written goes on draining. -/
theorem settleRing_busy {s : State} {ring : Nat} (h : ringCmds s ring ≠ []) : settleRing ring s = s := by
  rw [settleRing, if_pos h]

/-- A DRAINING ring without such a command goes OFF. -/
theorem settleRing_drained {s : State} {ring : Nat} (h : ringCmds s ring = []) (hd : (ringSt s ring).state = .draining) :
    settleRing ring s = noteQuietRing ring (setRing ring { ringSt s ring with state := .off } s) := by
  simp only [settleRing, h, ne_eq, not_true, if_false, hd, if_true]

/-- A ring in DRAINING, before DRAIN has looked at its commands. -/
def drainingRing (ring : Nat) (s : State) : State := setRing ring { ringSt s ring with state := .draining } s

theorem ringDrain_active {s : State} {ring : Nat} (h : (ringSt s ring).state = .active) :
    ringDrain ring s = settleRing ring (drainingRing ring s) := by
  simp only [ringDrain, h, if_true, drainingRing]

theorem ringDrain_state {s : State} {ring : Nat} (h : (ringSt s ring).state = .active) :
    (ringSt (ringDrain ring s) ring).state = (if ringCmds s ring = [] then .off else .draining)
      ∧ (ringDrain ring s).disp.cmds = s.disp.cmds := by
  have hdraining : (ringSt (drainingRing ring s) ring).state = .draining := by rw [drainingRing, ringSt_setRing_same]
  rw [ringDrain_active h]
  by_cases hcmds : ringCmds s ring = []
  · rw [settleRing_drained (s := drainingRing ring s) hcmds hdraining, if_pos hcmds, ringSt_noteQuietRing, ringSt_setRing_same,
      noteQuietRing_disp]
    exact ⟨rfl, rfl⟩
  · rw [settleRing_busy (s := drainingRing ring s) hcmds, if_neg hcmds]
    exact ⟨hdraining, rfl⟩

/-! ### Ending commands leaves every ring's state and generation (R375, R684) -/

/-- Every ring is in the same state and of the same generation. -/
def SameStanding (t s : State) : Prop := ∀ q, (ringSt t q).state = (ringSt s q).state ∧ (ringSt t q).gen = (ringSt s q).gen

namespace SameStanding

variable {t u s : State}

theorem of_rings (h : t.disp.rings = s.disp.rings) : SameStanding t s := fun q => by
  rw [ringSt_congr h q]
  exact ⟨rfl, rfl⟩

theorem of_disp (h : t.disp = s.disp) : SameStanding t s := of_rings (congrArg DispSt.rings h)

theorem trans (h : SameStanding t u) (k : SameStanding u s) : SameStanding t s := fun q =>
  ⟨(h q).1.trans (k q).1, (h q).2.trans (k q).2⟩

/-- A ring changed in neither. -/
theorem setRing {ring : Nat} {r : Ring} (hs : r.state = (ringSt s ring).state) (hg : r.gen = (ringSt s ring).gen) :
    SameStanding (Machine.setRing ring r s) s := fun q => by
  by_cases h : q = ring
  · subst h
    rw [ringSt_setRing_same]
    exact ⟨hs, hg⟩
  · rw [ringSt_setRing_ne r s h]
    exact ⟨rfl, rfl⟩

theorem foldl {α : Type} {f : State → α → State} (hf : ∀ t x, SameStanding (f t x) t) (l : List α) (s : State) :
    SameStanding (l.foldl f s) s := by
  induction l generalizing s with
  | nil => exact of_rings rfl
  | cons x l ih => exact (ih _).trans (hf s x)

end SameStanding

theorem sameStanding_endRecord (c : Cmd) (st : Nat × Nat) (s : State) : SameStanding (endRecord c st s) s := by
  unfold endRecord
  extract_lets s1 s2 r cover s3
  have hevent : SameStanding s2 s1 := by
    subst s2
    split
    · exact .of_disp (event_disp _ _ s1)
    · exact .of_rings rfl
  have hcover : SameStanding s3 s2 := .setRing rfl rfl
  exact (SameStanding.of_rings (s := s3) rfl).trans (hcover.trans (hevent.trans (.of_rings rfl)))

theorem sameStanding_finishBarrier (ring : Nat) (s : State) : SameStanding (finishBarrier ring s) s := by
  unfold finishBarrier
  split
  case h_1 b _ =>
    simp only
    split
    · exact sameStanding_endRecord b _ s
    · exact (SameStanding.of_disp (captureErr_disp _ _ _)).trans (sameStanding_endRecord b _ s)
  case h_2 => exact .of_rings rfl

theorem sameStanding_endCmd (ring no : Nat) (st : Nat × Nat) (s : State) : SameStanding (endCmd ring no st s) s := by
  unfold endCmd
  split
  case h_1 => exact .of_rings rfl
  case h_2 c _ =>
    split
    · exact .of_rings rfl
    · exact (SameStanding.of_rings (dispSync_rings _)).trans
        ((sameStanding_finishBarrier ring _).trans (sameStanding_endRecord c st s))

theorem sameStanding_maybeFinish (ring no : Nat) (s : State) : SameStanding (maybeFinish ring no s) s := by
  unfold maybeFinish
  split
  case h_1 => exact .of_rings rfl
  case h_2 =>
    split
    · exact .of_rings rfl
    · split
      · exact sameStanding_endCmd ring no _ s
      · split
        · exact sameStanding_endCmd ring no _ s
        · exact .of_rings rfl

/-- Aborting the task of a tile and its set leaves the dispatcher alone. -/
theorem abortSet_disp (d u : Nat) (s : State) : (abortSet d u s).disp = s.disp := by
  have htile (x : Nat) (t : State) : (abortTile d x t).disp = t.disp := by
    unfold abortTile
    simp only
    split <;> rfl
  have hgen (x : Nat) (t : State) : (bumpTileGen d x t).disp = t.disp :=
    foldl_keeps State.disp (f := fun t b => bumpGen (pageOf d x b) t) (fun _ _ => rfl) _ t
  unfold abortSet
  split
  · exact foldl_keeps State.disp (fun t x => (hgen x _).trans (htile x t)) _ s
  · rfl

theorem unissue_rings (d u : Nat) (k : Task) (s : State) : (unissue d u k s).disp.rings = s.disp.rings := by
  unfold unissue
  split <;> rfl

/-- Tearing down a command's work leaves the rings alone. -/
theorem stopWork_rings (ring no : Nat) (s : State) : (stopWork ring no s).disp.rings = s.disp.rings := by
  unfold stopWork
  refine foldl_keeps (fun t => t.disp.rings) (fun t k => ?_) _ s
  extract_lets d u x t1
  have ht1 : t1.disp.rings = t.disp.rings := by
    subst t1
    split
    · split
      · exact unissue_rings _ _ _ _
      · rfl
    · rfl
  rw [apply_ite State.disp, abortSet_disp, ite_self, ht1]

theorem sameStanding_abortCmd (st : Nat × Nat) (c : Cmd) (s : State) : SameStanding (abortCmd st c s) s := by
  unfold abortCmd
  split
  · exact .of_rings rfl
  · refine (sameStanding_maybeFinish _ _ _).trans ((SameStanding.of_rings (stopWork_rings _ _ _)).trans ?_)
    split
    · exact (SameStanding.of_disp (captureErr_disp _ _ _)).trans (.of_rings rfl)
    · exact .of_rings rfl

/-! ### FORCE_OFF (R526, R686) -/

/-- A ring that is OFF with its generation raised. -/
def offRing (r : Ring) : Ring := { r with state := .off, gen := r.gen + 1, enableReq := false }

theorem sameStanding_stopWork (ring no : Nat) (s : State) : SameStanding (stopWork ring no s) s :=
  .of_rings (stopWork_rings ring no s)

theorem sameStanding_abortAll (st : Nat × Nat) (l : List Cmd) (s : State) :
    SameStanding (l.foldl (fun t c => abortCmd st c t) s) s :=
  SameStanding.foldl (f := fun t c => abortCmd st c t) (fun t c => sameStanding_abortCmd st c t) l s

theorem sameStanding_stopAll (ring : Nat) (l : List Cmd) (s : State) :
    SameStanding (l.foldl (fun t c => stopWork ring c.no t) s) s :=
  SameStanding.foldl (f := fun t (c : Cmd) => stopWork ring c.no t) (fun t c => sameStanding_stopWork ring c.no t) l s

/-- Besides turning the ring off FORCE_OFF changes no ring's state or generation. -/
theorem sameStanding_ringForceOff {s : State} {ring : Nat} (st : Nat × Nat) (h : (ringSt s ring).state ≠ .off) :
    SameStanding (ringForceOff st ring s) (dropHeld pDispatch ring (setRing ring (offRing (ringSt s ring)) s)) := by
  unfold ringForceOff
  extract_lets r s1 s2 s3 r3 s4
  have h2 : SameStanding s2 s1 := sameStanding_abortAll st _ s1
  have h3 : SameStanding s3 s2 := sameStanding_stopAll ring _ s2
  have h4 : SameStanding s4 s3 := .setRing rfl rfl
  rw [if_neg h]
  refine (SameStanding.of_disp (noteQuietRing_disp _ _)).trans ((SameStanding.of_rings (dispSync_rings _)).trans ?_)
  split
  · exact (SameStanding.of_rings (s := s4) rfl).trans (h4.trans (h3.trans h2))
  · exact h2

/-- FORCE_OFF leaves the ring OFF with its generation raised by 1. -/
theorem ringForceOff_off {s : State} {ring : Nat} (st : Nat × Nat) (h : (ringSt s ring).state ≠ .off) :
    (ringSt (ringForceOff st ring s) ring).state = .off ∧ (ringSt (ringForceOff st ring s) ring).gen = (ringSt s ring).gen + 1 := by
  have hring : ringSt (dropHeld pDispatch ring (setRing ring (offRing (ringSt s ring)) s)) ring = offRing (ringSt s ring) :=
    ringSt_setRing_same ring _ s
  obtain ⟨hstate, hgen⟩ := sameStanding_ringForceOff st h ring
  rw [hring] at hstate hgen
  exact ⟨hstate, hgen⟩

/-! ### RT_BASE (R480) -/

section
variable {s : State} {off : Nat} (w : DWord) (wide : Bool) (ho : off = 0x100 ∨ off = 0x104)
include ho

theorem rtBaseWrite_allOff (h : ∀ e ∈ s.disp.rings, e.2.state = .off) :
    rtBaseWrite off w wide s = stReg 0 pDspRings off w (wide && off == 0x100) s := by
  have hreg : ¬(off ≠ 0x100 ∧ off ≠ 0x104) := by omega
  have hoff : ¬(s.disp.rings.any fun e => decide (e.2.state ≠ .off)) = true := by simpa using h
  rw [rtBaseWrite, if_neg hreg, if_neg hoff]

theorem rtBaseWrite_someOn (h : ∃ e ∈ s.disp.rings, e.2.state ≠ .off) : rtBaseWrite off w wide s = badRing s := by
  have hreg : ¬(off ≠ 0x100 ∧ off ≠ 0x104) := by omega
  have hon : (s.disp.rings.any fun e => decide (e.2.state ≠ .off)) = true := by simpa using h
  rw [rtBaseWrite, if_neg hreg, if_pos hon]

end

end Sys2Proof.Machine
end

section
/-! PROOFS. The statement on ring control. -/

namespace Sys2Proof.Machine

/-- Settles O37: each command from the ring that RING_CTRL makes of the one selected. -/
theorem ringControlFollowsItsCommands : Obligations.RingControlFollowsItsCommands := by
  unfold Obligations.RingControlFollowsItsCommands
  refine ⟨fun s fn ring sl hs hm hsl hc hq hoff hp hok => ⟨fun hroom => ?enable, ?resetIdx⟩,
    fun s fn ring sl hs hm hsl hc hq hd => ?enableDraining, fun s fn ring hs hm ha => ?drain, fun s fn ring hs hm hon => ?forceOff,
    fun s fn hm => ?refused, fun s off w wide ho h => congrArg Host.Outcome.next (rtBaseWrite_allOff w wide ho h),
    fun s off w wide ho h => congrArg Host.Outcome.next (rtBaseWrite_someOn w wide ho h)⟩
  case enable =>
    have he : ringCtrlBy fn 1 s = setRing ring (enabledRing (ringEntryOf (ringTableBytes s ring)) (ringSt s ring)) s :=
      (ringCtrlBy_allowed 1 hs hm).trans ((ringEnable_off hsl hc hq hoff false).trans (enableOff_takes hp hok rfl hroom))
    refine ⟨_, congrArg Host.Outcome.next he, ?_⟩
    dsimp only
    rw [ringSt_setRing_same]
    exact ⟨rfl, rfl, rfl, rfl, rfl⟩
  case resetIdx =>
    have he : ringCtrlBy fn 9 s = setRing ring (enabledRing (ringEntryOf (ringTableBytes s ring))
        (resetRing (ringEntryOf (ringTableBytes s ring)) (ringSt s ring))) s :=
      (ringCtrlBy_allowed 9 hs hm).trans ((ringEnable_off hsl hc hq hoff true).trans (enableOff_takes hp hok rfl
        (Nat.le_trans (Nat.le_of_eq (idxDiff_self 0)) (Nat.zero_le _))))
    refine ⟨_, congrArg Host.Outcome.next he, ?_⟩
    dsimp only
    rw [ringSt_setRing_same]
    exact ⟨rfl, rfl, rfl, rfl, rfl, rfl⟩
  case enableDraining =>
    exact ⟨_, congrArg Host.Outcome.next ((ringCtrlBy_allowed 1 hs hm).trans (ringEnable_draining hsl hc hq hd false)),
      ringSt_setRing_same ring _ s⟩
  case drain => exact ⟨_, congrArg Host.Outcome.next (ringCtrlBy_allowed 2 hs hm), ringDrain_state ha⟩
  case forceOff =>
    obtain ⟨hstate, hgen⟩ := ringForceOff_off (0x30, 0x01) hon
    exact ⟨_, congrArg Host.Outcome.next (ringCtrlBy_allowed 4 hs hm), hstate, hgen, rfl⟩
  case refused =>
    have hbad (w : Word) : (.next (ringCtrlBy fn w s) : Res) = .next (badRing s) :=
      congrArg Host.Outcome.next (ringCtrlBy_refused w hm)
    rw [List.forall_mem_cons, List.forall_mem_cons, List.forall_mem_cons, List.forall_mem_singleton]
    exact ⟨hbad 1, hbad 9, hbad 2, hbad 4⟩

end Sys2Proof.Machine
end

section
/-! SUPPORT. Commands that the dispatcher reads and starts (11_submission.md R481, R485 to R489, R502): what follows each end of a
read of the queue, and what starting a command that passes its checks leaves. -/

namespace Sys2Proof.Machine

/-! ### COMMAND_START (R481, R485, R488) -/

/-- Reading the first `n` bytes of a ring's next command (R482, R485). -/
abbrev readNext (s : State) (ring sl n : Nat) (t : State) : VRes (List Byte × Bool) :=
  readSlots (ringCtx (ringSt s ring) ring sl) (ringSt s ring).ent.pasid (cmdParts (ringSt s ring).ent (ringSt s ring).head n) t

section
variable {s : State} {ring sl : Nat} (hsl : sliceOfRing s ring = some sl) (hd : dispStarts s = true)
  (ha : (ringSt s ring).state = .active) (hw : (ringSt s ring).tail ≠ (ringSt s ring).head)
  (hc : (sliceSt s sl).contained = false) (hm : ringMayStart s ring = true)
include hd ha hw hc hm

theorem commandStart_reads : ¬((!dispStarts s) = true ∨ (ringSt s ring).state ≠ .active ∨ (ringSt s ring).tail = (ringSt s ring).head
    ∨ (sliceSt s sl).contained = true ∨ (!ringMayStart s ring) = true) := by
  simp only [hd, ha, hw, hc, hm, ne_eq, not_true, Bool.not_true, Bool.false_eq_true, or_self, not_false_eq_true]

include hsl

/-- A command that is read without poison, stands whole before the tail and need not wait for earlier ones is started. -/
theorem commandStart_whole {s1 s2 : State} {hdr b : List Byte} (hhdr : readNext s ring sl 16 s = .ok (hdr, false) s1)
    (hwhole : hdrSlots hdr ≤ idxDiff (ringSt s ring).tail (ringSt s ring).head) (hserial : nbit (bytesAt hdr 0 4) 15 = false)
    (hbody : readNext s ring sl (if hdrSlots hdr < minSlots (hdrOpc hdr) then 16 else cmdLen (hdrOpc hdr)) s1 = .ok (b, false) s2) :
    commandStart ring s = startRead ring sl b (dropHeld pDispatch ring s2) := by
  have hfree : ¬(nbit (bytesAt hdr 0 4) 15 && (ringCmds s1 ring).any fun c => c.status.isNone) = true := by
    rw [hserial, Bool.false_and]
    exact Bool.false_ne_true
  unfold commandStart
  rw [hsl]
  refine (if_neg (commandStart_reads hd ha hw hc hm)).trans ?_
  extract_lets cx hold poison
  rw [show readSlots cx _ _ s = _ from hhdr]
  refine (if_neg Bool.false_ne_true).trans ((if_neg (Nat.not_lt.mpr hwhole)).trans ((if_neg hfree).trans ?_))
  extract_lets n
  rw [show readSlots cx _ _ s1 = _ from hbody]
  exact if_neg Bool.false_ne_true

theorem commandStart_migrating {va : Nat} {s1 : State} (hhdr : readNext s ring sl 16 s = .migrating va s1) :
    commandStart ring s = holdStream pDispatch ring (ringSt s ring).ent.pasid va s1 := by
  unfold commandStart
  rw [hsl]
  refine (if_neg (commandStart_reads hd ha hw hc hm)).trans ?_
  extract_lets cx hold poison
  rw [show readSlots cx _ _ s = _ from hhdr]

theorem commandStart_fault {va cls dt : Nat} {s1 : State} (hhdr : readNext s ring sl 16 s = .fault cls dt va s1) :
    commandStart ring s = startUnread ring sl (cls, dt) s1 := by
  unfold commandStart
  rw [hsl]
  refine (if_neg (commandStart_reads hd ha hw hc hm)).trans ?_
  extract_lets cx hold poison
  rw [show readSlots cx _ _ s = _ from hhdr]

end

/-! ### A command that passes its checks (R488, R489) -/

/-- A ring once the command that `raw` spells has been taken from its queue. -/
def advancedRing (raw : List Byte) (r : Ring) : Ring :=
  { r with started := r.started + 1, head := (r.head + hdrSlots raw) % 0x20000, expSeq := (r.expSeq + 1) % 2 ^ 32,
           pend := decide ((r.head + hdrSlots raw) % 0x20000 ≠ r.tail) }

/-- The state in which the command that `raw` spells stands last among the started ones. -/
def commandTaken (ring sl : Nat) (raw : List Byte) (s : State) : State :=
  let t := setRing ring (advancedRing raw (ringSt s ring)) s
  { t with disp := { t.disp with cmds := t.disp.cmds ++ [cmdOf s ring sl raw] } }

/-- A command that passes every check and is neither a NOP nor a PAGES command is taken and counted, and nothing more. -/
theorem startRead_passes {s : State} {ring sl : Nat} {raw : List Byte} (hb : startBad s (ringSt s ring) (cmdOf s ring sl raw) = none)
    (hnop : (cmdOf s ring sl raw).opc ≠ 0) (hpages : (cmdOf s ring sl raw).opc ≠ 0x0C) :
    startRead ring sl raw s = addProg (pDsp s) 2 1 (addProg (pDsp s) 1 raw.length (commandTaken ring sl raw s)) := by
  simp only [startRead, hb, if_neg hnop, hpages, false_and, if_false]
  rfl

end Sys2Proof.Machine
end

section
/-! PROOFS. The statement on commands that are read, checked and started. -/

namespace Sys2Proof.Machine

/-- Settles O38: COMMAND_START by how the read of the queue ends; what a started command leaves is read off the state in which it is
taken, for counting it changes registers alone. -/
theorem commandsAreReadCheckedAndStarted : Obligations.CommandsAreReadCheckedAndStarted := by
  unfold Obligations.CommandsAreReadCheckedAndStarted
  refine ⟨fun s s1 s2 ring sl hdr b hsl hd ha hw hc hm hhdr hwhole hserial hbody => ?whole,
    fun s ring sl raw hb hnop hpages => ?started, fun s ring sl va s1 hsl hd ha hw hc hm hhdr => ?migrating,
    fun s ring sl va cls dt s1 hsl hd ha hw hc hm hhdr => ?fault⟩
  case whole => exact congrArg Host.Outcome.next (commandStart_whole hsl hd ha hw hc hm hhdr hwhole hserial hbody)
  case migrating => exact congrArg Host.Outcome.next (commandStart_migrating hsl hd ha hw hc hm hhdr)
  case fault => exact congrArg Host.Outcome.next (commandStart_fault hsl hd ha hw hc hm hhdr)
  case started =>
    have hdisp : (startRead ring sl raw s).disp = (commandTaken ring sl raw s).disp := by
      rw [startRead_passes hb hnop hpages, addProg_disp, addProg_disp]
    have hring : ringSt (startRead ring sl raw s) ring = advancedRing raw (ringSt s ring) :=
      (ringSt_congr (congrArg DispSt.rings hdisp) ring).trans (ringSt_setRing_same ring _ s)
    have hmem : (startRead ring sl raw s).mem = s.mem := by
      rw [startRead_passes hb hnop hpages, addProg_mem, addProg_mem]
      rfl
    rw [hring, hdisp]
    exact ⟨rfl, rfl, rfl, rfl, rfl, hmem⟩

end Sys2Proof.Machine
end

section
/-! SUPPORT. Tasks (11_submission.md R511, R513, R515 to R520): issue, claims, promotions, and the spill and restore of pinned
residency. -/

namespace Sys2Proof.Machine

theorem tileSt_congr {t s : State} (h : t.tiles = s.tiles) (d u : Nat) : tileSt t d u = tileSt s d u :=
  congrArg (fun x : TilesSt => sget (fun _ => ({} : TileSt)) x.tiles (d * 15 + u)) h

/-! ### TASK_ISSUE (R511, R513, R515) -/

/-- The first issuable command places its next task, counted as a miss where its affinity address gave no home (R491). -/
theorem taskIssue_places {s s1 : State} {c : Cmd} {rest : List Cmd} {aff : Option Nat} {miss : Bool} {lts : List Nat}
    (hr : dispRuns s = true) (hi : issuable s = c :: rest) (ha : affinity s c c.nextTask = (aff, miss, s1))
    (hp : placeTiles s1 c aff = some lts) :
    taskIssue s = issueTasks c lts (if miss then satInc (pDsp s1) 0x114 1 s1 else s1) := by
  simp only [taskIssue, hr, hi, ha, hp, Bool.not_true, Bool.false_eq_true, if_false]

/-- A task put on a logical tile is the only change to the tiles, and the tile's residency is no longer listed (R513). -/
theorem issueOn_places (c : Cmd) (lt m b : Nat) (mates : List Nat) (s : State) : ∃ k : Task,
    (issueOn c lt m b mates s).tiles
      = (setTile (lt / 12) ((tileUnit s lt).getD 0) { tileSt s (lt / 12) ((tileUnit s lt).getD 0) with issued := some k } s).tiles
    ∧ (issueOn c lt m b mates s).disp.resid = serase lt s.disp.resid
    ∧ k.index = c.nextTask + m ∧ k.pasid = c.pasid ∧ k.ring = c.ring ∧ k.no = c.no ∧ k.member = m ∧ k.slice = c.slice := by
  unfold issueOn
  extract_lets d u held slot k s1 p
  exact ⟨k, by rw [add64_tiles, addProg_tiles], by rw [add64_disp, addProg_disp]; rfl, rfl, rfl, rfl, rfl, rfl, rfl⟩

/-! ### Commands changed in place, and the dispatcher's bookkeeping -/

@[simp] theorem dispSync_claims (s : State) : (dispSync s).disp.claims = s.disp.claims := rfl
@[simp] theorem dispSync_resid (s : State) : (dispSync s).disp.resid = s.disp.resid := rfl
@[simp] theorem dispSync_saved (s : State) : (dispSync s).disp.saved = s.disp.saved := rfl

/-- A command of the ring and number named is the changed form of one. -/
theorem of_mem_updCmd {ring no : Nat} {f : Cmd → Cmd} {s : State} {x : Cmd} (hx : x ∈ (updCmd ring no f s).disp.cmds)
    (hr : x.ring = ring) (hn : x.no = no) : ∃ y, x = f y := by
  obtain ⟨y, -, rfl⟩ := List.mem_map.mp hx
  by_cases hy : y.ring = ring ∧ y.no = no
  · exact ⟨y, if_pos hy⟩
  · rw [if_neg hy] at hr hn
    exact absurd ⟨hr, hn⟩ hy

/-! ### CLAIM (R517, R518) -/

/-- A tile claimed for a command, with the command that runs there (R518). -/
def claimTile (ring no : Nat) (s : State) (lt : Nat) : State :=
  { s with disp := { s.disp with claims := sadd s.disp.claims lt { ring := ring, no := no, running := tileCmd s lt } } }

/-- The state in which a command's claims on tiles stand. -/
def claimTiles (ring no : Nat) (l : List Nat) (s : State) : State := l.foldl (claimTile ring no) s

section
variable (ring no : Nat)

theorem claimTiles_tiles (l : List Nat) (s : State) : (claimTiles ring no l s).tiles = s.tiles :=
  foldl_keeps State.tiles (f := claimTile ring no) (fun _ _ => rfl) l s

theorem claimTiles_mem (l : List Nat) (s : State) : (claimTiles ring no l s).mem = s.mem :=
  foldl_keeps State.mem (f := claimTile ring no) (fun _ _ => rfl) l s

/-- A tile not claimed keeps the claim it had, or none. -/
theorem slook_claimTiles_of_not_mem {l : List Nat} {lt : Nat} (h : lt ∉ l) (s : State) :
    slook (claimTiles ring no l s).disp.claims lt = slook s.disp.claims lt := by
  induction l generalizing s with
  | nil => rfl
  | cons x l ih =>
    rw [List.mem_cons, not_or] at h
    obtain ⟨hx, hl⟩ := h
    exact (ih hl _).trans (slook_sadd_ne _ _ hx)

/-- A tile claimed is claimed for the command. -/
theorem slook_claimTiles_of_mem {l : List Nat} {lt : Nat} (h : lt ∈ l) (s : State) :
    ∃ cl, slook (claimTiles ring no l s).disp.claims lt = some cl ∧ cl.ring = ring ∧ cl.no = no := by
  induction l generalizing s with
  | nil => cases h
  | cons x l ih =>
    by_cases hl : lt ∈ l
    · exact ih hl _
    · obtain rfl : lt = x := (List.mem_cons.mp h).resolve_right hl
      exact ⟨_, (slook_claimTiles_of_not_mem ring no hl _).trans (slook_sadd_same _ _ _), rfl, rfl⟩

end

/-- The started command of a ring with tasks to issue that a sequence number names. -/
abbrev unissuedCmd (s : State) (ring seq : Nat) : Option Cmd := s.disp.cmds.find? fun c => c.ring == ring && c.seq == seq && c.unissued

/-- A command that can place nothing claims the tiles of its claim set, and neither memory nor a tile changes. -/
theorem execClaim_claims {s : State} {ring seq : Nat} {k : Cmd} (hk : unissuedCmd s ring seq = some k) (hr : dispRuns s = true)
    (hs : slicePlays s pDispatch k.slice = true) (hp : placeTiles s k none = none) (hl : claimSet s k ≠ []) :
    ∃ t : State, execClaim ring seq s = .next t ∧ t.disp.claims = (claimTiles ring k.no (claimSet s k) s).disp.claims
      ∧ t.mem = s.mem ∧ t.tiles = s.tiles := by
  have hgo : ¬((!dispRuns s) = true ∨ (!slicePlays s pDispatch k.slice) = true ∨ (placeTiles s k none).isSome = true
      ∨ claimSet s k = []) := by
    simp only [hr, hs, hp, hl, Bool.not_true, Option.isSome_none, Bool.false_eq_true, or_self, not_false_eq_true]
  unfold execClaim
  rw [show s.disp.cmds.find? _ = _ from hk]
  refine ⟨_, if_neg hgo, ?claims, ?mem, ?tiles⟩
  case claims =>
    rw [dispSync_claims, event_disp, addProg_disp]
    rfl
  case mem =>
    rw [dispSync_mem, event_mem, addProg_mem]
    exact claimTiles_mem ring k.no _ s
  case tiles =>
    rw [dispSync_tiles, event_tiles, addProg_tiles]
    exact claimTiles_tiles ring k.no _ s

/-! ### PROMOTION (R516) -/

/-- The promotions that a command's age gives it, at most URGENT at 4. -/
abbrev duePromo (s : State) (c : Cmd) : Nat := min 4 (max c.promo (c.ageNow s.now / (ageMs s * 1000000)))

/-- A command older than its promotions show is promoted to those its age gives. -/
theorem execPromotion_raises {s : State} {ring seq : Nat} {c : Cmd} (hc : unissuedCmd s ring seq = some c) (hp : c.promo < duePromo s c) :
    ∃ t : State, execPromotion ring seq s = .next t
      ∧ t.disp.cmds = (updCmd ring c.no (fun x => { x with promo := duePromo s c }) s).disp.cmds := by
  unfold execPromotion
  rw [show s.disp.cmds.find? _ = _ from hc]
  refine ⟨_, if_neg (Nat.not_le.mpr hp), ?_⟩
  rw [apply_ite State.disp, event_disp, ite_self, addProg_disp]

/-! ### SPILL (R518, R519): a coherent write goes to the lines' homes and leaves the bytes of memory to their MEMWR -/

@[simp] theorem countAccess_mem (pa : Nat) (s : State) : (countAccess pa s).mem = s.mem := (sameData_countAccess pa s).mem

@[simp] theorem logPoison_mem (seg line : Nat) (sectors : List Nat) (detail agent : Nat) (s : State) :
    (logPoison seg line sectors detail agent s).mem = s.mem := (recorded_logPoison seg line sectors detail agent s).mem

@[simp] theorem fetchInto_mem (seg line : Nat) (sectors : List Nat) (s : State) : (fetchInto seg line sectors s).mem = s.mem := by
  unfold fetchInto
  simp only
  split
  · rfl
  · simp only [logPoison_mem, setHome_mem, addProg_mem, countAccess_mem]

@[simp] theorem hostGiveUp_mem (line : Nat) (s : State) : (hostGiveUp line s).mem = s.mem := by
  unfold hostGiveUp
  split
  · simp only [addProg_mem, emit_mem]
  · rfl

@[simp] theorem recallLine_mem (seg line : Nat) (s : State) : (recallLine seg line s).mem = s.mem := by
  unfold recallLine
  simp only [setHome_mem, hostGiveUp_mem]
  split
  · exact logPoison_mem seg line _ _ _ _
  · rfl

@[simp] theorem countServed_mem (seg n : Nat) (s : State) : (countServed seg n s).mem = s.mem := by
  simp only [countServed, addProg_mem]

theorem cohWriteLine_mem (il : Bool) (slice : Option Nat) (line : Nat) (cells : List Cell) (s : State) :
    (cohWriteLine il slice line cells s).mem = s.mem := by
  simp only [cohWriteLine, patchNet, countServed_mem, setHome_mem, fetchInto_mem, recallLine_mem]

@[simp] theorem cohWrite_mem (il : Bool) (slice : Option Nat) (pa : Nat) (bs : List Byte) (s : State) :
    (cohWrite il slice pa bs s).mem = s.mem := by
  unfold cohWrite
  split
  · rfl
  · exact foldl_keeps State.mem (fun t k => cohWriteLine_mem il slice _ _ t) _ s

@[simp] theorem cohPoisonWrite_mem (il : Bool) (pa : Nat) (s : State) : (cohPoisonWrite il pa s).mem = s.mem := by
  simp only [cohPoisonWrite, setHome_mem, recallLine_mem]

@[simp] theorem logDirty_mem (slice pa : Nat) (s : State) : (logDirty slice pa s).mem = s.mem := by
  unfold logDirty
  simp only
  split
  · rw [addProg_mem, cohWrite_mem]
  · rfl

theorem spillBytes_mem (slice pa d u i n : Nat) (s : State) : (spillBytes slice pa d u i n s).mem = s.mem := by
  induction n generalizing i s with
  | zero => rfl
  | succ n ih =>
    unfold spillBytes
    rw [ih, foldl_keeps State.mem fun t k => cohPoisonWrite_mem true _ t, cohWrite_mem, logDirty_mem]

/-- The state in which a tile's residency has gone to its context's save slot. -/
def slotSaved (lt : Nat) (x : Resid) (s : State) : State :=
  { s with disp := { s.disp with
      resid := serase lt s.disp.resid
      saved := (x.pasid, lt, x.pin) :: s.disp.saved.filter fun e => !(e.1 == x.pasid && e.2.1 == lt) } }

/-- A spill into a save slot writes the pinned region there and counts it (R519). -/
theorem spill_toSlot {s : State} {x : Resid} {lt pa n : Nat} (hv : saveVa s x.pasid lt = some (pa, n)) : ∃ t : State,
    spill lt x s = dispSync (add64 (pDsp t) 0x118 x.pin (addProg (pDsp t) 5 1 t))
      ∧ t = slotSaved lt x (spillBytes x.slice pa (lt / 12) ((tileUnit s lt).getD 0) 0 x.pin s) := by
  refine ⟨_, ?_, rfl⟩
  unfold spill
  rw [hv]
  rfl

/-- A spill into a save slot takes the residency from the tile and keeps the slot, and memory's bytes stay. -/
theorem spill_saved {s : State} {x : Resid} {lt pa n : Nat} (hv : saveVa s x.pasid lt = some (pa, n)) :
    slook (spill lt x s).disp.resid lt = none ∧ (x.pasid, lt, x.pin) ∈ (spill lt x s).disp.saved ∧ (spill lt x s).mem = s.mem := by
  obtain ⟨t, he, rfl⟩ := spill_toSlot hv
  rw [he, dispSync_resid, dispSync_saved, dispSync_mem, add64_disp, addProg_disp, add64_mem, addProg_mem]
  exact ⟨slook_serase_same _ lt, List.mem_cons_self, spillBytes_mem _ _ _ _ _ _ s⟩

theorem execSpill_due {s : State} {lt : Nat} {x : Resid} (hx : slook s.disp.resid lt = some x) (hh : s.inHold = false)
    (hd : spillDue s lt x = true) : execSpill lt s = .next (spill lt x s) := by
  simp only [execSpill, hx, hh, hd, Bool.not_true, Bool.false_eq_true, or_self, if_false]

/-! ### RESTORE (R520) -/

/-- A tile whose pinned region holds a slot's `n` × 64 KiB from `pa`, its task pinned and no longer to be restored. -/
def restoredTile (s : State) (k : Task) (pa n : Nat) (x : TileSt) : TileSt :=
  { x with
    issued := some { k with restore := false, pinned := true }, pin := n
    scratch := (cellsFrom 0 (cohBytes s true pa (n * 65536))).filter fun c => decide (c.2 ≠ 0)
    scratchPoison := (List.range (n * 65536 / 64)).filter fun w => cohPoison s true (pa + 64 * w)
    scratchFree := none }

/-- The state in which a save slot has been released. -/
def slotFreed (e : Nat × Nat × Nat) (s : State) : State :=
  { s with disp := { s.disp with saved := s.disp.saved.filter fun x => decide (x ≠ e) } }

theorem not_mem_slotFreed (e : Nat × Nat × Nat) (s : State) : e ∉ (slotFreed e s).disp.saved := fun h =>
  of_decide_eq_true (List.mem_filter.mp h).2 rfl

/-- A restore reads the slot's bytes into the task's pinned region and releases the slot. -/
theorem execRestore_restores {s : State} {d u pa n : Nat} {k : Task} {e : Nat × Nat × Nat} (hi : (tileSt s d u).issued = some k)
    (hk : k.restore = true) (ht : (tileSt s d u).task = none) (hh : s.inHold = false)
    (he : s.disp.saved.find? (fun e => e.1 == k.pasid && e.2.1 == 12 * d + logicalTile s d u) = some e)
    (hv : saveVa s k.pasid (12 * d + logicalTile s d u) = some (pa, n)) :
    execRestore d u s = .next (add64 (pDsp s) 0x118 e.2.2
      (slotFreed e (setTile d u (restoredTile s k pa e.2.2 (tileSt s d u)) s))) := by
  have hgo : ¬(s.inHold = true ∨ (!k.restore) = true ∨ (tileSt s d u).task.isSome = true) := by
    simp only [hh, hk, ht, Bool.not_true, Option.isSome_none, Bool.false_eq_true, or_self, not_false_eq_true]
  simp only [execRestore, hi, he, hv]
  exact if_neg hgo

theorem tileSt_restored (p o n d u : Nat) (e : Nat × Nat × Nat) (x : TileSt) (s : State) :
    tileSt (add64 p o n (slotFreed e (setTile d u x s))) d u = x :=
  (tileSt_congr (add64_tiles _ _ _ _) d u).trans (tileSt_setTile_same s d u x)

end Sys2Proof.Machine
end

section
/-! PROOFS. The statement on tasks that are issued, claimed and spilled. -/

namespace Sys2Proof.Machine

/-- Settles O41: each command from the state it answers, in which the tile, the claims, the promotions and the save slots are read
back. -/
theorem tasksAreIssuedClaimedAndSpilled : Obligations.TasksAreIssuedClaimedAndSpilled := by
  unfold Obligations.TasksAreIssuedClaimedAndSpilled
  refine ⟨fun s s1 c rest aff miss lts hr hi ha hp => congrArg Host.Outcome.next (taskIssue_places hr hi ha hp),
    fun s c lt m b mates => ?issueOn, fun s ring seq k hk hr hs hp hl => ?claim, fun s ring seq c hc hp => ?promotion,
    fun s lt pa n x hx hh hd hv => ⟨_, execSpill_due hx hh hd, spill_saved hv⟩,
    fun s d u pa n k e hi hk ht hh he hv => ⟨_, execRestore_restores hi hk ht hh he hv, ?restore⟩⟩
  case issueOn =>
    obtain ⟨k, htiles, hresid, hindex, hpasid, hring, hno, hmember, hslice⟩ := issueOn_places c lt m b mates s
    have htile := (tileSt_congr htiles (lt / 12) ((tileUnit s lt).getD 0)).trans (tileSt_setTile_same _ _ _ _)
    refine ⟨k, ?_, hindex, hpasid, hring, hno, hmember, hslice, ?_, ?_⟩
    · rw [htile]
    · rw [htile]
    · rw [hresid, slook_serase_same]
  case claim =>
    obtain ⟨t, he, hclaims, hmem, htiles⟩ := execClaim_claims hk hr hs hp hl
    refine ⟨t, he, fun lt hlt => ?_, fun lt hlt => ?_, hmem, htiles⟩
    · rw [hclaims]
      exact slook_claimTiles_of_mem ring k.no hlt s
    · rw [hclaims]
      exact slook_claimTiles_of_not_mem ring k.no hlt s
  case promotion =>
    obtain ⟨t, he, hcmds⟩ := execPromotion_raises hc hp
    refine ⟨t, he, fun x hx hxr hxn => ?_⟩
    rw [hcmds] at hx
    obtain ⟨y, rfl⟩ := of_mem_updCmd hx hxr hxn
    rfl
  case restore =>
    have htile := tileSt_restored (pDsp s) 0x118 e.2.2 d u e (restoredTile s k pa e.2.2 (tileSt s d u)) s
    refine ⟨congrArg TileSt.issued htile, congrArg TileSt.scratch htile, ?_⟩
    rw [add64_disp]
    exact not_mem_slotFreed e _

end Sys2Proof.Machine
end


section
/-! SUPPORT. Link ports (12_birore_links.md): the fields of LINK_STAT, and what moving packets, recording an error and updating DIST
leave of a port. -/

namespace Sys2Proof.Machine

/-! ### Fields of a register word -/

/-- Setting a field replaces its bits and leaves every other bit. -/
theorem testBit_setFld (w : Word) {hi lo : Nat} (v : Nat) (hl : lo ≤ hi) (i : Nat) (hi' : i < 32) :
    (setFld w hi lo v).toNat.testBit i = if lo ≤ i ∧ i ≤ hi then v.testBit (i - lo) else w.toNat.testBit i := by
  have hlow : w.toNat % 2 ^ lo < 2 ^ lo := Nat.mod_lt _ (Nat.two_pow_pos lo)
  have hmid : 2 ^ lo * (v % 2 ^ (hi - lo + 1)) + w.toNat % 2 ^ lo < 2 ^ (hi + 1) := by
    have hv : v % 2 ^ (hi - lo + 1) + 1 ≤ 2 ^ (hi - lo + 1) := Nat.mod_lt _ (Nat.two_pow_pos _)
    calc 2 ^ lo * (v % 2 ^ (hi - lo + 1)) + w.toNat % 2 ^ lo
        < 2 ^ lo * (v % 2 ^ (hi - lo + 1) + 1) := by rw [Nat.mul_succ]; omega
      _ ≤ 2 ^ lo * 2 ^ (hi - lo + 1) := Nat.mul_le_mul_left _ hv
      _ = 2 ^ (hi + 1) := by rw [← Nat.pow_add]; congr 1; omega
  rw [setFld, BitVec.toNat_ofNat, Nat.testBit_mod_two_pow, decide_eq_true hi', Bool.true_and, Nat.add_assoc, Nat.mul_comm _ (2 ^ (hi + 1)),
    Nat.mul_comm _ (2 ^ lo), Nat.testBit_two_pow_mul_add _ hmid, Nat.testBit_two_pow_mul_add _ hlow]
  simp only [Nat.testBit_mod_two_pow, Nat.testBit_div_two_pow]
  by_cases h1 : i < lo
  · simp [h1, show i < hi + 1 by omega, Nat.not_le.mpr h1]
  · by_cases h2 : i < hi + 1
    · simp [h1, h2, show lo ≤ i by omega, show i ≤ hi by omega, show i - lo < hi - lo + 1 by omega]
    · simp [h2, show ¬ i ≤ hi by omega, show i - (hi + 1) + (hi + 1) = i by omega]

theorem testBit_fld (w : Word) (hi lo i : Nat) : (fld w hi lo).testBit i = (decide (i < hi - lo + 1) && w.toNat.testBit (i + lo)) := by
  rw [fld, Nat.testBit_mod_two_pow, Nat.testBit_div_two_pow]

theorem fld_setFld_same (w : Word) {hi lo : Nat} (v : Nat) (hl : lo ≤ hi) (hh : hi < 32) :
    fld (setFld w hi lo v) hi lo = v % 2 ^ (hi - lo + 1) := Nat.eq_of_testBit_eq fun i => by
  rw [testBit_fld, Nat.testBit_mod_two_pow]
  by_cases h : i < hi - lo + 1
  · rw [testBit_setFld w v hl _ (by omega), if_pos (by omega), Nat.add_sub_cancel]
  · simp only [h, decide_false, Bool.false_and]

theorem fld_setFld_ne (w : Word) {hi lo a b : Nat} (v : Nat) (hl : lo ≤ hi) (ha : a < 32) (hb : b ≤ a) (h : a < lo ∨ hi < b) :
    fld (setFld w hi lo v) a b = fld w a b := Nat.eq_of_testBit_eq fun i => by
  rw [testBit_fld, testBit_fld]
  by_cases hi : i < a - b + 1
  · rw [testBit_setFld w v hl _ (by omega), if_neg (by omega)]
  · simp only [hi, decide_false, Bool.false_and]

theorem bitOf_eq_testBit (w : Word) (n : Nat) : bitOf w n = w.toNat.testBit n := bitOf_eq_getLsbD w n

theorem bitOf_setFld_same (w : Word) {n : Nat} (b : Bool) (hn : n < 32) : bitOf (setFld w n n (b2n b)) n = b := by
  rw [bitOf_eq_testBit, testBit_setFld w _ (Nat.le_refl n) _ hn, if_pos ⟨Nat.le_refl n, Nat.le_refl n⟩, Nat.sub_self]
  cases b <;> rfl

theorem bitOf_setFld_ne (w : Word) {hi lo n : Nat} (v : Nat) (hl : lo ≤ hi) (hn : n < 32) (h : n < lo ∨ hi < n) :
    bitOf (setFld w hi lo v) n = bitOf w n := by
  rw [bitOf_eq_testBit, bitOf_eq_testBit, testBit_setFld w v hl _ hn, if_neg (by omega)]

/-! ### A port's record and its LINK_STAT -/

@[simp] theorem portSt_setPort_same (k : Nat) (p : PortSt) (s : State) : portSt (setPort k p s) k = p := sget_sput_same _ _ _ _
theorem portSt_setPort_ne {j k : Nat} (p : PortSt) (s : State) (h : j ≠ k) : portSt (setPort k p s) j = portSt s j := sget_sput_ne _ _ _ h

theorem portSt_congr {t s : State} (h : t.links.ports = s.links.ports) (k : Nat) : portSt t k = portSt s k :=
  congrArg (fun m => sget (fun _ => ({} : PortSt)) m k) h

@[simp] theorem portSt_event (p n : Nat) (s : State) (k : Nat) : portSt (event p n s) k = portSt s k :=
  portSt_congr (congrArg LinkSt.ports (event_links p n s)) k
@[simp] theorem portSt_wr (p o : Nat) (v : Word) (s : State) (k : Nat) : portSt (wr p o v s) k = portSt s k :=
  portSt_congr (congrArg LinkSt.ports (wr_links s p o v)) k
@[simp] theorem portSt_satInc (p o n : Nat) (s : State) (k : Nat) : portSt (satInc p o n s) k = portSt s k := portSt_wr _ _ _ s k
@[simp] theorem portSt_emit (o : Out) (s : State) (k : Nat) : portSt (emit o s) k = portSt s k :=
  portSt_congr (congrArg LinkSt.ports (emit_links s o)) k
@[simp] theorem rd_emit (o : Out) (s : State) (q x : Nat) : rd (emit o s) q x = rd s q x := rd_congr (emit_regs s o) q x
@[simp] theorem setPort_mem (k : Nat) (p : PortSt) (s : State) : (setPort k p s).mem = s.mem := rfl
@[simp] theorem rd_setPort (k : Nat) (p : PortSt) (s : State) (q x : Nat) : rd (setPort k p s) q x = rd s q x := rd_congr rfl q x
@[simp] theorem portLState_setPort (k : Nat) (p : PortSt) (s : State) (j : Nat) : portLState (setPort k p s) j = portLState s j :=
  congrArg (fld · 3 0) (rd_setPort k p s _ _)

theorem rd_setLinkStat_same (k hi lo v : Nat) (s : State) :
    rd (setLinkStat k hi lo v s) (pPort k) 0x110 = setFld (rd s (pPort k) 0x110) hi lo v := rd_wr_same _ _ _ _

theorem rd_setLinkStat_off {k hi lo v x : Nat} (s : State) (q : Nat) (hx : x < 0x1000) (h : x ≠ 0x110) :
    rd (setLinkStat k hi lo v s) q x = rd s q x := rd_wr_off s _ (by decide) hx h

@[simp] theorem setLinkStat_mem (k hi lo v : Nat) (s : State) : (setLinkStat k hi lo v s).mem = s.mem := wr_mem s _ _ _
@[simp] theorem portSt_setLinkStat (k hi lo v : Nat) (s : State) (j : Nat) : portSt (setLinkStat k hi lo v s) j = portSt s j := portSt_wr _ _ _ s j
@[simp] theorem portSt_setLState (k v : Nat) (s : State) (j : Nat) : portSt (setLState k v s) j = portSt s j := portSt_wr _ _ _ s j

theorem portLState_congr {t s : State} {k : Nat} (h : rd t (pPort k) 0x110 = rd s (pPort k) 0x110) : portLState t k = portLState s k :=
  congrArg (fld · 3 0) h
theorem portWidth_congr {t s : State} {k : Nat} (h : rd t (pPort k) 0x110 = rd s (pPort k) 0x110) : portWidth t k = portWidth s k :=
  congrArg (fld · 7 4) h
theorem portPeerHold_congr {t s : State} {k : Nat} (h : rd t (pPort k) 0x110 = rd s (pPort k) 0x110) : portPeerHold t k = portPeerHold s k :=
  congrArg (bitOf · 9) h

theorem portLState_setLState {v : Nat} (k : Nat) (hv : v < 16) (s : State) : portLState (setLState k v s) k = v := by
  rw [portLState, setLState, rd_setLinkStat_same, fld_setFld_same _ _ (by decide) (by decide)]
  exact Nat.mod_eq_of_lt hv

/-- Another field of LINK_STAT that is set leaves LSTATE. -/
theorem portLState_setLinkStat {k hi lo : Nat} (v : Nat) (s : State) (hl : lo ≤ hi) (h : 3 < lo) :
    portLState (setLinkStat k hi lo v s) k = portLState s k := by
  rw [portLState, rd_setLinkStat_same]
  exact fld_setFld_ne _ _ hl (by decide) (by decide) (.inl h)

theorem portPage_lt {k : Nat} (hk : k < 48) : pPort k < pIntr ∧ pPort k < pSnap := by
  unfold pPort pIntr pSnap pageOf
  omega

/-- Neither an event nor a latch writes a port's block registers. -/
theorem port_unlatched {k x : Nat} (hk : k < 48) (h : 0x100 ≤ x) (hx : x < 0x1000) : Unlatched (pPort k) x :=
  ⟨hx, by omega, .inr h, fun e => absurd e (Nat.ne_of_lt (portPage_lt hk).1)⟩

theorem rd_port_event {k x : Nat} (hk : k < 48) (h : 0x100 ≤ x) (hx : x < 0x1000) (p n : Nat) (s : State) :
    rd (event p n s) (pPort k) x = rd s (pPort k) x := rd_raiseEvt_unlatched (port_unlatched hk h hx) p _ s

/-! ### What leaves memory, LINK_STAT of every port and the mark of a retrain as they were -/

/-- Memory, every port's LINK_STAT and every port's mark of a retrain are as they were. -/
structure LinkFrame (t s : State) : Prop where
  mem : t.mem = s.mem
  stat : ∀ k < 48, rd t (pPort k) 0x110 = rd s (pPort k) 0x110
  retraining : ∀ k, (portSt t k).retraining = (portSt s k).retraining

namespace LinkFrame

variable {t u s : State}

theorem refl (s : State) : LinkFrame s s := ⟨rfl, fun _ _ => rfl, fun _ => rfl⟩

theorem trans (h : LinkFrame t u) (k : LinkFrame u s) : LinkFrame t s :=
  ⟨h.mem.trans k.mem, fun j hj => (h.stat j hj).trans (k.stat j hj), fun j => (h.retraining j).trans (k.retraining j)⟩

theorem of_fields (hm : t.mem = s.mem) (hr : t.regs = s.regs) (hp : t.links.ports = s.links.ports) : LinkFrame t s :=
  ⟨hm, fun _ _ => rd_congr hr _ _, fun j => congrArg PortSt.retraining (portSt_congr hp j)⟩

theorem of_recorded (h : Recorded t s) (hs : ∀ k < 48, rd t (pPort k) 0x110 = rd s (pPort k) 0x110) : LinkFrame t s :=
  ⟨h.mem, hs, fun j => congrArg PortSt.retraining (portSt_congr (congrArg LinkSt.ports h.links) j)⟩

/-- A change of other fields after a framed step. -/
theorem andFields (h : LinkFrame u s) (hm : t.mem = u.mem) (hr : t.regs = u.regs) (hp : t.links.ports = u.links.ports) : LinkFrame t s :=
  (of_fields hm hr hp).trans h

/-- A step that is taken or left out. -/
theorem ite {c : Prop} [Decidable c] (h : LinkFrame t u) (k : LinkFrame u s) : LinkFrame (if c then t else u) s := by
  split
  · exact h.trans k
  · exact k

theorem foldl {α : Type} {f : State → α → State} (hf : ∀ t x, LinkFrame (f t x) t) (l : List α) (s : State) :
    LinkFrame (l.foldl f s) s := by
  induction l generalizing s with
  | nil => exact .refl s
  | cons x l ih => exact (ih _).trans (hf s x)

theorem wr (p : Nat) {o : Nat} (v : Word) (s : State) (ho : o < 0x1000) (h : o ≠ 0x110) : LinkFrame (wr p o v s) s :=
  .of_recorded (quiet_wr p o v s).recorded fun _ _ => rd_wr_off s v ho (by decide) h.symm

theorem satInc (p : Nat) {o : Nat} (n : Nat) (s : State) (ho : o < 0x1000) (h : o ≠ 0x110) : LinkFrame (satInc p o n s) s :=
  .wr p _ s ho h

theorem event (p n : Nat) (s : State) : LinkFrame (event p n s) s :=
  .of_recorded (quiet_event p n s).recorded fun _ hk => rd_port_event hk (by decide) (by decide) p n s

theorem add64 (p : Nat) {o : Nat} (n : Nat) (s : State) (ho : o < 0x100) : LinkFrame (add64 p o n s) s :=
  .of_recorded (quiet_add64 p o n s).recorded fun _ _ => rd_wr64_off _ s (by omega) (by decide) (by omega) (by omega)

theorem addProg (p : Nat) {i : Nat} (n : Nat) (s : State) (h : i < 8) : LinkFrame (addProg p i n s) s := by
  unfold Machine.addProg
  split
  · exact .refl s
  · exact .ite (.foldl (fun t g => .add64 g n t (by omega)) _ _) (.add64 p n s (by omega))

theorem emit (o : Out) (s : State) : LinkFrame (emit o s) s := .of_fields rfl rfl rfl

/-- A port's record that keeps the mark. -/
theorem setPort {k : Nat} {p : PortSt} {s : State} (h : p.retraining = (portSt s k).retraining) : LinkFrame (setPort k p s) s := by
  refine ⟨rfl, fun _ _ => rfl, fun j => ?_⟩
  by_cases hj : j = k
  · subst hj
    rw [portSt_setPort_same, h]
  · rw [portSt_setPort_ne p s hj]

theorem andSetPort {k : Nat} {p : PortSt} (h : LinkFrame u s) (hp : p.retraining = (portSt u k).retraining) :
    LinkFrame (Machine.setPort k p u) s := (setPort hp).trans h

theorem inqueues (key : Nat) (l : List Flit) (s : State) : LinkFrame (setInQueue key l s) s := .of_fields rfl rfl rfl
theorem routes (key : Nat) (r : Option FRoute) (s : State) : LinkFrame (setRouteAt key r s) s := .of_fields rfl rfl rfl
theorem parts (key : Nat) (l : List Flit) (s : State) : LinkFrame (setParts key l s) s := .of_fields rfl rfl rfl

end LinkFrame

/-! ### Error records and snapshots (R84 to R101) -/

theorem linkFrame_capture1 (p : Nat) (e : ErrRec) (s : State) : LinkFrame (capture1 p e s) s := by
  refine .of_recorded (quiet_capture1 p e s).recorded fun k _ => ?_
  unfold capture1
  simp only
  split
  · exact rd_wr_off s _ (by decide) (by decide) (by decide)
  · exact rd_wrWords_out p 0x20 _ s (by simp [errWords]) (by decide) (.inr (by simp [errWords]))

theorem linkFrame_snapTrigger (src : Nat) (s : State) : LinkFrame (snapTrigger src s) s := by
  refine .of_recorded (recorded_snapTrigger src s) fun k hk => ?_
  cases h : (snapLatched s && !bitOf (rd s pSnap 0x100) 3)
  case true =>
    rw [snapTrigger, if_pos h]
    exact rd_wr_off s _ (by decide) (by decide) (by decide)
  case false =>
    rw [rd_congr (snapTrigger_regs src h), rd_latchAll (port_unlatched hk (by decide) (by decide)) (by decide)]
    exact rd_wr_page s _ (by decide) (by decide) (Nat.ne_of_lt (portPage_lt hk).2)

theorem linkFrame_captureErr (p : Nat) (e : ErrRec) (s : State) : LinkFrame (captureErr p e s) s := by
  unfold captureErr
  exact .ite (linkFrame_snapTrigger 4 _) (.ite (.foldl (fun t g => linkFrame_capture1 g e t) _ _)
    (.ite (.event p 31 _) (.ite (.of_fields rfl rfl rfl) (linkFrame_capture1 p e s))))

/-! ### Packets that are dropped or delivered (R559, R564, R569) -/

theorem linkFrame_unreachNotice (die cause : Nat) (f : Flit) (s : State) : LinkFrame (unreachNotice die cause f s) s := by
  unfold unreachNotice
  split
  · exact .refl s
  · exact .of_fields rfl rfl rfl

theorem linkFrame_dropRecord (k : Nat) (cause : Option Nat) (s : State) : LinkFrame (dropRecord k cause s) s := by
  unfold dropRecord
  split
  · exact linkFrame_captureErr _ _ s
  · split
    · exact linkFrame_captureErr _ _ s
    · exact .refl s

/-- A drop as LINK_DROPS, the progress counter and EVT_STAT count it. -/
theorem linkFrame_countDrop (p : Nat) (s : State) : LinkFrame (event p 7 (addProg p 6 1 (satInc p 0x130 1 s))) s :=
  ((LinkFrame.event _ _ _).trans (.addProg _ _ _ (by decide))).trans (.satInc _ _ s (by decide) (by decide))

theorem linkFrame_dropPacket (key : Nat) (cause : Option Nat) (l : List Flit) (s : State) : LinkFrame (dropPacket key cause l s) s := by
  have hnote (t : State) : LinkFrame (match cause, l with
      | some c, f :: _ => if f.first then unreachNotice (inputDie key) c f t else t
      | _, _ => t) t := by
    split
    · exact .ite (linkFrame_unreachNotice _ _ _ t) (.refl t)
    · exact .refl t
  unfold dropPacket
  simp only
  split
  · have hrec := (linkFrame_dropRecord (key / 4) cause _).trans (linkFrame_countDrop (pPort (key / 4)) s)
    split
    · exact .ite ((LinkFrame.satInc _ _ _ (by decide) (by decide)).trans (hnote _)) hrec
    · exact hrec
  · exact hnote s

theorem linkFrame_outputDrop (k : Nat) (noticed : Bool) (s : State) : LinkFrame (outputDrop k noticed s) s :=
  .ite (.satInc _ _ _ (by decide) (by decide)) (linkFrame_countDrop (pPort k) s)

/-! ### Moving flits (R551 to R562) -/

theorem linkFrame_popInput (key : Nat) (f : Flit) (rest : List Flit) (s : State) : LinkFrame (popInput key f rest s) s := by
  have hq := LinkFrame.inqueues key rest s
  unfold popInput
  exact .ite (.setPort (by split <;> rfl)) hq

theorem linkFrame_consume (key : Nat) (r : FRoute) (f : Flit) (rest : List Flit) (s : State) : LinkFrame (consume key r f rest s) s := by
  have hp := linkFrame_popInput key f rest s
  unfold consume
  simp only
  split
  · have hd := (LinkFrame.routes key none _).trans ((LinkFrame.parts key [] _).trans hp)
    split
    · exact (linkFrame_dropPacket _ _ _ _).trans hd
    · exact hd.andFields rfl rfl rfl
  · exact (LinkFrame.parts key _ _).trans hp

theorem linkFrame_pumpInput (s : State) (key : Nat) : LinkFrame (pumpInput s key) s := by
  unfold pumpInput
  split
  · exact .refl s
  · split
    · simp only
      split
      · split
        · exact .routes key _ s
        · exact (linkFrame_consume _ _ _ _ _).trans (.routes key _ s)
      · exact linkFrame_popInput _ _ _ s
    · exact .refl s
    · exact linkFrame_consume _ _ _ _ s

theorem linkFrame_countSent (p n : Nat) (s : State) : LinkFrame (addProg p 2 1 (addProg p 1 n s)) s :=
  (LinkFrame.addProg p 1 _ (by decide)).trans (.addProg p n s (by decide))

theorem linkFrame_sendFlit (k v key : Nat) (f : Flit) (rest : List Flit) (hops : Nat) (s : State) :
    LinkFrame (sendFlit k v key f rest hops s) s := by
  have hpop := linkFrame_popInput key f rest s
  unfold sendFlit
  generalize popInput key f rest s = u at hpop ⊢
  simp only
  split
  · refine LinkFrame.andFields (u := setRouteAt key none _) ((LinkFrame.routes key none _).trans
      ((LinkFrame.addProg (i := 0) _ _ _ (by decide)).trans ?_)) rfl rfl rfl
    exact (linkFrame_countSent _ _ _).trans ((LinkFrame.emit _ _).trans (hpop.andSetPort rfl))
  · refine LinkFrame.andFields (u := addProg (pPort k) 2 1 _) ?_ rfl rfl rfl
    exact (linkFrame_countSent _ _ _).trans ((LinkFrame.emit _ _).trans (hpop.andSetPort rfl))

theorem linkFrame_sendNext (s : State) (k : Nat) : LinkFrame (sendNext s k) s := by
  unfold sendNext
  split
  · exact .refl s
  · split
    · exact .refl s
    · simp only
      split
      · exact linkFrame_sendFlit _ _ _ _ _ _ s
      · exact .refl s

theorem linkFrame_refill (tc : Nat) (s : State) (die : Nat) : LinkFrame (refill tc s die) s := by
  unfold refill
  simp only
  split
  · exact .refl s
  · split
    · exact .refl s
    · split
      · exact .refl s
      · exact .of_fields rfl rfl rfl

theorem linkFrame_pumpRound (s : State) : LinkFrame (pumpRound s) s :=
  (LinkFrame.foldl linkFrame_sendNext _ _).trans ((LinkFrame.foldl linkFrame_pumpInput _ _).trans
    ((LinkFrame.foldl (linkFrame_refill 1) _ _).trans (.foldl (linkFrame_refill 0) _ s)))

theorem linkFrame_iterate {f : State → State} (hf : ∀ s, LinkFrame (f s) s) (n : Nat) (s : State) : LinkFrame (iterate f n s) s := by
  induction n generalizing s with
  | zero => exact .refl s
  | succ n ih => exact (ih _).trans (hf s)

/-- However many flits move, memory, LINK_STAT and the mark of a retrain stay. -/
theorem linkFrame_pump (s : State) : LinkFrame (pump s) s := by
  unfold pump
  split
  · exact .refl s
  · exact linkFrame_iterate linkFrame_pumpRound _ s

theorem linkFrame_replaySent (k : Nat) (s : State) : LinkFrame (replaySent k s) s := by
  unfold replaySent
  simp only
  split
  · exact .setPort rfl
  · exact (LinkFrame.addProg _ _ _ (by decide)).trans ((LinkFrame.addProg _ _ _ (by decide)).trans
      ((LinkFrame.foldl (fun t f => .emit (.flit k f) t) _ _).trans (.setPort rfl)))

/-! ### DIST (R49, R50, R53) -/

theorem linkFrame_distUpdate (changes : List (Nat × Word)) (s : State) : LinkFrame (distUpdate changes s) s := by
  have hcount (t : State) : LinkFrame (inc32 pDist 0x108 1 t) t := .wr _ _ t (by decide) (by decide)
  exact (LinkFrame.event _ _ _).trans ((hcount _).trans ((hcount s).andFields rfl rfl rfl))

theorem linkFrame_portDist (k : Nat) (valid : Bool) (width : Nat) (newBw : Bool) (s : State) :
    LinkFrame (portDist k valid width newBw s) s := (linkFrame_distUpdate _ _).trans (.of_fields rfl rfl rfl)

end Sys2Proof.Machine
end

section
/-! SUPPORT. What data and control flits, a peer in HOLD, a retrain and the end of a link leave of a port (12_birore_links.md R547,
R548, R551, R569, R572 to R574). -/

namespace Sys2Proof.Machine

/-! ### PEER_HOLD (R573, R574) -/

/-- PEER_HOLD is as set, and the rest of LINK_STAT that training writes stays. -/
theorem setPeerHold_fields {k : Nat} (hk : k < 48) (on : Bool) (s : State) : portPeerHold (setPeerHold k on s) k = on
    ∧ portLState (setPeerHold k on s) k = portLState s k ∧ portWidth (setPeerHold k on s) k = portWidth s k := by
  unfold setPeerHold
  split
  case isTrue h => exact ⟨h, rfl, rfl⟩
  case isFalse =>
    have hstat := (rd_port_event hk (by decide) (by decide) (pPort k) 5 _).trans (rd_setLinkStat_same k 9 9 (b2n on) s)
    rw [portPeerHold, portLState, portWidth, hstat]
    exact ⟨bitOf_setFld_same _ on (by decide), fld_setFld_ne _ _ (by decide) (by decide) (by decide) (by decide),
      fld_setFld_ne _ _ (by decide) (by decide) (by decide) (by decide)⟩

theorem quiet_setPeerHold (k : Nat) (on : Bool) (s : State) : Quiet (setPeerHold k on s) s := by
  unfold setPeerHold
  split
  · exact .refl s
  · exact (quiet_event _ _ _).trans (quiet_wr _ _ _ s)

/-- HOLD and the beacon of a peer set PEER_HOLD on a port in UP and change only registers (R573). -/
theorem peerHold_up {s : State} {k : Nat} (hk : k < 48) (hl : portLState s k = 6) :
    portPeerHold (peerHold k s) k = true ∧ portLState (peerHold k s) k = 6 ∧ (peerHold k s).links = s.links
      ∧ (peerHold k s).mem = s.mem := by
  rw [peerHold, if_pos (.inl hl)]
  obtain ⟨hhold, hstate, -⟩ := setPeerHold_fields hk true s
  have hq := quiet_setPeerHold k true s
  exact ⟨hhold, hstate.trans hl, hq.links, hq.mem⟩

/-! ### RETRAIN (R547) -/

theorem enterRetrain_retrains {k : Nat} (hk : k < 48) (s : State) :
    portLState (enterRetrain k s) k = 7 ∧ (portSt (enterRetrain k s) k).retraining = true := by
  have hstat : rd (enterRetrain k s) (pPort k) 0x110 = rd (setLState k 7 s) (pPort k) 0x110 :=
    (rd_port_event hk (by decide) (by decide) _ _ _).trans (rd_wr_off _ _ (by decide) (by decide) (by decide))
  refine ⟨(portLState_congr hstat).trans (portLState_setLState k (by decide) s), ?_⟩
  rw [enterRetrain, portSt_event, portSt_satInc, portSt_setLState, portSt_setPort_same]

/-! ### DOWN (R548, R569, R583) -/

theorem linkFrame_unroute (k : Nat) (p : PortSt) (s : State) : LinkFrame (unroute k p s) s := by
  refine .foldl (fun t e => ?_) _ s
  have hrest (v : Nat) : LinkFrame (if firstKept p v = true then setRouteAt e.1 (some (.drop none)) t
      else outputDrop k false (setRouteAt e.1 (some (.drop none)) t)) t := by
    have hroute := LinkFrame.routes e.1 (some (.drop none)) t
    split
    · exact hroute
    · exact (linkFrame_outputDrop _ _ _).trans hroute
  split
  · split
    · split
      · split
        · exact (linkFrame_outputDrop _ _ _).trans (.routes _ _ t)
        · exact hrest _
      · exact hrest _
    · exact .refl t
  · exact .refl t

theorem linkFrame_trimInputs (k : Nat) (s : State) : LinkFrame (trimInputs k s) s := by
  refine .foldl (fun t v => ?_) _ s
  simp only
  split
  · have hforget := (LinkFrame.routes (k * 4 + v) none _).trans ((LinkFrame.parts (k * 4 + v) [] _).trans
      (.inqueues (k * 4 + v) ((inQueue t (k * 4 + v)).reverse.dropWhile fun f => !f.last).reverse t))
    exact hforget.andFields rfl rfl rfl
  · exact .inqueues _ _ t

theorem linkFrame_dropNotice (k : Nat) (f : Flit) (s : State) :
    LinkFrame (unreachNotice (portDie k) unreachDown f (outputDrop k (f.typ != 0x15) s)) s :=
  (linkFrame_unreachNotice _ _ _ _).trans (linkFrame_outputDrop _ _ s)

theorem dropLink_mem (k : Nat) (s : State) : (dropLink k s).mem = s.mem := by
  unfold dropLink
  simp only
  rw [(quiet_setPeerHold k false _).mem, setLinkStat_mem, wr_mem]
  simp only
  rw [(linkFrame_trimInputs _ _).mem, (linkFrame_unroute _ _ _).mem]
  rw [foldl_mem _ _ _ fun t f => (linkFrame_dropNotice k f t).mem, setPort_mem]

/-- What follows the entry to DOWN, with its cause in LINK_STAT, leaves LINK_STAT: the record, the DIST entries, the packets that
move. -/
theorem portDown_settles (k cause : Nat) (s : State) : ∃ u : State,
    LinkFrame (portDown k cause s) (setLinkStat k 13 10 cause (setLState k 8 u)) ∧ u.mem = s.mem := by
  unfold portDown
  simp only
  refine ⟨_, (linkFrame_pump _).trans ((linkFrame_portDist _ _ _ _ _).trans ((linkFrame_captureErr _ _ _).trans (.event _ _ _))), ?_⟩
  rw [wr_mem, setPort_mem, bumpGen, setUnit_mem, dropLink_mem]

/-- A port taken down reads LSTATE DOWN with the cause in LINK_STAT, and memory is as it was (R548, R583). -/
theorem portDown_down {k cause : Nat} (hk : k < 48) (hc : cause < 16) (s : State) : portLState (portDown k cause s) k = 8
    ∧ fld (rd (portDown k cause s) (pPort k) 0x110) 13 10 = cause ∧ (portDown k cause s).mem = s.mem := by
  obtain ⟨u, hframe, hmem⟩ := portDown_settles k cause s
  have hstat := hframe.stat k hk
  refine ⟨(portLState_congr hstat).trans ((portLState_setLinkStat _ _ (by decide) (by decide)).trans (portLState_setLState k (by decide) u)),
    ?_, hframe.mem.trans ((setLinkStat_mem _ _ _ _ _).trans ((setLinkStat_mem _ _ _ _ _).trans hmem))⟩
  rw [hstat, rd_setLinkStat_same, fld_setFld_same _ _ (by decide) (by decide)]
  exact Nat.mod_eq_of_lt hc

/-! ### Data flits (R551) -/

section
variable {s : State} {k : Nat} {f : Flit} (hup : portUp s k = true) (hs : s.inHold = false)
include hup hs

theorem dataFlit_read : ¬((!portUp s k) = true ∨ s.inHold = true) := by simp [hup, hs]

/-- A good flit in order raises the FSEQ expected and joins its VC's queue; then every flit that can move moves. -/
theorem dataFlit_taken (hi : f.idle = false) (hq : f.fseq = (portSt s k).rxNext) : ∃ u : State,
    u = setInQueue (k * 4 + f.vc % 4) (inQueue s (k * 4 + f.vc % 4) ++ [f])
      (setPort k { portSt s k with rxNext := ((portSt s k).rxNext + 1) % 4096, rxAny := true, nak := false } s)
    ∧ dataFlit k f true s = pump (if f.last then addProg (pPort k) 5 1 u else u)
    ∧ inQueue u (k * 4 + f.vc % 4) = inQueue s (k * 4 + f.vc % 4) ++ [f]
    ∧ (portSt u k).rxNext = ((portSt s k).rxNext + 1) % 4096 := by
  refine ⟨_, rfl, ?_, sget_sput_same _ _ _ _, ?_⟩
  · rw [dataFlit, if_neg (dataFlit_read hup hs), if_neg (by decide), if_neg (by simp [hi]), if_neg (not_not_intro hq)]
    rfl
  · exact congrArg PortSt.rxNext (portSt_setPort_same k _ s)

/-- A bad flit is counted and draws a NAK. -/
theorem dataFlit_bad : dataFlit k f false s = satInc (pPort k) 0x12C 1 (setPort k { portSt s k with nak := true } s) := by
  rw [dataFlit, if_neg (dataFlit_read hup hs), if_pos (by decide)]

/-- A good flit of another FSEQ draws a NAK. -/
theorem dataFlit_outOfOrder (hi : f.idle = false) (hq : f.fseq ≠ (portSt s k).rxNext) :
    dataFlit k f true s = setPort k { portSt s k with nak := true } s := by
  rw [dataFlit, if_neg (dataFlit_read hup hs), if_neg (by decide), if_neg (by simp [hi]), if_pos hq]

end

/-! ### Control flits and replay (R541, R551, R554) -/

/-- A control flit that only acknowledges and returns credits, from a peer whose node is not known. -/
theorem controlFlit_credits {s : State} {k : Nat} {c : CtlFlit} (hs : s.inHold = false) (hl : portLState s k = 6) (hh : c.hold = false)
    (hn : c.nak = false) (hm : c.msgs = []) (hp : bitOf (rd s (pPort k) 0x114) 18 = false) :
    controlFlit k c true s = pump (takeCredits k c (if c.ackV then takeAck k c.ackSeq s else s)) := by
  rw [controlFlit, if_neg (by simp [hs, hl])]
  simp [hp, hl, hh, hn, hm]

/-- An acknowledged flit and those sent before it leave the replay buffer. -/
theorem takeAck_found {s : State} {k ack i : Nat} (h : (portSt s k).sent.findIdx? (fun f => f.fseq == ack) = some i) :
    (portSt (takeAck k ack s) k).sent = (portSt s k).sent.drop (i + 1) ∧ (portSt (takeAck k ack s) k).lastAck = ack := by
  simp only [takeAck, h, portSt_setPort_same, and_self]

/-- A replay timeout with fewer than 15 replays counts one more and sends the buffer again. -/
theorem execReplayTimeout_replays {s : State} {k : Nat} (hs : s.inHold = false) (hup : portUp s k = true) (hh : portPeerHold s k = false)
    (hne : (portSt s k).sent ≠ []) (ht : (portSt s k).ackAt + 2 * fld (rd s (pPort k) 0x118) 15 0 + 1000 ≤ s.now)
    (hr : (portSt s k).replays < 15) :
    execReplayTimeout k s = .next (replaySent k (setPort k { portSt s k with replays := (portSt s k).replays + 1 } s)) := by
  rw [execReplayTimeout, if_neg (by simp [hs, hup, hh, hne, ht]), if_neg (Nat.not_le.mpr hr)]

end Sys2Proof.Machine
end

section
/-! PROOFS. The statement on flits and HOLD on a link. -/

namespace Sys2Proof.Machine

/-- Settles O43: each flit, message and timeout from what it leaves of the port it arrives on. -/
theorem flitsAndHoldOnALink : Obligations.FlitsAndHoldOnALink := by
  unfold Obligations.FlitsAndHoldOnALink
  refine ⟨fun s k f hup hs hi hq => ?inOrder,
    fun s k f hup hs => ⟨congrArg Host.Outcome.next (dataFlit_bad hup hs),
      fun hi hq => congrArg Host.Outcome.next (dataFlit_outOfOrder hup hs hi hq)⟩,
    fun s k c hs hl hh hn hm hp => congrArg Host.Outcome.next (controlFlit_credits hs hl hh hn hm hp),
    fun s k ack i h => takeAck_found h,
    fun s k hs hup hh hne ht hr => execReplayTimeout_replays hs hup hh hne ht hr,
    fun s k hk hl c hc => ?peerHold,
    fun s k r hk hs hl => ⟨fun hh => ⟨_, ?resume, enterRetrain_retrains hk s⟩, ⟨_, ?retrainReq, enterRetrain_retrains hk s⟩⟩,
    fun s k hs hh => if_pos ⟨by simp [hs], hh⟩,
    fun s k cause hk hc => portDown_down hk hc s⟩
  case inOrder =>
    obtain ⟨u, hu, he, hqueue, hseq⟩ := dataFlit_taken hup hs hi hq
    exact ⟨u, hu, congrArg Host.Outcome.next he, hqueue, hseq⟩
  case peerHold =>
    simp only [List.mem_cons, List.not_mem_nil, or_false] at hc
    rcases hc with rfl | rfl
    · exact ⟨_, rfl, peerHold_up hk hl⟩
    · exact ⟨_, rfl, peerHold_up hk hl⟩
  case resume => exact congrArg Host.Outcome.next (if_pos ⟨by simp [hs], hl, hh⟩)
  case retrainReq => exact congrArg Host.Outcome.next (if_pos ⟨by simp [hs], hl⟩)

end Sys2Proof.Machine
end

section
/-! SUPPORT. Training of a link (12_birore_links.md R543 to R550, R569, R579): what each step, and each way back, leaves of a port. -/

namespace Sys2Proof.Machine

/-! ### DETECT (R544, R545) -/

/-- A register write changes the stored registers alone. -/
theorem wr_only_regs (p o : Nat) (v : Word) (s : State) : wr p o v s = { s with regs := (wr p o v s).regs } := rfl

theorem only_regs_wr {t s : State} (h : t = { s with regs := t.regs }) (p o : Nat) (v : Word) :
    wr p o v t = { s with regs := (wr p o v t).regs } :=
  (wr_only_regs p o v t).trans (congrArg (fun u : State => { u with regs := (wr p o v t).regs }) h)

theorem execLightDetect_seen {s : State} {k : Nat} (n : Nat) (hs : s.inHold = false) (hl : portLState s k = 1) :
    execLightDetect k false n s = .next (setLState k 2 s) := by
  rw [execLightDetect, if_neg (by simp [hs, hl])]
  rfl

/-- The end with the lower number exchanges its fibres. -/
theorem execLightDetect_swaps {s : State} {k n : Nat} (hs : s.inHold = false) (hl : portLState s k = 1)
    (hc : nbit (portSt s k).cfg 1 = true) (hn : (portSt s k).number < n) : execLightDetect k true n s
      = .next (setLState k 2 (setLinkStat k 8 8 (b2n (!bitOf (rd s (pPort k) 0x110) 8)) s)) := by
  rw [execLightDetect, if_neg (by simp [hs, hl]), if_neg (by decide), if_neg (by simp [hc]), if_neg (Nat.ne_of_lt hn), if_pos hn]

theorem swapped_setLState (k v : Nat) (b : Bool) (s : State) :
    bitOf (rd (setLState k v (setLinkStat k 8 8 (b2n b) s)) (pPort k) 0x110) 8 = b := by
  rw [setLState, rd_setLinkStat_same, bitOf_setFld_ne _ _ (by decide) (by decide) (by decide), rd_setLinkStat_same,
    bitOf_setFld_same _ b (by decide)]

/-! ### LAMBDA (R544, R581) -/

/-- LAMBDA_STAT as tuning writes it holds the unusable wavelengths of both directions. -/
theorem failedWls_tuned {t : State} {k : Nat} {a b : BitVec 9}
    (h : rd t (pOptics k) 0x108 = BitVec.ofNat 32 (a.toNat + 0x200 * b.toNat)) :
    failedWls t k true = a.toNat ∧ failedWls t k false = b.toNat := by
  have ha := a.isLt
  have hb := b.isLt
  simp only [failedWls, h, fld, BitVec.toNat_ofNat, if_true, Bool.false_eq_true, if_false]
  omega

/-! ### ALIGN (R544, R550) -/

theorem allowedWidth_cases (s : State) (k : Nat) : allowedWidth s k = 0 ∨ allowedWidth s k = 4 ∨ allowedWidth s k = 8 := by
  unfold allowedWidth
  simp only
  split
  · exact .inr (.inr rfl)
  · split
    · exact .inr (.inl rfl)
    · exact .inl rfl

theorem commonWidth_eq_min {a b : Nat} (ha : a = 0 ∨ a = 4 ∨ a = 8) (hb : b = 0 ∨ b = 4 ∨ b = 8) : commonWidth a b = min a b := by
  rcases ha with rfl | rfl | rfl <;> rcases hb with rfl | rfl | rfl <;> rfl

/-- An agreed width of 8 stands while the wavelengths allow it. -/
theorem linkWidth_full {s : State} {k : Nat} (ha : allowedWidth s k = 8)
    (hg : portLState s k = 4 ∨ portLState s k = 5 → (portSt s k).agreedWidth = 8) : linkWidth s k = 8 := by
  unfold linkWidth
  split
  case isTrue h =>
    rw [hg h, ha]
    rfl
  case isFalse => exact ha

theorem linkWidth_none {s : State} {k : Nat} (ha : allowedWidth s k = 0) : linkWidth s k = 0 := by
  rw [linkWidth, ha, commonWidth, Nat.min_zero]
  exact ite_self 0

/-! ### PARAM (R544, R546) -/

theorem portSt_paramDone (k : Nat) (s : State) : portSt (paramDone k s) k = portSt s k := by
  unfold paramDone
  simp only
  split
  · exact portSt_setLState k 5 s k
  · rfl

theorem paramDone_out (k : Nat) (s : State) : (paramDone k s).out = s.out := by
  unfold paramDone
  simp only
  split
  · exact wr_out s _ _ _
  · rfl

/-- Both ends' parameters move LSTATE at most. -/
theorem rd_paramDone (k q : Nat) {x : Nat} (hx : x < 0x1000) (h : x ≠ 0x110) (s : State) : rd (paramDone k s) q x = rd s q x := by
  unfold paramDone
  simp only
  split
  · exact rd_setLinkStat_off s q hx h
  · rfl

/-- The state in which RTT and the fibre's length are stored. -/
def rttStored (k echo m : Nat) (s : State) : State :=
  wr (pPort k) 0x118 (BitVec.ofNat 32 (min ((s.now + 2 ^ 32 - echo % 2 ^ 32) % 2 ^ 32) 0xFFFF + 0x10000 * (min m 0xFFF))) s

section
variable {s : State} {k : Nat} (hs : s.inHold = false) (hl : portLState s k = 4)
include hs hl

theorem param_read : ¬(s.inHold = true ∨ portLState s k ≠ 4) := by simp [hs, hl]

/-- Parameters that are accepted are kept and answered. -/
theorem param_accepted {node peer : Nat} {v w4 : Bool} (echo : Nat) (hr : paramRefused s k node v peer w4 = none) :
    (portSt (param k node v peer w4 echo s) k).gotParam = true ∧ (portSt (param k node v peer w4 echo s) k).peerW4 = w4
      ∧ rd (param k node v peer w4 echo s) (pPort k) 0x114 = BitVec.ofNat 32 (node % 4096 + 0x1000 * (peer % 64) + 0x40000)
      ∧ Out.linkMsg k (.paramAck (nodeId s) (bitOf (rd s (pPort 0) 0x100) 12) k (minW4 s k) echo)
        ∈ (param k node v peer w4 echo s).out := by
  rw [param, if_neg (param_read hs hl)]
  simp only [hr]
  refine ⟨?_, ?_, ?_, ?_⟩
  · rw [portSt_paramDone, portSt_emit, portSt_setPort_same]
  · rw [portSt_paramDone, portSt_emit, portSt_setPort_same]
  · rw [rd_paramDone _ _ (by decide) (by decide), rd_emit, rd_setPort, rd_wr_same]
  · rw [paramDone_out]
    exact List.mem_cons_self

/-- Parameters with no valid node at either end take the port down with cause TRAIN_FAIL. -/
theorem param_refused {node peer : Nat} {v w4 : Bool} (echo : Nat) (hr : paramRefused s k node v peer w4 = some 2) :
    param k node v peer w4 echo s
      = portDown k 2 (wr (pPort k) 0x114 (BitVec.ofNat 32 (node % 4096 + 0x1000 * (peer % 64) + 0x40000)) s) := by
  rw [param, if_neg (param_read hs hl)]
  simp only [hr]
  rfl

/-- An answer over a fibre of at most 2,000 m is kept with the round trip it measures. -/
theorem paramAck_near (echo : Nat) {m : Nat} (hc : nbit (portSt s k).cfg 2 = false) (hm : m ≤ 2000) :
    (portSt (paramAck k echo m s) k).gotAck = true ∧ rd (paramAck k echo m s) (pPort k) 0x118
      = BitVec.ofNat 32 (min ((s.now + 2 ^ 32 - echo % 2 ^ 32) % 2 ^ 32) 0xFFFF + 0x10000 * m) := by
  rw [paramAck, if_neg (param_read hs hl)]
  simp only [hc, Bool.false_eq_true, if_false, if_neg (Nat.not_lt.mpr hm), Nat.min_eq_left (Nat.le_trans hm (by decide : 2000 ≤ 0xFFF))]
  refine ⟨?_, ?_⟩
  · rw [portSt_paramDone, portSt_setPort_same]
  · rw [rd_paramDone _ _ (by decide) (by decide), rd_setPort, rd_wr_same]

/-- An answer over a longer fibre takes the port down with cause RANGE. -/
theorem paramAck_far (echo : Nat) {m : Nat} (hc : nbit (portSt s k).cfg 2 = false) (hm : 2000 < m) :
    paramAck k echo m s = portDown k 6 (rttStored k echo m s) := by
  rw [paramAck, if_neg (param_read hs hl)]
  simp only [hc, Bool.false_eq_true, if_false]
  exact if_pos hm

end

/-! ### UP (R544, R547, R550) -/

theorem assignLanes_mem (k : Nat) (tx : Bool) (width : Nat) (s : State) : (assignLanes k tx width s).mem = s.mem :=
  foldl_mem s _ _ fun t _ => wr_mem t _ _ _

/-- The state in which the lanes of a port have their wavelengths and its count of failed retrains is clear. -/
def lanesReady (k width : Nat) (s : State) : State :=
  let s1 := spareBits k width (assignLanes k false width (assignLanes k true width s))
  setPort k { portSt s1 k with retraining := false, fails := 0, replays := 0 } s1

theorem lanesReady_mem (k width : Nat) (s : State) : (lanesReady k width s).mem = s.mem := by
  rw [lanesReady, setPort_mem, spareBits, wr_mem, assignLanes_mem, assignLanes_mem]

theorem lanesReady_retraining (k width : Nat) (s : State) : (portSt (lanesReady k width s) k).retraining = false := by
  rw [lanesReady, portSt_setPort_same]

/-- What follows the entry to UP leaves LINK_STAT: events, DIST entries, the replay and the packets that move. -/
theorem portReady_settles (k width : Nat) (training : Bool) (s : State) : LinkFrame (portReady k width training s)
    (setPeerHold k false (setLState k 6 (setLinkStat k 7 4 width (lanesReady k width s)))) := by
  unfold portReady
  simp only
  exact (linkFrame_pump _).trans ((linkFrame_replaySent _ _).trans
    (.ite (linkFrame_portDist _ _ _ _ _) (.ite (.event _ _ _) (.ite (.event _ _ _) (.refl _)))))

/-- A port that reaches UP is at the width given, without PEER_HOLD and no longer retraining. -/
theorem portReady_up {k width : Nat} (hk : k < 48) (hw : width < 16) (training : Bool) (s : State) :
    portLState (portReady k width training s) k = 6 ∧ portWidth (portReady k width training s) k = width
      ∧ portPeerHold (portReady k width training s) k = false ∧ (portReady k width training s).mem = s.mem
      ∧ (portSt (portReady k width training s) k).retraining = false := by
  have hframe := portReady_settles k width training s
  generalize hu : lanesReady k width s = u at hframe
  have hstat := hframe.stat k hk
  have hquiet := quiet_setPeerHold k false (setLState k 6 (setLinkStat k 7 4 width u))
  obtain ⟨hhold, hstate, hwidth⟩ := setPeerHold_fields hk false (setLState k 6 (setLinkStat k 7 4 width u))
  refine ⟨(portLState_congr hstat).trans (hstate.trans (portLState_setLState k (by decide) _)),
    (portWidth_congr hstat).trans (hwidth.trans ?_), (portPeerHold_congr hstat).trans hhold, ?_, (hframe.retraining k).trans ?_⟩
  · rw [portWidth, setLState, rd_setLinkStat_same, fld_setFld_ne _ _ (by decide) (by decide) (by decide) (by decide), rd_setLinkStat_same,
      fld_setFld_same _ _ (by decide) (by decide)]
    exact Nat.mod_eq_of_lt hw
  · rw [hframe.mem, hquiet.mem, setLState, setLinkStat_mem, setLinkStat_mem, ← hu, lanesReady_mem]
  · rw [portSt_congr (congrArg LinkSt.ports hquiet.links), portSt_setLState, portSt_setLinkStat, ← hu, lanesReady_retraining]

/-- The end of CREDIT brings the link up at the agreed width. -/
theorem execCreditDone_up {s : State} {k : Nat} (hs : s.inHold = false) (hl : portLState s k = 5) :
    ∃ p : PortSt, execCreditDone k s = .next (portReady k (portSt s k).agreedWidth true (setPort k p s)) := by
  rw [execCreditDone, if_neg (by simp [hs, hl])]
  exact ⟨_, rfl⟩

/-! ### The ways back (R544, R547, R548) -/

/-- A port that enters DETECT takes LINK_CFG into effect and keeps its other registers. -/
theorem enterDetect_detects (k : Nat) (s : State) : portLState (enterDetect k s) k = 1
    ∧ (portSt (enterDetect k s) k).cfg = (rd s (pPort k) 0x104).toNat
    ∧ ∀ x, x < 0x1000 → x ≠ 0x110 → rd (enterDetect k s) (pPort k) x = rd s (pPort k) x := by
  refine ⟨portLState_setLState k (by decide) _, ?_, fun x hx h => ?_⟩
  · rw [enterDetect, portSt_setLState, portSt_setPort_same]
  · rw [enterDetect, setLState, rd_setLinkStat_off _ _ hx h, rd_setPort, rd_tickFree]

/-- A step that overruns its bound returns the port to DETECT and is counted. -/
theorem timedOut_detects (k : Nat) (s : State) : portLState (satInc (pPort k) 0x11C 1 (enterDetect k s)) k = 1
    ∧ rd (satInc (pPort k) 0x11C 1 (enterDetect k s)) (pPort k) 0x11C = sat32 ((rd s (pPort k) 0x11C).toNat + 1) := by
  obtain ⟨hstate, -, hrd⟩ := enterDetect_detects k s
  refine ⟨(portLState_congr (rd_wr_off _ _ (by decide) (by decide) (by decide))).trans hstate, ?_⟩
  rw [satInc, rd_wr_same, hrd _ (by decide) (by decide)]

theorem trainingTimeout_runs {s : State} {k : Nat} (hs : s.inHold = false)
    (hl : portLState s k = 2 ∨ portLState s k = 3 ∨ portLState s k = 4 ∨ portLState s k = 5 ∨ portLState s k = 7) :
    ¬(s.inHold = true ∨ ¬((2 ≤ portLState s k ∧ portLState s k ≤ 5) ∨ portLState s k = 7)) := by
  rintro (hold | hstep)
  · exact Bool.noConfusion (hs.symm.trans hold)
  · omega

/-- A failed retrain with fewer than two before it is tried again. -/
theorem retrainFailed_again {s : State} {k : Nat} (hf : (portSt s k).fails < 2) : portLState (retrainFailed k s) k = 7
    ∧ (portSt (retrainFailed k s) k).fails = (portSt s k).fails + 1 := by
  rw [retrainFailed, if_neg (Nat.not_le.mpr hf)]
  refine ⟨portLState_setLState k (by decide) _, ?_⟩
  rw [portSt_setLState, portSt_setPort_same]

/-- The third failed retrain in a row takes the port down with cause TRAIN_FAIL. -/
theorem retrainFailed_down {s : State} {k : Nat} (hf : 2 ≤ (portSt s k).fails) :
    retrainFailed k s = portDown k 2 (satInc (pPort k) 0x11C 1 s) := if_pos hf

section
variable {s : State} {k : Nat} (hs : s.inHold = false) (hr : (portSt s k).retraining = true)
include hs hr

theorem retrainDone_runs : ¬(s.inHold = true ∨ (!(portSt s k).retraining) = true) := by simp [hs, hr]

theorem execRetrainDone_failed : execRetrainDone k false s = .next (retrainFailed k s) := by
  rw [execRetrainDone, if_neg (retrainDone_runs hs hr)]
  rfl

/-- A retrain that finds eight usable wavelengths each way ends in UP at full width. -/
theorem execRetrainDone_full (hw : linkWidth s k = 8) : execRetrainDone k true s = .next (portReady k 8 false s) := by
  rw [execRetrainDone, if_neg (retrainDone_runs hs hr), if_neg (by decide), if_neg (by simp [hw])]
  exact congrArg (fun w => Host.Outcome.next (portReady k w false s)) hw

/-- A retrain that finds too few wavelengths takes the port down with cause WIDTH_LOST. -/
theorem execRetrainDone_none (hw : linkWidth s k = 0) : execRetrainDone k true s = .next (portDown k 4 s) := by
  rw [execRetrainDone, if_neg (retrainDone_runs hs hr), if_neg (by decide), if_pos (.inl hw)]

end

/-- The hold-off of a port in DOWN that may retry ends in DETECT. -/
theorem execDownHoldoff_detects {s : State} {k : Nat} (hs : s.inHold = false) (hl : portLState s k = 8)
    (hh : (portSt s k).heldDown = false) (hc : nbit (portSt s k).cfg 3 = true)
    (ht : (portSt s k).downAt + (if (portSt s k).cfg / 16 % 4096 = 0 then 10 else (portSt s k).cfg / 16 % 4096) * 1000000 ≤ s.now) :
    execDownHoldoff k s = .next (enterDetect k s) := by
  refine if_neg ?_
  simp only [hs, hl, hh, hc, Bool.false_eq_true, ne_eq, not_true_eq_false, Bool.not_true, false_or, Nat.not_lt]
  exact ht

/-! ### LINK_CMD (R548, R579) -/

theorem linkCmdWrite_retrain (k : Nat) {s : State} (hs : s.inHold = false) : linkCmdWrite k 1 s
    = if portLState s k = 6 then enterRetrain k s else if portLState s k = 8 then enterDetect k s else s := by
  rw [linkCmdWrite, if_neg (by decide), if_pos (by decide), linkRetrain, if_neg (by simp [hs])]

/-- LINK_CMD.DOWN takes a port down with cause FORCED and holds it there. -/
theorem linkCmdWrite_down {s : State} {k : Nat} (hs : s.inHold = false) (h0 : portLState s k ≠ 0) (h8 : portLState s k ≠ 8) :
    linkCmdWrite k 2 s = setPort k { portSt (portDown k 0x0A s) k with heldDown := true } (portDown k 0x0A s) := by
  rw [linkCmdWrite, if_pos (by decide), linkDown, if_neg (by simp [hs, h0, h8])]

end Sys2Proof.Machine
end

section
/-! PROOFS. The statement on the training and the loss of links. -/

namespace Sys2Proof.Machine

/-- Settles O44: each step of training, each failure and each command from the state it leaves the port in. That loss of light passes
over a port with PEER_HOLD is the model's reading of R548 and R573. -/
theorem linksTrainAndGoDown : Obligations.LinksTrainAndGoDown := by
  unfold Obligations.LinksTrainAndGoDown
  refine ⟨fun s k n _ hs hl => ⟨_, execLightDetect_seen n hs hl, portLState_setLState k (by decide) s, wr_only_regs _ _ _ s⟩,
    fun s k n _ hs hl hc hn => ⟨_, execLightDetect_swaps hs hl hc hn, portLState_setLState k (by decide) _, swapped_setLState k 2 _ s⟩,
    fun s k a b _ hs hl => ⟨_, if_neg (by simp [hs, hl]), portLState_setLState k (by decide) _, ?tuned⟩,
    fun s k _ hs hl w hw => ⟨_, if_neg (by simp [hs, hl]), portLState_setLState k (by decide) _, ?aligned⟩,
    fun s k node peer echo v w4 _ hs hl =>
      ⟨fun hr => ⟨_, rfl, param_accepted hs hl echo hr⟩,
        fun hr => congrArg Host.Outcome.next (param_refused hs hl echo hr)⟩,
    fun s k echo m hk hs hl hc => ⟨fun hm => ⟨_, rfl, paramAck_near hs hl echo hc hm⟩,
      fun hm => ⟨_, congrArg Host.Outcome.next (paramAck_far hs hl echo hc hm), ?far⟩⟩,
    fun s k hk hs hl hw => ?credit,
    fun s k _ hs hl => ⟨fun hr => ⟨_, ?timeout, timedOut_detects k s⟩, ?retrainTimeout⟩,
    fun s k hk hs hr =>
      ⟨fun hf => ⟨_, execRetrainDone_failed hs hr, retrainFailed_again hf⟩,
        fun hf => ⟨_, execRetrainDone_failed hs hr, ?failedThrice⟩,
        fun ha hg => ⟨_, execRetrainDone_full hs hr (linkWidth_full ha hg), ?retrained⟩,
        fun ha => execRetrainDone_none hs hr (linkWidth_none ha)⟩,
    fun s k _ => ⟨fun hl => ⟨_, if_pos hl, ?standby⟩, fun hh hl => ?peerHeld, fun h0 h1 h8 h9 hh => ?lost⟩,
    fun s k _ hs hl hh hc ht => ⟨_, execDownHoldoff_detects hs hl hh hc ht, ?holdoff⟩,
    fun s k hk hs =>
      ⟨fun hl => ⟨_, congrArg Host.Outcome.next ((linkCmdWrite_retrain k hs).trans (if_pos hl)), (enterRetrain_retrains hk s).1⟩,
        fun hl => ⟨_, congrArg Host.Outcome.next ((linkCmdWrite_retrain k hs).trans ((if_neg (by simp [hl])).trans (if_pos hl))),
          (enterDetect_detects k s).1⟩,
        fun h0 h8 => ⟨_, congrArg Host.Outcome.next (linkCmdWrite_down hs h0 h8), ?cmdDown⟩⟩⟩
  case tuned =>
    obtain ⟨ha, hb⟩ := failedWls_tuned (a := a) (b := b) ((rd_setLinkStat_off _ (pOptics k) (by decide) (by decide)).trans (rd_wr_same s _ _ _))
    exact ⟨ha, hb, only_regs_wr (wr_only_regs _ _ _ s) _ _ _⟩
  case aligned =>
    rw [portSt_setLState, portSt_setPort_same]
    refine commonWidth_eq_min ?_ (allowedWidth_cases s k)
    simpa only [List.mem_cons, List.not_mem_nil, or_false] using hw
  case far =>
    obtain ⟨hstate, hcause, -⟩ := portDown_down hk (by decide : 6 < 16) (rttStored k echo m s)
    exact ⟨hstate, hcause⟩
  case credit =>
    obtain ⟨p, he⟩ := execCreditDone_up hs hl
    obtain ⟨hstate, hwidth, hhold, hmem, -⟩ := portReady_up hk hw true (setPort k p s)
    exact ⟨_, he, hstate, hwidth, hhold, hmem⟩
  case timeout => exact (if_neg (trainingTimeout_runs hs hl)).trans (if_neg (by simp [hr]))
  case retrainTimeout => exact fun hr => (if_neg (trainingTimeout_runs hs hl)).trans (if_pos hr)
  case failedThrice =>
    rw [retrainFailed_down hf]
    obtain ⟨hstate, hcause, -⟩ := portDown_down hk (by decide : 2 < 16) (satInc (pPort k) 0x11C 1 s)
    exact ⟨hstate, hcause⟩
  case retrained =>
    obtain ⟨hstate, hwidth, -, -, hret⟩ := portReady_up hk (by decide : 8 < 16) false s
    exact ⟨hstate, hwidth, hret⟩
  case standby => exact ⟨congrArg PortSt.lostLight (portSt_setPort_same k _ s), rfl⟩
  case peerHeld => exact (if_neg hl).trans (if_pos (.inr (.inr (.inr hh))))
  case lost => exact (if_neg h9).trans (if_neg (by simp [h0, h1, h8, hh]))
  case holdoff =>
    obtain ⟨hstate, hcfg, -⟩ := enterDetect_detects k s
    exact ⟨hstate, hcfg⟩
  case cmdDown =>
    obtain ⟨hstate, hcause, -⟩ := portDown_down hk (by decide : 0x0A < 16) s
    refine ⟨(portLState_setPort _ _ _ _).trans hstate, ?_, ?_⟩
    · rw [rd_setPort, hcause]
    · rw [portSt_setPort_same]

end Sys2Proof.Machine
end

section
/-! SUPPORT. Flows and the transfer engines (13_collectives.md R588, R591, R593 to R597, R601, R602): what a sender keeps of a chunk it has
sent, the packet a command takes, and the first packet of a received flow. -/

namespace Sys2Proof.Machine

/-! ### The sending side of a flow -/

@[simp] theorem txFlow_setTxFlow_same (q node : Nat) (f : FlowTx) (s : State) : txFlow (setTxFlow q node f s) q node = f :=
  sget_sput_same _ _ _ _

theorem txFlow_congr {t s : State} (h : t.xfer.tx = s.xfer.tx) (q node : Nat) : txFlow t q node = txFlow s q node :=
  congrArg (sget (fun _ => ({} : FlowTx)) · (q * 4096 + node)) h

theorem findChunk_congr {t s : State} (h : t.xfer = s.xfer) (q node cseq : Nat) : findChunk t q node cseq = findChunk s q node cseq := by
  rw [findChunk, findChunk, txFlow_congr (congrArg XferSt.tx h)]

/-- A change of the elements with a key commutes with the search for that key, where it keeps the key. -/
theorem find?_map_where {α : Type} (key : α → Nat) {g : α → α} (hg : ∀ x, key (g x) = key x) (k : Nat) (l : List α) :
    (l.map fun x => if key x = k then g x else x).find? (fun x => key x == k) = (l.find? fun x => key x == k).map g := by
  induction l with
  | nil => rfl
  | cons x l ih => by_cases h : key x = k <;> simp [h, hg, ih]

theorem findChunk_updChunk (q node cseq : Nat) {g : TxChunk → TxChunk} (hg : ∀ c, (g c).cseq = c.cseq) (s : State) :
    findChunk (updChunk q node cseq g s) q node cseq = (findChunk s q node cseq).map g := by
  rw [findChunk, updChunk, txFlow_setTxFlow_same]
  exact find?_map_where TxChunk.cseq hg cseq _

theorem findMsg_updMsg (id : Nat) {g : Msg → Msg} (hg : ∀ m, (g m).id = m.id) (s : State) :
    findMsg (updMsg id g s) id = (findMsg s id).map g := find?_map_where Msg.id hg id _

theorem findChunk_dropChunk (q node cseq : Nat) (cancel : Bool) (s : State) :
    findChunk (dropChunk q node cseq cancel s) q node cseq = none := by
  rw [findChunk, dropChunk, txFlow_setTxFlow_same]
  exact List.find?_eq_none.mpr fun c hc => by simpa using (List.mem_filter.mp hc).2

/-! ### CHUNK_SEND (R588, R607) -/

/-- An engine that serves a message notes the turn it took, and only then sends the chunk. -/
theorem chunkSend_serves {s : State} {d n : Nat} {m : Msg} (hd : d < 8) (hn : n < 8) (hs : s.inHold = false)
    (he : engState s d n = .active) (hm : engineNext s d n = some m) :
    ∃ u : State, chunkSend d n s = pump (if m.isFlow then flowChunk m u else localStep m n u)
      ∧ u.mem = s.mem ∧ u.felt = s.felt ∧ u.xfer.msgs = s.xfer.msgs ∧ u.xfer.tx = s.xfer.tx := by
  have hruns : ¬(8 ≤ d ∨ 8 ≤ n ∨ s.inHold = true ∨ ¬(engState s d n = .active ∨ engState s d n = .draining)) := by
    simp [hs, he, hd, hn]
  rw [chunkSend]
  simp only [if_neg hruns, hm]
  refine ⟨_, rfl, ?_⟩
  split
  · split
    · exact ⟨rfl, rfl, rfl, rfl⟩
    · simp
  · exact ⟨rfl, rfl, rfl, rfl⟩

/-- With no cancelled chunk to name, no CANCEL precedes the chunk (R602). -/
theorem sendCancels_none {s : State} {q node : Nat} (h : (txFlow s q node).cancelled = []) :
    sendCancels q node s = setTxFlow q node (txFlow s q node) s := by
  have hflow : { txFlow s q node with cancelled := [] } = txFlow s q node := by rw [← h]
  simp only [sendCancels, h, runsOf, List.foldl_nil, hflow]

@[simp] theorem sendPkt_tx (die : Nat) (slice : Option Nat) (q node typ : Nat) (payload : List Byte) (s : State) :
    (sendPkt die slice q node typ payload s).xfer.tx = s.xfer.tx := rfl

theorem emitChunk_signal {m : Msg} (hk : m.kind = .signal) (k cseq : Nat) (resync : Bool) (s : State) :
    ∃ t : State, emitChunk m k cseq resync s = .ok false t ∧ t.xfer.tx = s.xfer.tx := by
  simp only [emitChunk, hk]
  exact ⟨_, rfl, by rw [addProg_xfer, sendPkt_tx]⟩

theorem countMoved_xfer (m : Msg) (pg n : Nat) (s : State) : (countMoved m pg n s).xfer = s.xfer := by
  have hring (r i k : Nat) (t : State) : (addRingProg r i k t).xfer = t.xfer := by unfold addRingProg; split <;> rfl
  simp [countMoved, hring]

theorem flowChunk_signal {m : Msg} {s : State} (hk : m.kind = .signal) (hc : (txFlow s m.queue m.node).cancelled = []) :
    ∃ c : TxChunk, (txFlow (flowChunk m s) m.queue m.node).next = ((txFlow s m.queue m.node).next + 1) % 0x10000
      ∧ (txFlow (flowChunk m s) m.queue m.node).chunks = (txFlow s m.queue m.node).chunks ++ [c]
      ∧ c.cseq = (txFlow s m.queue m.node).next ∧ c.msg = some m.id := by
  obtain ⟨t, ht, htx⟩ := emitChunk_signal hk 0 (txFlow s m.queue m.node).next (txFlow s m.queue m.node).resync
    (setTxFlow m.queue m.node (txFlow s m.queue m.node) s)
  have hflow : txFlow t m.queue m.node = txFlow s m.queue m.node := (txFlow_congr htx _ _).trans (txFlow_setTxFlow_same _ _ _ _)
  simp only [flowChunk, hk, sendCancels_none hc, txFlow_setTxFlow_same, ht, hflow, Bool.false_eq_true, if_false]
  rw [txFlow_congr (congrArg XferSt.tx (countMoved_xfer _ _ _ _))]
  exact ⟨_, congrArg FlowTx.next (txFlow_setTxFlow_same ..), congrArg FlowTx.chunks (txFlow_setTxFlow_same ..), rfl, rfl⟩

/-! ### Packets taken, and the answers to a chunk (R593, R596, R601) -/

theorem withPkt_taken {s s1 : State} {die typ : Nat} {p : Packet} (idle : State) (f : Packet → XHead → State → State)
    (hs : s.inHold = false) (h : takePkt die typ s = some (p, s1)) :
    withPkt die typ s idle f = pump (f p (headOf p.payload) (notePace p.src (headOf p.payload).pace s1)) := by
  rw [withPkt, if_neg (by simp [hs]), h]

theorem ackPkt_counted {s : State} {p : Packet} {h : XHead} {c : TxChunk} (hc : findChunk s p.queue p.src h.cseq = some c)
    (hg : c.isGet = false) (hm : c.msg = none) : ackPkt p h s = dropChunk p.queue p.src h.cseq false s := by
  simp only [ackPkt, hc, hg, hm, Bool.false_eq_true, if_false]

theorem busyPkt_again {s : State} {p : Packet} {h : XHead} {c : TxChunk} (hc : findChunk s p.queue p.src h.cseq = some c)
    (hm : c.msg = none) : ∃ x, findChunk (busyPkt p h s) p.queue p.src h.cseq = some x ∧ x.busy = c.busy + 1
      ∧ x.busyAt = some (s.now + min (16000 * (c.busy + 1)) 1000000) := by
  have hfind : findChunk (addProg (qPage p.queue) 6 1 s) p.queue p.src h.cseq = some c :=
    (findChunk_congr (addProg_xfer ..) _ _ _).trans hc
  simp only [busyPkt, hc, chunkMsg, hm, Bool.false_eq_true, if_false]
  rw [findChunk_updChunk, hfind]
  · exact ⟨_, rfl, rfl, rfl⟩
  · exact fun _ => rfl

theorem busyRetry_due {s : State} {q node cseq at' : Nat} {c : TxChunk} (hc : findChunk s q node cseq = some c)
    (hb : c.busyAt = some at') (ht : at' ≤ s.now) (hs : s.inHold = false) (he : engState s (q % 8) (q / 8) = .active) :
    busyRetry q node cseq s = pump (resendChunk q node c s) := by
  simp only [busyRetry, hc, hb]
  exact if_neg (by simp [hs, he, ht])

/-! ### The first packet of a received flow (R584, R594) -/

@[simp] theorem rxFlow_setRxFlow_same (key : Nat) (f : FlowRx) (s : State) : rxFlow (setRxFlow key f s) key = f :=
  sget_sput_same _ _ _ _

/-- Which slice receives on an endpoint does not hang on what a flow has received. -/
theorem endpointSlice_setRxFlow (key : Nat) (f : FlowRx) (s : State) (u ep : Nat) :
    endpointSlice (setRxFlow key f s) u ep = endpointSlice s u ep := rfl

theorem discardRest_empty (h : XHead) : discardRest {} h = none := rfl
theorem past_empty (cseq : Nat) : FlowRx.past {} cseq = false := rfl
theorem serase_nil {β : Type} (k : Nat) : serase k ([] : List (Nat × β)) = [] := rfl

section
variable {s : State} {p : Packet} (hf : rxFlow s (rxKey p.src p.queue) = {})
include hf

theorem takeData_noEndpoint (typ : Nat) {d : Nat} {h : XHead} (he : endpointSlice s (pCopyGrp d) h.ep = none) :
    takeData typ d p h s = refuseChunk d (rxKey p.src p.queue) h.cseq 1 0 0 false
      (turnAway (rxKey p.src p.queue) h (setRxFlow (rxKey p.src p.queue) {} s)) := by
  simp only [takeData, hf, discardRest_empty, serase_nil, rxFlow_setRxFlow_same, past_empty, endpointSlice_setRxFlow, he]
  exact if_neg (by simp)

theorem takeData_migrating {s1 : State} {d sl va : Nat} {h : XHead} (he : endpointSlice s (pCopyGrp d) h.ep = some sl)
    (hj : fabJob s (pCopyGrp d) sl = h.job)
    (hx : xlateRange { ctxValid := true, pasid := fabPasid s (pCopyGrp d) sl, slice := sl } (rxPage d (rxKey p.src p.queue))
      (fabPasid s (pCopyGrp d) sl) h.addr 8 .write (setRxFlow (rxKey p.src p.queue) {} s) = .migrating va s1) :
    takeData 2 d p h s = busyChunk d (rxKey p.src p.queue) h.cseq (turnAway (rxKey p.src p.queue) h s1) := by
  have hjob : fabJob (setRxFlow (rxKey p.src p.queue) {} s) (pCopyGrp d) sl = h.job := hj
  have hpasid : fabPasid (setRxFlow (rxKey p.src p.queue) {} s) (pCopyGrp d) sl = fabPasid s (pCopyGrp d) sl := rfl
  simp only [takeData, hf, discardRest_empty, serase_nil, rxFlow_setRxFlow_same, past_empty, endpointSlice_setRxFlow, he, hjob,
    hpasid]
  simp [hx]

end

end Sys2Proof.Machine
end

section
/-! PROOFS. The statement on packets and the handlers they reach. -/

namespace Sys2Proof.Machine

/-- Settles O46: one argument for all twelve packet commands, then what each handler leaves of its chunk or flow. -/
theorem packetsReachTheirHandlers : Obligations.PacketsReachTheirHandlers := by
  unfold Obligations.PacketsReachTheirHandlers
  refine ⟨fun s s1 d p e he hs ht => ?packet,
    fun s d n m hd hn hs he hm => ?chunk,
    fun s m hk hc => flowChunk_signal hk hc,
    fun s p h c hc hg hm => ackPkt_counted hc hg hm ▸ ⟨findChunk_dropChunk .., rfl⟩,
    fun s p h c hc hm => busyPkt_again hc hm,
    fun s q node cseq at' c hc hb ht hs he => congrArg Host.Outcome.next (busyRetry_due hc hb ht hs he),
    fun s typ d p h hf he =>
      ⟨turnAway (rxKey p.src p.queue) h (setRxFlow (rxKey p.src p.queue) {} s), rfl, rfl, takeData_noEndpoint hf typ he⟩,
    fun s s1 d sl va p h hf he hj hx => takeData_migrating hf he hj hx⟩
  case packet =>
    simp only [List.mem_cons, List.not_mem_nil, or_false] at he
    rcases he with rfl | rfl | rfl | rfl | rfl | rfl | rfl | rfl | rfl | rfl | rfl | rfl
    all_goals exact congrArg Host.Outcome.next (withPkt_taken _ _ hs ht)
  case chunk =>
    obtain ⟨u, hu, hsame⟩ := chunkSend_serves hd hn hs he hm
    exact ⟨u, congrArg Host.Outcome.next hu, hsame⟩

end Sys2Proof.Machine
end

section
/-! SUPPORT. How a chunk fails, how a transfer is held, and the reset of a flow (13_collectives.md R598, R599, R603, R620, R625). -/

namespace Sys2Proof.Machine

/-! ### Failed chunks (R598, R599) -/

/-- Of a message that has not failed, no chunk lies beyond the failed one (R600). -/
theorem beyondFail_unfailed {m : Msg} (hf : m.fail = none) (c : TxChunk) : beyondFail m c = false := by rw [beyondFail, hf]

theorem refusePkt_fails {s : State} {p : Packet} {h : XHead} {c : TxChunk} {m : Msg} (hc : findChunk s p.queue p.src h.cseq = some c)
    (hm : chunkMsg s c = some m) (hf : m.fail = none) : refusePkt p h s
      = chunkFailed p.queue p.src c m (if h.value % 4 = 0 then 0x10 else 0x40) (if h.value % 4 = 0 then 4 else 5) s := by
  simp only [refusePkt, hc, hm, beyondFail_unfailed hf, Bool.false_eq_true, if_false]

theorem getFailPkt_fails {s : State} {p : Packet} {h : XHead} {c : TxChunk} {m : Msg} (hc : findChunk s p.queue p.src h.cseq = some c)
    (hm : chunkMsg s c = some m) (hf : m.fail = none) (hg : c.isGet = true) :
    getFailPkt p h s = chunkFailed p.queue p.src c m 0x40 7 s := by
  simp only [getFailPkt, hc, hm]
  exact if_neg (by simp [hg, beyondFail_unfailed hf])

/-- A notice for the last sending of a chunk: sent again while a port is down, at most three times, else failed. -/
theorem unreachTx_last {s : State} {q node cseq pseq : Nat} {c : TxChunk} {m : Msg} (hc : findChunk s q node cseq = some c)
    (hm : chunkMsg s c = some m) (hf : m.fail = none) (hk : c.isCancel = none) (hl : ofSending c.pseq pseq = true) (cause : Nat) :
    unreachTx q node cseq pseq cause s = if cause = unreachDown ∧ c.resend < 3
      then resendChunk q node c (updChunk q node cseq (fun x => { x with resend := x.resend + 1 }) s)
      else chunkFailed q node c m 0x40 (if cause = unreachDown then 7 else 6) s := by
  simp only [unreachTx, hc, hm, hk, hl, beyondFail_unfailed hf, Bool.not_true, Bool.false_eq_true, if_false, Bool.and_eq_true,
    decide_eq_true_eq]

/-! ### HELD (R603) -/

theorem heldPkt_bounds {s : State} {p : Packet} {h : XHead} {c : TxChunk} {m : Msg} {i : Nat}
    (hc : findChunk s p.queue p.src h.cseq = some c) (hi : c.msg = some i) (hm : findMsg s i = some m) (hn : m.heldAt = none) :
    ∃ m', findMsg (heldPkt p h s) i = some m' ∧ m'.heldAt = some s.now := by
  have hfind : findMsg (event (qPage p.queue) 2 s) i = some m := by rw [← hm, findMsg, findMsg, event_xfer]
  simp only [heldPkt, hc, hi]
  rw [findMsg_updMsg, hfind]
  · exact ⟨_, rfl, by simp [hn]⟩
  · exact fun x => by split <;> rfl

theorem heldNotice_sent {s : State} {key k v hp : Nat} {f : Flit} {rest : List Flit} (hq : inQueue s key = f :: rest)
    (hr : routeAt s key = some (.out k v hp)) (hs : s.inHold = false) (hh : portPeerHold s k = true) (hf : f.first = true)
    (ht : f.typ ≤ 4 ∨ f.typ = 0x10) (hn : s.xfer.heldNotes.contains (f.src * 4096 + f.dst, f.squeue, bytesAt f.payload 12 2) = false) :
    heldNotice key s = pump (injectPkt (inputDie key) none 8
      { src := nodeId s, dst := f.src, queue := f.squeue, typ := 0x14, payload := noticeBytes s (bytesAt f.payload 12 2) f.dst }
      { s with xfer := { s.xfer with heldNotes := (f.src * 4096 + f.dst, f.squeue, bytesAt f.payload 12 2) :: s.xfer.heldNotes } }) := by
  simp only [heldNotice, hq, hr]
  exact if_neg (by simp only [hs, hh, hf, ht, hn]; decide)

theorem peerHoldTimeout_ends {s : State} {id at' : Nat} {m : Msg} (hm : findMsg s id = some m) (ha : m.heldAt = some at')
    (hs : s.inHold = false) (hb : m.holdMs ≠ 0) (ht : at' + m.holdMs * 1000000 ≤ s.now) :
    peerHoldTimeout id s = pump (endMsg m 0 (0x41, 0x08) s) := by
  simp only [peerHoldTimeout, hm, ha]
  exact if_neg (by simp [hs, hb, ht])

/-! ### PACE_PING_TIMER and XE_FLOW_RESET (R620, R625) -/

theorem pacePingTimer_pings {s : State} {d : Nat} (hd : d < 8) (hs : s.inHold = false) (hm : matchActive s = true) :
    pacePingTimer d s = pump ((planPeers s d).foldl (fun t n => answerPkt d d n 0x17 0 0 t) s) := by
  simp only [pacePingTimer]
  exact if_neg (by simp [hs, hm, hd])

theorem xeFlowReset_only_rx (w : Word) (s : State) :
    xeFlowReset w s = { s with xfer := { s.xfer with rx := (xeFlowReset w s).xfer.rx } } := by
  unfold xeFlowReset
  split <;> rfl

theorem xeFlowReset_all {w : Word} (h : bitOf w 18 = true) (s : State) : (xeFlowReset w s).xfer.rx = [] := by
  rw [xeFlowReset, if_pos h]

theorem xeFlowReset_one {w : Word} (h : bitOf w 18 = false) (s : State) :
    (xeFlowReset w s).xfer.rx = serase (rxKey (fld w 11 0) (fld w 17 12)) s.xfer.rx := by
  rw [xeFlowReset, if_neg (by simp [h])]

theorem rxFlow_xeFlowReset {w : Word} (h : bitOf w 18 = false) (s : State) (key : Nat) :
    rxFlow (xeFlowReset w s) key = if key = rxKey (fld w 11 0) (fld w 17 12) then {} else rxFlow s key := by
  rw [rxFlow, xeFlowReset_one h]
  split
  case isTrue hk => exact hk ▸ sget_serase_same ..
  case isFalse hk => exact sget_serase_ne _ _ hk

end Sys2Proof.Machine
end

section
/-! PROOFS. The statement on transfers that fail and that are held. -/

namespace Sys2Proof.Machine

/-- Settles O47: each answer and notice from what it does to its chunk or message. Of PACE_PING_TIMER the statement gives the case in
which matching is active. -/
theorem transfersFailAndAreHeld : Obligations.TransfersFailAndAreHeld := by
  unfold Obligations.TransfersFailAndAreHeld
  refine ⟨fun s p h c m hc hm hf => ⟨fun hv => ?refusedXlate, fun hv => ?refusedEndpoint, fun hg => getFailPkt_fails hc hm hf hg⟩,
    fun s q node cseq pseq c m hc hm hf hk hl => ?unreach,
    fun s p h c m i hc hi hm hn => heldPkt_bounds hc hi hm hn,
    fun s key k v hp f rest hq hr hs hh hf ht hn => ⟨_, rfl, congrArg Host.Outcome.next (heldNotice_sent hq hr hs hh hf ht hn)⟩,
    fun s id at' m hm ha hs hb ht => congrArg Host.Outcome.next (peerHoldTimeout_ends hm ha hs hb ht),
    fun s d hd hs hm => congrArg Host.Outcome.next (pacePingTimer_pings hd hs hm),
    fun s w => ⟨_, rfl, xeFlowReset_only_rx w s, fun h => xeFlowReset_all h s, fun h =>
      ⟨(rxFlow_xeFlowReset h s _).trans (if_pos rfl), fun key hk => (rxFlow_xeFlowReset h s key).trans (if_neg hk)⟩⟩⟩
  case refusedXlate => rw [refusePkt_fails hc hm hf, if_pos hv, if_pos hv]
  case refusedEndpoint => rw [refusePkt_fails hc hm hf, if_neg hv, if_neg hv]
  case unreach =>
    have hlast := unreachTx_last hc hm hf hk hl
    exact ⟨fun hr => (hlast _).trans (if_pos ⟨rfl, hr⟩), fun hr => (hlast _).trans (if_neg fun e => Nat.not_lt.mpr hr e.2),
      (hlast _).trans (if_neg fun e => absurd e.1 (by decide)), (hlast _).trans (if_neg fun e => absurd e.1 (by decide))⟩

end Sys2Proof.Machine
end

section
/-! SUPPORT. Plans, lag windows and pace matching (13_collectives.md R613 to R618, R621 to R623). -/

namespace Sys2Proof.Machine

/-! ### A plan's next step (R613 to R615) -/

section
variable (d slot : Nat) (s : State)
theorem exec_collectiveSend : exec (.collectiveSend d slot) s = execCollectiveSend d slot s := rfl
theorem exec_collectiveSignal : exec (.collectiveSignal d slot) s = execCollectiveSignal d slot s := rfl
theorem exec_collectiveWait : exec (.collectiveWait d slot) s = execCollectiveWait d slot s := rfl
theorem exec_collectiveCopy : exec (.collectiveCopy d slot) s = execCollectiveCopy d slot s := rfl
end

theorem withStep_issues {s : State} {d slot op : Nat} {p : Plan} {x : PlanStep} (hl : slot < 16)
    (h : nextStep s (d * 16 + slot) op = some (p, x)) (f : Nat → Plan → PlanStep → State) :
    withStep d slot op s f = .next (f (d * 16 + slot) p x) := by
  rw [withStep, h]
  exact if_pos hl

theorem withStep_idle {s : State} {d slot op : Nat} (h : nextStep s (d * 16 + slot) op = none) (f : Nat → Plan → PlanStep → State) :
    withStep d slot op s f = .next s := by
  rw [withStep, h]

theorem collectiveReduce_issues {s : State} {d slot : Nat} {p : Plan} {x : PlanStep} (hl : slot < 16) (hr : planRuns s d = true)
    (hp : slook s.xfer.plans (d * 16 + slot) = some p) (hn : p.pend = []) (h : nextStep s (d * 16 + slot) 2 = some (p, x)) :
    collectiveReduce d slot s = runReduce (d * 16 + slot) (issueStep (d * 16 + slot) s) (p.next, List.range (x.len / 256)) := by
  have hruns : ¬((!planRuns s d) = true ∨ 16 ≤ slot) := by simp [hr, hl]
  simp only [collectiveReduce, if_neg hruns, hp, hn, List.foldl_nil, h]

/-- WAIT whose counter is read. The translation stands in the proof as an unknown function, so that unfolding the row does not
evaluate it. -/
theorem collectiveWait_read {s s1 : State} {key : Nat} {p : Plan} {x : PlanStep} {ps : List Piece}
    (hx : xlateRange (planCtx s p) (pCollective (key / 16)) (fabPasid s (pCollective (key / 16)) p.slice)
      (fabCtrVa s (pCollective (key / 16)) p.slice + 16 * x.counter) 8 .read s = .ok ps s1)
    (hb : piecesPoison s1 ps = false) (hw : p.waitFrom = none) :
    collectiveWait key p x s = if x.b ≤ leNat (readPieces s1 ps)
      then planStepDone key p.next none
        (updPlan key (fun q => { q with waitFrom := none }) (issueStep key (readTouch (some p.slice) ps s1)))
      else updPlan key (fun q => { q with waitFrom := some s.now }) (readTouch (some p.slice) ps s1) := by
  obtain ⟨wait, hwait⟩ : ∃ wait, wait = collectiveWait := ⟨_, rfl⟩
  rw [← hwait]
  delta collectiveWait at hwait
  generalize xlateRange = xlate at hx hwait
  subst hwait
  simp only [hx, hb, hw, Bool.false_eq_true, if_false, Option.isSome_none]

/-- COPY of two ranges that translate and hold no poison; here the sequence of the two translations stands as an unknown function. -/
theorem collectiveCopy_copies {s s1 s2 : State} {key : Nat} {p : Plan} {x : PlanStep} {a b : List Piece}
    (ha : xlateRange (planCtx s p) (pCollective (key / 16)) p.pasid x.a x.len .read s = .ok a s1)
    (hb : xlateRange (planCtx s p) (pCollective (key / 16)) p.pasid x.b x.len .write s1 = .ok b s2)
    (hp : piecesPoison s2 a = false) :
    collectiveCopy key p x s = planStepDone key p.next none
      (issueStep key (readTouch (some p.slice) a (writeFor p.ring p.no p.slice b (readPieces s2 a) s2))) := by
  have hboth : ((xlateRange (planCtx s p) (pCollective (key / 16)) p.pasid x.a x.len .read s).bind fun a t =>
      (xlateRange (planCtx s p) (pCollective (key / 16)) p.pasid x.b x.len .write t).bind fun b t1 => .ok (a, b) t1)
      = .ok (a, b) s2 := by
    rw [ha, VRes.bind_ok, hb, VRes.bind_ok]
  obtain ⟨copy, hcopy⟩ : ∃ copy, copy = collectiveCopy := ⟨_, rfl⟩
  rw [← hcopy]
  delta collectiveCopy at hcopy
  generalize VRes.bind = bind at hboth hcopy
  subst hcopy
  simp only [hboth, hp, Bool.false_eq_true, if_false]

/-! ### Lag windows (R618, R621) -/

theorem lagWindow_closes {s : State} {d : Nat} (hd : d < 8) (hs : s.inHold = false)
    (hw : ∀ e ∈ s.xfer.plans, e.1 / 16 = d → e.2.waitFrom = none) :
    sget (fun _ => []) (lagWindow d s).xfer.lag d = (sget (fun _ => []) s.xfer.lag d).map (closeWindow (lagPct s d)) := by
  have hruns : ¬(8 ≤ d ∨ s.inHold = true) := by simp [hs, hd]
  have hnone : (s.xfer.plans.filter fun e => decide (e.1 / 16 = d) && e.2.waitFrom.isSome) = [] :=
    List.filter_eq_nil_iff.mpr fun e he h => by
      obtain ⟨hdie, hwait⟩ := Bool.and_eq_true_iff.mp h
      simp [hw e he (of_decide_eq_true hdie)] at hwait
  simp only [lagWindow, if_neg hruns, hnone, List.foldl_nil]
  split
  · rw [event_xfer, event_xfer, sget_sput_same]
  · rw [sget_sput_same]

/-- The ten windows are all met exactly when the nine before this one and this one are. -/
theorem closeWindow_lagging (pct : Nat) (e : LagEntry) :
    (closeWindow pct e).lagging = true ↔ e.win % 512 = 511 ∧ pct * 100000 ≤ e.charged * 100 := by
  rw [closeWindow, decide_eq_true_eq]
  by_cases h : pct * 100000 ≤ e.charged * 100
  · simp only [h, decide_true, b2n, if_true, and_true]
    omega
  · simp only [h, decide_false, b2n, Bool.false_eq_true, if_false, and_false, iff_false]
    omega

/-! ### The pace word (R617) -/

theorem rd_addProg (p : Nat) {i : Nat} (n : Nat) (s : State) {q x : Nat} (hi : i < 8) (h : 0x100 ≤ x) (hx : x < 0x1000) :
    rd (addProg p i n s) q x = rd s q x := by
  have hadd (g : Nat) (t : State) : rd (add64 g (0x40 + 8 * i) n t) q x = rd t q x :=
    rd_wr64_off _ t (by omega) hx (by omega) (by omega)
  unfold addProg
  split
  · rfl
  · simp only
    split
    · exact (foldl_keeps (rd · q x) (fun t g => hadd g t) _ _).trans (hadd p s)
    · exact hadd p s

/-- The word that a state publishes with a PACE field. -/
def paceWord (pace : Nat) (s : State) : Word :=
  BitVec.ofNat 32 (pace % 512 + 0x200 * b2n s.inHold + 0x400 * b2n (matchActive s) + 0x800 * b2n (paceThrottled s)
    + 0x1000 * ((fld (rd s pPace 0x100) 15 12 + 1) % 16) + 0x10000 * nodeId s)

theorem b2n_lt_two (b : Bool) : b2n b < 2 := by cases b <;> decide

theorem paceWord_fields (pace : Nat) (s : State) : nbit (paceWord pace s).toNat 9 = s.inHold
    ∧ fld (paceWord pace s) 8 0 = pace % 512 ∧ fld (paceWord pace s) 15 12 = (fld (rd s pPace 0x100) 15 12 + 1) % 16 := by
  have hhold := b2n_lt_two s.inHold
  have hmatch := b2n_lt_two (matchActive s)
  have hthrottled := b2n_lt_two (paceThrottled s)
  have hbit : s.inHold = (b2n s.inHold == 1) := by cases s.inHold <;> rfl
  rw [hbit]
  unfold paceWord
  generalize b2n s.inHold = hold at hhold ⊢
  generalize b2n (matchActive s) = m at hmatch ⊢
  generalize b2n (paceThrottled s) = t at hthrottled ⊢
  generalize fld (rd s pPace 0x100) 15 12 = old
  simp only [nbit, fld, BitVec.toNat_ofNat]
  refine ⟨congrArg (· == 1) ?_, ?_, ?_⟩ <;> omega

theorem rd_publish (pace : Nat) (s : State) : rd (publish pace s) pPace 0x100 = paceWord pace s := by
  have hw : rd (addProg pPace 0 1 (wr pPace 0x100 (paceWord pace s) s)) pPace 0x100 = paceWord pace s :=
    (rd_addProg pPace 1 _ (by decide) (by decide) (by decide)).trans (rd_wr_same s _ _ _)
  unfold publish
  simp only
  split
  · exact (rd_event _ _ _ (by decide) (by decide) (by decide)).trans hw
  · exact hw

theorem publish_mem (pace : Nat) (s : State) : (publish pace s).mem = s.mem := by
  unfold publish
  simp only
  split
  · rw [event_mem, addProg_mem, wr_mem]
  · rw [addProg_mem, wr_mem]

/-- In HOLD the PACE field is 0. -/
theorem pacePublish_publishes {s : State} (hp : s.power.up = true) (m : Option Nat) :
    rd (pacePublish m s) pPace 0x100 = paceWord (if s.inHold then 0 else paceField m s) s ∧ (pacePublish m s).mem = s.mem := by
  rw [pacePublish, if_neg (by simp [hp])]
  split
  · exact ⟨rd_publish 0 s, publish_mem 0 s⟩
  · exact ⟨rd_publish _ (tickFree 1 s), publish_mem _ (tickFree 1 s)⟩

/-! ### Pace matching (R622, R623) -/

/-- PACE_MATCH and the transfer machinery: what an evaluation sets, and no clock, event or counter touches. -/
def matchSide (s : State) : Word × XferSt := (rd s pPace 0x108, s.xfer)

theorem matchSide_wr {p o : Nat} (v : Word) (s : State) (ho : o < 0x1000) (h : 0x108 ≠ o) : matchSide (wr p o v s) = matchSide s :=
  Prod.ext (rd_wr_off s v ho (by decide) h) (wr_xfer s p o v)

theorem matchSide_event (p n : Nat) (s : State) : matchSide (event p n s) = matchSide s :=
  Prod.ext (rd_event p n s (by decide) (by decide) (by decide)) (event_xfer p n s)

theorem matchSide_addProg (p : Nat) {i : Nat} (n : Nat) (s : State) (hi : i < 8) : matchSide (addProg p i n s) = matchSide s :=
  Prod.ext (rd_addProg p n s hi (by decide) (by decide)) (addProg_xfer p i n s)

theorem matchSide_tickFree (n : Nat) (s : State) : matchSide (tickFree n s) = matchSide s := rfl

theorem matchSide_setDieClock (s : State) (d : Nat) : matchSide (setDieClock s d) = matchSide s := by
  have hset (v : Word) (c : Prop) [Decidable c] : matchSide (wr (pPwrtherm d) 0x100 v (if c then tickFree 1 s else s)) = matchSide s := by
    rw [matchSide_wr _ _ (by decide) (by decide)]
    split
    · exact matchSide_tickFree 1 s
    · rfl
  unfold setDieClock
  simp only
  split
  · rw [hset]
  · rw [matchSide_addProg _ _ _ (by decide), setVolt, matchSide_wr _ _ (by decide) (by decide), matchSide_tickFree, hset]

theorem matchSide_setClocks (s : State) : matchSide (setClocks s) = matchSide s := by
  have hclocks := foldl_keeps matchSide matchSide_setDieClock (List.range 8) s
  unfold setClocks
  split
  · rfl
  · unfold powerLimited
    simp only
    split
    · rw [matchSide_event, matchSide_wr _ _ (by decide) (by decide), hclocks]
    · rw [matchSide_wr _ _ (by decide) (by decide), hclocks]

theorem paceMatchEval_ends {s : State} (hs : s.inHold = false) (hp : phase s = 5) (hm : matchActive s = true)
    (he : bitOf (rd s pPace 0x104) 18 = false) :
    matchActive (paceMatchEval s) = false ∧ (paceMatchEval s).xfer.causes = [] := by
  have hside : (matchSide (paceMatchEval s)).1 = 0 ∧ (matchSide (paceMatchEval s)).2.causes = [] := by
    simp only [paceMatchEval, hs, hp, hm, he, ne_eq, not_true, Bool.false_eq_true, or_false, if_false, if_true]
    rw [matchSide_setClocks, matchSide_event]
    exact ⟨rd_wr_same _ _ _ _, rfl⟩
  exact ⟨congrArg (bitOf · 9) hside.1, hside.2⟩

/-- PACE_MATCH for the PACE of the slowest cause and its node. -/
def matchWord (pace node : Nat) : Word := BitVec.ofNat 32 (max 83 (nfld pace 8 0) + 0x200 + 0x400 * (node % 4096))

theorem matchWord_fields (pace node : Nat) : bitOf (matchWord pace node) 9 = true ∧ 83 ≤ fld (matchWord pace node) 8 0 := by
  have hmax : max 83 (nfld pace 8 0) < 512 := by simp only [nfld]; omega
  have hmin := Nat.le_max_left 83 (nfld pace 8 0)
  unfold matchWord
  generalize max 83 (nfld pace 8 0) = target at hmax hmin ⊢
  simp only [bitOf, fld, BitVec.toNat_ofNat, beq_iff_eq]
  omega

theorem paceMatchEval_matches {s : State} {e : Nat × LagEntry} {l : List (Nat × LagEntry)} (hs : s.inHold = false) (hp : phase s = 5)
    (he : bitOf (rd s pPace 0x104) 18 = true) (hc : paceCauses s = e :: l) :
    ∃ pace node, rd (paceMatchEval s) pPace 0x108 = matchWord pace node := by
  have hword (pace node : Nat) (t : State) : rd (setClocks (if matchActive s then wr pPace 0x108 (matchWord pace node) t
      else addProg pPace 5 1 (event pPace 2 (wr pPace 0x108 (matchWord pace node) t)))) pPace 0x108 = matchWord pace node := by
    refine (congrArg Prod.fst (matchSide_setClocks _)).trans ?_
    split
    · exact rd_wr_same _ _ _ _
    · exact (congrArg Prod.fst ((matchSide_addProg _ _ _ (by decide)).trans (matchSide_event _ _ _))).trans (rd_wr_same _ _ _ _)
  simp only [paceMatchEval, hs, hp, he, hc, ne_eq, not_true, Bool.false_eq_true, or_false, if_false, if_true]
  exact ⟨_, _, hword _ _ _⟩

end Sys2Proof.Machine
end

section
/-! PROOFS. The statement on plans, lag and pace. -/

namespace Sys2Proof.Machine

/-- Settles O48: each row from its plan's next step; then the windows, the word published and the evaluation of matching. -/
theorem plansStepAndPeersLag : Obligations.PlansStepAndPeersLag := by
  unfold Obligations.PlansStepAndPeersLag
  refine ⟨fun s d slot op p x hl h => ?step,
    fun s d slot op _ h e he hop => ?idle,
    fun s d slot p x _ hl hr hp hn h => congrArg Host.Outcome.next (collectiveReduce_issues hl hr hp hn h),
    fun s s1 key p x ps hx hb hw => collectiveWait_read hx hb hw,
    fun s s1 s2 key p x a b ha hb hp => collectiveCopy_copies ha hb hp,
    fun s d hd hs hw => ⟨_, rfl, lagWindow_closes hd hs hw⟩,
    fun pct e _ => ⟨rfl, closeWindow_lagging pct e⟩,
    fun s m hp => ⟨_, rfl, ?publish⟩,
    fun s hs hp hm he => ⟨_, rfl, paceMatchEval_ends hs hp hm he⟩,
    fun s e l hs hp he hc => ⟨_, rfl, ?matching⟩⟩
  case step =>
    refine ⟨?_, ?_, ?_, ?_⟩ <;> rintro rfl
    all_goals simp only [exec_collectiveSend, exec_collectiveSignal, exec_collectiveWait, exec_collectiveCopy, execCollectiveSend,
      execCollectiveSignal, execCollectiveWait, execCollectiveCopy, withStep_issues hl h]
  case idle =>
    subst hop
    simp only [List.mem_cons, List.not_mem_nil, or_false] at he
    rcases he with rfl | rfl | rfl | rfl
    all_goals simp only [exec_collectiveSend, exec_collectiveSignal, exec_collectiveWait, exec_collectiveCopy, execCollectiveSend,
      execCollectiveSignal, execCollectiveWait, execCollectiveCopy, withStep_idle h]
  case publish =>
    obtain ⟨hword, hmem⟩ := pacePublish_publishes hp m
    obtain ⟨hhold, hpace, hcount⟩ := paceWord_fields (if s.inHold then 0 else paceField m s) s
    rw [hword]
    refine ⟨hhold, hpace.trans ?_, hcount, hmem⟩
    split <;> rfl
  case matching =>
    obtain ⟨pace, node, hword⟩ := paceMatchEval_matches hs hp he hc
    rw [matchActive, hword]
    exact matchWord_fields pace node

end Sys2Proof.Machine
end

section
/-! PROOFS. The statement on a step and the queue of commands. -/

namespace Sys2Proof.Machine

/-- With the supply up a cycle of DEV_TIME passes, with it down nothing does (R91, assumption log 6). -/
theorem idle_eq (s : State) : idle s = { s with now := if s.power.up then s.now + 10 else s.now } := by
  unfold idle
  split <;> rfl

/-- Settles O1: the two ends of the queue that `step` tells apart. -/
theorem stepRunsFrontCommand : Obligations.StepRunsFrontCommand := by
  unfold Obligations.StepRunsFrontCommand
  refine ⟨fun s c rest hq => ?front, fun s hq => ?empty⟩
  case front => rw [step, hq]
  case empty =>
    have hidle : step s = .next (idle s) := by rw [step, hq]
    exact hidle.trans (congrArg Host.Outcome.next (idle_eq s))

end Sys2Proof.Machine
end

section
/-! SUPPORT. What events, progress counters and writes elsewhere leave: EVT_STAT bits that are set stay set (02_register_pages.md R80),
and a unit's own registers stay as they were. -/

namespace Sys2Proof.Machine

theorem EvtGrows.refl (s : State) : EvtGrows s s := .of_eq fun _ => rfl

theorem EvtGrows.trans {t u s : State} (h : EvtGrows t u) (k : EvtGrows u s) : EvtGrows t s := evtClosed_evtGrows.trans h k

theorem EvtGrows.of_regs {t s : State} (h : t.regs = s.regs) : EvtGrows t s := .of_eq fun p => rd_congr h p 0x10

/-- A bit that was set is set. -/
theorem EvtGrows.bit {t s : State} (h : EvtGrows t s) {p n : Nat} (hb : bitOf (rd s p 0x10) n = true) : bitOf (rd t p 0x10) n = true := by
  have hand := congrArg (·.getLsbD n) (h p)
  rw [bitOf_eq_getLsbD] at hb ⊢
  simpa [hb] using hand

theorem EvtGrows.foldl {α : Type} {f : State → α → State} (hf : ∀ t x, EvtGrows (f t x) t) (l : List α) (s : State) :
    EvtGrows (l.foldl f s) s := by
  induction l generalizing s with
  | nil => exact .refl s
  | cons x l ih => exact (ih _).trans (hf s x)

theorem evtGrows_event (p n : Nat) (s : State) : EvtGrows (event p n s) s :=
  (evtClosed_evtGrows.raiseEvt p _ s).trans (evtGrows_orEvt p _ s)

theorem evtGrows_wr (p : Nat) {o : Nat} (v : Word) (s : State) (ho : o < 0x1000) (h : o ≠ 0x10) : EvtGrows (wr p o v s) s :=
  .of_eq fun _ => rd_wr_off s v ho (by decide) h.symm

/-- A progress counter changes none but its own words. -/
theorem rd_addProg_off (p : Nat) {i : Nat} (n : Nat) (s : State) {q x : Nat} (hi : i < 8) (hx : x < 0x1000) (h : x < 0x40 ∨ 0x80 ≤ x) :
    rd (addProg p i n s) q x = rd s q x := by
  have hadd (g : Nat) (t : State) : rd (add64 g (0x40 + 8 * i) n t) q x = rd t q x :=
    rd_wr64_off _ t (by omega) hx (by omega) (by omega)
  unfold addProg
  split
  · rfl
  · simp only
    split
    · exact (foldl_keeps (rd · q x) (fun t g => hadd g t) _ _).trans (hadd p s)
    · exact hadd p s

theorem evtGrows_addProg (p : Nat) {i : Nat} (n : Nat) (s : State) (hi : i < 8) : EvtGrows (addProg p i n s) s :=
  .of_eq fun _ => rd_addProg_off p n s hi (by decide) (by decide)

/-- A unit's own word after an event and a progress count. -/
theorem rd_addProg_event (p : Nat) {i : Nat} (n p' n' : Nat) (s : State) {q x : Nat} (hi : i < 8) (h : 0x100 ≤ x) (hx : x < 0x1000)
    (hq : q ≠ pIntr) : rd (addProg p i n (event p' n' s)) q x = rd s q x :=
  (rd_addProg p n _ hi h hx).trans (rd_event p' n' s hx (by omega) hq)

/-- An event that rose before a progress count stands. -/
theorem bitOf_addProg_event (p : Nat) {i : Nat} (n q : Nat) {n' : Nat} (s : State) (hi : i < 8) (hn : n' < 32) :
    bitOf (rd (addProg p i n (event q n' s)) q 0x10) n' = true :=
  (evtGrows_addProg p n _ hi).bit (bitOf_event hn q s)

end Sys2Proof.Machine
end

section
/-! SUPPORT. Protection commits and slice domains (14_slices.md R643 to R659, R673): what each outcome of COMMIT and of an
acknowledgement leaves, what DISCARD reads back, and what quiescing and resetting a slice make of its rings. -/

namespace Sys2Proof.Machine

/-! ### COMMIT and COMMIT_ACK (R645 to R649) -/

theorem commit_refused {s : State} {dt : Nat} {l : List Binding} (hi : s.prot.phase = .idle)
    (hc : commitCheck s (stagedNow s) = (some dt, l)) :
    commit s = addProg pProt 4 1 (event pProt 1 (wr pProt 0x108 (BitVec.ofNat 32 (4 + 8 * dt)) s)) := by
  simp only [commit, hi, hc, ne_eq, not_true, if_false]

/-- The protection unit as a commit that passed its checks begins. -/
def committingProt (l : List Binding) (s : State) : ProtSt :=
  { phase := .committing, snapshot := stagedNow s, pbt := s.prot.pbt, pbtNew := l, waiting := ackPages }

/-- The state from which the units acknowledge: COMMIT_STAT shows the commit in progress. -/
def committingState (l : List Binding) (s : State) : State :=
  wr pProt 0x108 (BitVec.ofNat 32 (2 + 4 * fld (rd s pProt 0x108) 10 2)) { s with prot := committingProt l s }

theorem commit_passed {s : State} {l : List Binding} (hi : s.prot.phase = .idle) (hc : commitCheck s (stagedNow s) = (none, l)) :
    commit s = commitFollow (committingState l s) := by
  simp only [commit, hi, hc, ne_eq, not_true, if_false]
  rfl

theorem committing_fld (old : Nat) : fld (BitVec.ofNat 32 (2 + 4 * old)) 1 0 = 2 := by
  simp only [fld, BitVec.toNat_ofNat]
  omega

theorem commitFollow_waits {s : State} (hp : s.prot.phase = .committing) (hw : s.prot.waiting ≠ [])
    (hn : ∀ p ∈ s.prot.waiting, acksAtOnce s p = false) : commitFollow s = s := by
  have hnone : s.prot.waiting.filter (acksAtOnce s) = [] := by simpa using hn
  rw [commitFollow, if_neg (by simp [hp]), hnone, List.foldl_nil, finishCommit, if_pos (.inr hw)]

/-- What the end of a commit leaves of the state: the snapshot and its bindings are in force. -/
theorem commitFollow_ends {s : State} (hp : s.prot.phase = .committing) (hw : s.prot.waiting = []) :
    (commitFollow s).committed = s.prot.snapshot ∧ (commitFollow s).prot = { pbt := s.prot.pbtNew }
      ∧ (commitFollow s).mem = s.mem ∧ (commitFollow s).units = s.units := by
  have hopen (l : List Nat) (t : State) : l.foldl (fun t sl => adoptRecords sl t) t
      = { t with steward := (l.foldl (fun t sl => adoptRecords sl t) t).steward } := by
    induction l generalizing t with
    | nil => rfl
    | cons sl l ih => exact ih _
  rw [commitFollow, if_neg (by simp [hp]), hw, List.filter_nil, List.foldl_nil, finishCommit, if_neg (by simp [hp, hw])]
  dsimp only
  rw [hopen]
  simp only [dispSync_committed, dispSync_prot, dispSync_mem, dispSync_units, addProg_committed, addProg_prot, addProg_mem, addProg_units,
    event_committed, event_prot, event_mem, event_units, wr_committed, wr_prot, wr_mem, wr_units, inc32_committed, inc32_prot, inc32_mem,
    inc32_units]
  trivial

theorem commitAck_taken {s : State} {p : Nat} (hp : s.prot.phase = .committing) (hw : s.prot.waiting.contains p = true)
    (hh : ackState s p ≠ .hold) (ha : mayAck s p = true) : commitAck p s = commitFollow (adopt p s) := by
  rw [commitAck, if_neg (by simpa [hp, hh, ha] using hw)]

theorem commitAck_ignored {s : State} {p : Nat}
    (h : s.prot.phase ≠ .committing ∨ s.prot.waiting.contains p = false ∨ ackState s p = .hold ∨ mayAck s p = false) : commitAck p s = s := by
  rw [commitAck, if_pos (by simpa using h)]

/-- A copy or collective engine that adopts drops its entries of changed PASIDs and has acknowledged (R434, R651). -/
theorem adopt_engine {s : State} {p : Nat} (hk : pageKind p = some .copyEngine ∨ pageKind p = some .collective) :
    (adopt p s).prot = { s.prot with waiting := setDel p s.prot.waiting } ∧ (adopt p s).committed = s.committed
      ∧ tlbOf (adopt p s) p = (tlbOf s p).filter fun e => !(changedPasids s).contains e.pasid := by
  have hdisp : p ≠ pDispatch := by
    rintro rfl
    revert hk
    decide
  have hbefore : adoptBefore p s = dropPasids p (changedPasids s) s := by
    rcases hk with hk | hk <;> simp only [adoptBefore, hk]
  simp only [adopt, hbefore, if_neg hdisp, addProg_prot, addProg_committed, tlbOf, addProg_xlate]
  exact ⟨rfl, rfl, sget_sput_same _ _ _ _⟩

/-! ### DISCARD (R644) -/

section
variable {β : Type}

theorem sget_filter (d : Nat → β) (p : Nat → Bool) (m : List (Nat × β)) (k : Nat) :
    sget d (m.filter fun e => p e.1) k = if p k then sget d m k else d k := by
  induction m with
  | nil => exact (ite_self _).symm
  | cons e t ih =>
    cases hp : p e.1
    case false =>
      rw [List.filter_cons_of_neg (by simp [hp]), ih]
      by_cases hk : e.1 = k
      · simp [← hk, hp]
      · simp [sget, hk]
    case true =>
      rw [List.filter_cons_of_pos (by simpa using hp)]
      by_cases hk : e.1 = k
      · simp [sget, ← hk, hp]
      · simp [sget, hk, ih]

variable [DecidableEq β] (d : Nat → β)

theorem sget_foldl_sput_unlisted {l : List (Nat × β)} {k : Nat} (h : ∀ e ∈ l, e.1 ≠ k) (m : List (Nat × β)) :
    sget d (l.foldl (fun m e => sput d m e.1 e.2) m) k = sget d m k := by
  induction l generalizing m with
  | nil => rfl
  | cons e t ih =>
    rw [List.forall_mem_cons] at h
    exact (ih h.2 _).trans (sget_sput_ne d m _ (Ne.symm h.1))

/-- A key written one value, however often, reads as that value. -/
theorem sget_foldl_sput_listed {l : List (Nat × β)} {k : Nat} {v : β} (hl : (k, v) ∈ l) (hu : ∀ e ∈ l, e.1 = k → e.2 = v)
    (m : List (Nat × β)) : sget d (l.foldl (fun m e => sput d m e.1 e.2) m) k = v := by
  induction l generalizing m with
  | nil => cases hl
  | cons e t ih =>
    rw [List.forall_mem_cons] at hu
    by_cases ht : ∃ x ∈ t, x.1 = k
    · obtain ⟨x, hx, hk⟩ := ht
      have hxv : x = (k, v) := Prod.ext hk (hu.2 x hx hk)
      exact ih (hxv ▸ hx) hu.2 _
    · have he : e = (k, v) := (List.mem_cons.mp hl).elim Eq.symm fun h => absurd ⟨_, h, rfl⟩ ht
      subst he
      exact (sget_foldl_sput_unlisted d (fun x hx hk => ht ⟨x, hx, hk⟩) _).trans (sget_sput_same d m k v)

end

theorem rdKey_discard_listed {s : State} {key : Nat} {v : Word} (h : (key, v) ∈ s.committed) (hu : ∀ e ∈ s.committed, e.1 = key → e.2 = v) :
    rdKey (discard s) key = v := sget_foldl_sput_listed regReset h hu _

theorem rdKey_discard_unlisted {s : State} {key : Nat} (h : ∀ e ∈ s.committed, e.1 ≠ key) :
    rdKey (discard s) key = if isStg key then regReset key else rdKey s key := by
  refine (sget_foldl_sput_unlisted regReset h _).trans ((sget_filter regReset (fun k => !isStg k) s.regs key).trans ?_)
  cases isStg key <;> rfl

/-! ### QUIESCE (R658) -/

/-- What no event, slice record or ring record holds, DRAIN of a ring leaves as it was. -/
theorem ringDrain_keeps {β : Type} (g : State → β) (he : ∀ p n t, g (event p n t) = g t) (hs : ∀ n v t, g (setSliceSt n v t) = g t)
    (hr : ∀ r v t, g (setRing r v t) = g t) (ring : Nat) (s : State) : g (ringDrain ring s) = g s := by
  have hquiet (t : State) : g (noteQuietRing ring t) = g t := by
    unfold noteQuietRing noteQuiet
    split
    · simp only [apply_ite g, he, hs, ite_self]
    · rfl
  by_cases ha : (ringSt s ring).state = .active
  · rw [ringDrain_active ha]
    by_cases hc : ringCmds s ring = []
    · rw [settleRing_drained (s := drainingRing ring s) hc (by rw [drainingRing, ringSt_setRing_same]), hquiet, hr, drainingRing, hr]
    · rw [settleRing_busy (s := drainingRing ring s) hc, drainingRing, hr]
  · rw [ringDrain, if_neg ha]

theorem noteQuiet_keeps {β : Type} (g : State → β) (he : ∀ p n t, g (event p n t) = g t) (hs : ∀ n v t, g (setSliceSt n v t) = g t)
    (slice : Nat) (s : State) : g (noteQuiet slice s) = g s := by
  simp only [noteQuiet, apply_ite g, he, hs, ite_self]

/-- DRAIN leaves no ring ACTIVE that was not, and not its own. -/
theorem ringDrain_active_only {ring r : Nat} {s : State} (h : (ringSt (ringDrain ring s) r).state = .active) :
    r ≠ ring ∧ (ringSt s r).state = .active := by
  by_cases ha : (ringSt s ring).state = .active
  · by_cases hr : r = ring
    · subst hr
      rw [(ringDrain_state ha).1] at h
      split at h <;> cases h
    · have hother : ringSt (drainingRing ring s) r = ringSt s r := ringSt_setRing_ne _ s hr
      rw [ringDrain_active ha] at h
      refine ⟨hr, ?_⟩
      by_cases hc : ringCmds s ring = []
      · rwa [settleRing_drained (s := drainingRing ring s) hc (by rw [drainingRing, ringSt_setRing_same]), ringSt_noteQuietRing,
          ringSt_setRing_ne _ _ hr, hother] at h
      · rwa [settleRing_busy (s := drainingRing ring s) hc, hother] at h
  · rw [ringDrain, if_neg ha] at h
    exact ⟨fun e => ha (e ▸ h), h⟩

theorem drainAll_active_only {l : List (Nat × Ring)} {r : Nat} {s : State}
    (h : (ringSt (l.foldl (fun t e => ringDrain e.1 t) s) r).state = .active) : (∀ e ∈ l, e.1 ≠ r) ∧ (ringSt s r).state = .active := by
  induction l generalizing s with
  | nil => exact ⟨fun _ h => absurd h List.not_mem_nil, h⟩
  | cons e l ih =>
    obtain ⟨hl, ha⟩ := ih h
    obtain ⟨hne, hs⟩ := ringDrain_active_only ha
    exact ⟨List.forall_mem_cons.mpr ⟨hne.symm, hl⟩, hs⟩

/-- A ring that is not listed is OFF. -/
theorem ringSt_unlisted {s : State} {r : Nat} (h : ∀ e ∈ s.disp.rings, e.1 ≠ r) : ringSt s r = {} := by
  unfold ringSt
  generalize s.disp.rings = m at h
  induction m with
  | nil => rfl
  | cons e t ih =>
    rw [List.forall_mem_cons] at h
    rw [sget, if_neg h.1, ih h.2]

/-- SL_CTRL of a slice stands in the slice tables, which no event writes. -/
theorem sliceReg_place {slice : Nat} (h : slice < 64) : 0x100 ≤ (sliceReg slice 4).2 ∧ (sliceReg slice 4).2 < 0x1000 ∧ (sliceReg slice 4).1 ≠ pIntr := by
  simp only [sliceReg, pIntr, pageOf]
  omega

/-- SL_CTRL as QUIESCE is written. -/
def quiesceWritten (slice : Nat) (on : Bool) (s : State) : State :=
  wr (sliceReg slice 4).1 (sliceReg slice 4).2 (setFld (rd s (sliceReg slice 4).1 (sliceReg slice 4).2) 0 0 (b2n on)) s

theorem quiesceWritten_bit (slice : Nat) (on : Bool) (s : State) :
    bitOf (rd (quiesceWritten slice on s) (sliceReg slice 4).1 (sliceReg slice 4).2) 0 = on := by
  rw [quiesceWritten, rd_wr_same, bitOf_setFld_same _ _ (by decide)]

theorem quiesce_on {slice : Nat} (h : slice < 64) (s : State) : quiesce slice true s
    = noteQuiet slice (((s.disp.rings.filter fun e => sliceOfRing s e.1 == some slice)).foldl (fun t e => ringDrain e.1 t)
        (quiesceWritten slice true s)) := by
  rw [quiesce, if_neg (by omega)]
  rfl

theorem quiesce_off {slice : Nat} (h : slice < 64) (s : State) : quiesce slice false s = noteQuiet slice (quiesceWritten slice false s) := by
  rw [quiesce, if_neg (by omega)]
  rfl

section
variable {slice : Nat} (h : slice < 64) (s : State)
include h

theorem quiesce_on_keeps {β : Type} (g : State → β) (he : ∀ p n t, g (event p n t) = g t) (hs : ∀ n v t, g (setSliceSt n v t) = g t)
    (hr : ∀ r v t, g (setRing r v t) = g t) : g (quiesce slice true s) = g (quiesceWritten slice true s) := by
  rw [quiesce_on h, noteQuiet_keeps g he hs]
  exact foldl_keeps g (f := fun t (e : Nat × Ring) => ringDrain e.1 t) (fun t e => ringDrain_keeps g he hs hr e.1 t) _ _

theorem quiesce_bit (on : Bool) : bitOf (rd (quiesce slice on s) (sliceReg slice 4).1 (sliceReg slice 4).2) 0 = on := by
  obtain ⟨hlo, hhi, hpage⟩ := sliceReg_place h
  have hevent (p n : Nat) (t : State) : rd (event p n t) (sliceReg slice 4).1 (sliceReg slice 4).2 = rd t (sliceReg slice 4).1 (sliceReg slice 4).2 :=
    rd_event p n t hhi (by omega) hpage
  refine (congrArg (bitOf · 0) ?_).trans (quiesceWritten_bit slice on s)
  cases on
  case false => rw [quiesce_off h, noteQuiet_keeps (rd · _ _) hevent fun _ _ _ => rfl]
  case true => exact quiesce_on_keeps h s (rd · _ _) hevent (fun _ _ _ => rfl) fun _ _ _ => rfl

/-- Quiescing leaves no ring of the slice ACTIVE (R658). -/
theorem quiesce_drains {r : Nat} (hr : sliceOfRing s r = some slice) : (ringSt (quiesce slice true s) r).state ≠ .active := by
  intro ha
  have hdisp (t : State) : (noteQuiet slice t).disp = t.disp :=
    noteQuiet_keeps State.disp (fun p n t => event_disp p n t) (fun n v t => setSliceSt_disp t n v) slice t
  rw [quiesce_on h, ringSt_congr (congrArg DispSt.rings (hdisp _))] at ha
  obtain ⟨hl, hs⟩ := drainAll_active_only ha
  have hactive : (ringSt s r).state = .active := hs
  have hunlisted : ∀ e ∈ s.disp.rings, e.1 ≠ r := fun e he hk =>
    hl e (List.mem_filter.mpr ⟨he, by rw [hk, hr, beq_self_eq_true]⟩) hk
  rw [ringSt_unlisted hunlisted] at hactive
  cases hactive

end

/-! ### Slice domains (R643, R656, R657, R673) -/

/-- A ring's generation raised. -/
def bumpRing (r : Nat) (s : State) : State := setRing r { ringSt s r with gen := (ringSt s r).gen + 1 } s

/-- Resetting rings that are all OFF raises the generation of each once and changes nothing else. -/
theorem resetRings_allOff (st : Nat × Nat) {l : List Nat} (hd : l.Nodup) {s : State} (ho : ∀ r, (ringSt s r).state = .off) :
    let t := l.foldl (fun t r => if (ringSt t r).state = .off then bumpRing r t else ringForceOff st r t) s
    t = { s with disp := t.disp } ∧ ∀ q, ringSt t q = if q ∈ l then { ringSt s q with gen := (ringSt s q).gen + 1 } else ringSt s q := by
  induction l generalizing s with
  | nil => exact ⟨rfl, fun q => by simp⟩
  | cons r l ih =>
    rw [List.nodup_cons] at hd
    have hother {q : Nat} (hq : q ≠ r) : ringSt (bumpRing r s) q = ringSt s q := ringSt_setRing_ne _ s hq
    have hoff (q : Nat) : (ringSt (bumpRing r s) q).state = .off := by
      by_cases hq : q = r
      · subst hq
        rw [bumpRing, ringSt_setRing_same]
        exact ho q
      · rw [hother hq]
        exact ho q
    obtain ⟨hframe, hrings⟩ := ih hd.2 hoff
    simp only [List.foldl_cons, if_pos (ho r)]
    refine ⟨hframe, fun q => (hrings q).trans ?_⟩
    by_cases hq : q = r
    · subst hq
      rw [if_neg hd.1, if_pos List.mem_cons_self, bumpRing, ringSt_setRing_same]
    · simp only [List.mem_cons, hq, false_or, hother hq]

theorem mem_sliceRings (s : State) (slice : Nat) {r : Nat} (hr : r < 8192) : r ∈ sliceRings s slice ↔ sliceOfRing s r = some slice := by
  simp [sliceRings, hr]

theorem sliceDomainReset_allOff (st : Nat × Nat) (slice : Nat) {s : State} (ho : ∀ r, (ringSt s r).state = .off) :
    sliceSt (sliceDomainReset st slice s) slice = { sliceSt s slice with gen := (sliceSt s slice).gen + 1 }
      ∧ (sliceDomainReset st slice s).mem = s.mem
      ∧ ∀ r < 8192, ringSt (sliceDomainReset st slice s) r
          = if sliceOfRing s r = some slice then { ringSt s r with gen := (ringSt s r).gen + 1 } else ringSt s r := by
  obtain ⟨hframe, hrings⟩ := resetRings_allOff st (l := sliceRings s slice) (List.Nodup.filter _ List.nodup_range)
    (s := setSliceSt slice { sliceSt s slice with gen := (sliceSt s slice).gen + 1 } s) ho
  have hreset : sliceDomainReset st slice s = addProg pSlice 0 1 (dispSync ((sliceRings s slice).foldl
      (fun t r => if (ringSt t r).state = .off then bumpRing r t else ringForceOff st r t)
      (setSliceSt slice { sliceSt s slice with gen := (sliceSt s slice).gen + 1 } s))) := rfl
  have hslices := congrArg State.slices hframe
  have hmem := congrArg State.mem hframe
  rw [hreset]
  refine ⟨?_, ?_, fun r hr => ?_⟩
  · rw [sliceSt, addProg_slices, dispSync_slices, hslices]
    exact sliceSt_setSliceSt_same _ _ _
  · rw [addProg_mem, dispSync_mem, hmem]
    rfl
  · rw [ringSt_congr (congrArg DispSt.rings (addProg_disp _ _ _ _)), ringSt_congr (dispSync_rings _), hrings]
    simp only [mem_sliceRings s slice hr]
    rfl

theorem release_contained {s : State} {slice : Nat} (h : slice < 64) (hc : (sliceSt s slice).contained = true) :
    release slice s = event pSlice 1 (dispSync (setSliceSt slice { sliceSt s slice with contained := false } s)) := by
  rw [release, if_neg (by simp [hc]; omega)]

/-! ### MIG_LOAD (R659) -/

/-- A ring with the indices and the sequence number that the MIG registers hold. -/
def migRing (s : State) (r : Ring) : Ring :=
  { r with head := fld (rd s pSlice 0x184) 16 0, tail := fld (rd s pSlice 0x188) 16 0, cqHead := fld (rd s pSlice 0x18C) 16 0
           cqTail := fld (rd s pSlice 0x190) 16 0, expSeq := (rd s pSlice 0x194).toNat }

theorem migLoad_off {s : State} {ring : Nat} (hr : ring = fld (rd s pSlice 0x180) 12 0) (ho : (ringSt s ring).state = .off)
    (hq : idxDiff (fld (rd s pSlice 0x188) 16 0) (fld (rd s pSlice 0x184) 16 0) ≤ 0x10000)
    (hc : idxDiff (fld (rd s pSlice 0x190) 16 0) (fld (rd s pSlice 0x18C) 16 0) ≤ 0x10000) :
    migLoad s = setRing ring (migRing s (ringSt s ring)) s := by
  subst hr
  have hcap : ringCapacity (ringSt s (fld (rd s pSlice 0x180) 12 0)) = 0x10000 := if_pos ho
  rw [migLoad]
  dsimp only
  rw [hcap, if_neg (by simp only [ho, ne_eq, not_true, false_or]; omega)]
  rfl

theorem migLoad_notOff {s : State} (h : (ringSt s (fld (rd s pSlice 0x180) 12 0)).state ≠ .off) : migLoad s = event pSlice 3 s := by
  rw [migLoad]
  exact if_pos (.inl h)

/-! ### FLR of a VF (R673, R762) -/

theorem flr_vf {fn : Nat} (h0 : 0 < fn) (h64 : fn < 64) (u : List (Nat × Nat)) (s : State) : flr fn u s
    = if s.inHold then { s with power := { s.power with hold := { s.power.hold with flr := s.power.hold.flr ++ [fn] } } } else flrVf fn s := by
  rw [flr, if_neg (by omega), if_neg (by omega)]

theorem flrVf_ringSel (fn : Nat) (s : State) : rdB (flrVf fn s) fn pDspRings 0x108 = regReset (regKey fn pDspRings 0x108) := by
  have hbank : regKey fn pDspRings 0x108 / 0x4000000 = fn ∧ regKey fn pDspRings 0x108 % 0x4000000 = regKey 0 pDspRings 0x108 := by
    simp only [regKey, pDspRings, pageOf]
    omega
  refine (sget_filter regReset (fun k => !(k / 0x4000000 == fn && (decide (k % 0x4000000 = regKey 0 pDspRings 0x108)
    || pageKind (k % 0x4000000 / 0x1000) == some .walkers))) _ _).trans ?_
  simp only [hbank, decide_true, Bool.true_or, beq_self_eq_true, Bool.and_self, Bool.not_true, Bool.false_eq_true, if_false]

end Sys2Proof.Machine
end

section
/-! PROOFS. The statement on commits and slice domains. -/

namespace Sys2Proof.Machine

/-- Settles O49: each row from what its meaning leaves; quiescing and resetting by the rings that the slice has. -/
theorem commitsAndSliceDomains : Obligations.CommitsAndSliceDomains := by
  unfold Obligations.CommitsAndSliceDomains
  refine ⟨fun s hp => congrArg Host.Outcome.next (if_pos hp),
    fun s dt l hi hc => ⟨_, congrArg Host.Outcome.next (commit_refused hi hc), ?refused⟩,
    fun s l hi hc => ⟨committingState l s, congrArg Host.Outcome.next (commit_passed hi hc), rfl, ?passed⟩,
    fun s hp hw hn => commitFollow_waits hp hw hn, fun s hp hw => commitFollow_ends hp hw,
    fun s p hp hw hh ha => ⟨congrArg Host.Outcome.next (commitAck_taken hp hw hh ha), adopt_engine⟩,
    fun s p h => congrArg Host.Outcome.next (commitAck_ignored h),
    fun s => ⟨discard s, rfl, rfl, fun key v => rdKey_discard_listed, fun key => rdKey_discard_unlisted⟩,
    fun s slice h => ⟨⟨_, rfl, quiesce_bit h s true, ?quiesceMem, ?quiesceTiles, fun r hr => quiesce_drains h s hr⟩,
      _, rfl, quiesce_bit h s false, ?unquiesce⟩,
    fun s slice h => ⟨if_neg (Nat.not_le.mpr h), sliceDomainReset_allOff (0x30, 4) slice⟩,
    fun s slice h hc => ⟨_, congrArg Host.Outcome.next (release_contained h hc), ?release⟩,
    fun s ring h tl ch ct hr hh ht hch hct => ⟨fun ho hq hc => ?migOff, fun ho => ?migOn⟩,
    fun s fn u h0 h64 => ⟨fun hh => ⟨_, congrArg Host.Outcome.next ((flr_vf h0 h64 u s).trans (by rw [hh]; rfl)), rfl, flrVf_ringSel fn s⟩,
      fun hh => congrArg Host.Outcome.next ((flr_vf h0 h64 u s).trans (if_pos hh))⟩,
    fun s u => rfl⟩
  case refused =>
    refine ⟨?_, ?_, ?_, ?_, ?_, bitOf_addProg_event pProt 1 pProt _ (by decide) (by decide)⟩
    · rw [addProg_prot, event_prot, wr_prot]
    · rw [addProg_committed, event_committed, wr_committed]
    · rw [addProg_mem, event_mem, wr_mem]
    · rw [addProg_disp, event_disp, wr_disp]
    · rw [rd_addProg_event pProt 1 pProt 1 _ (by decide) (by decide) (by decide) (by decide), rd_wr_same]
  case passed => rw [committingState, rd_wr_same, committing_fld]
  case quiesceMem =>
    exact quiesce_on_keeps h s State.mem (fun p n t => event_mem p n t) (fun n v t => setSliceSt_mem t n v) fun _ _ _ => rfl
  case quiesceTiles =>
    exact quiesce_on_keeps h s State.tiles (fun p n t => event_tiles p n t) (fun n v t => setSliceSt_tiles t n v) fun _ _ _ => rfl
  case unquiesce =>
    rw [quiesce_off h]
    exact ⟨noteQuiet_keeps State.disp (fun p n t => event_disp p n t) (fun n v t => setSliceSt_disp t n v) _ _,
      noteQuiet_keeps State.mem (fun p n t => event_mem p n t) (fun n v t => setSliceSt_mem t n v) _ _⟩
  case release =>
    refine ⟨?_, bitOf_event (by decide) _ _, ?_, ?_⟩
    · rw [sliceSt, event_slices, dispSync_slices]
      exact sliceSt_setSliceSt_same _ _ _
    · rw [event_mem, dispSync_mem, setSliceSt_mem]
    · rw [event_tiles, dispSync_tiles, setSliceSt_tiles]
  case migOff =>
    subst hh ht hch hct
    exact ⟨_, congrArg Host.Outcome.next (migLoad_off hr ho hq hc), rfl, ringSt_setRing_same _ _ _, fun r hne => ringSt_setRing_ne _ _ hne⟩
  case migOn =>
    subst hr
    exact congrArg Host.Outcome.next (migLoad_notOff ho)

end Sys2Proof.Machine
end

section
/-! SUPPORT. Recovery and Pounce (15_recovery.md R697 to R710; 03_tiles.md R154): what the wear record, a spare brought in and a tile
substituted leave of the state. -/

namespace Sys2Proof.Machine

/-! ### The NOR and the wear record (R710, R810) -/

/-- Beside the NOR only stored registers, the output and ALERT_N differ. -/
def QuietNor (t s : State) : Prop := Quiet t { s with nor := t.nor }

theorem Quiet.withNor {t s : State} (h : Quiet t s) (n : NorSt) : Quiet { t with nor := n } { s with nor := n } :=
  { h with nor := rfl }

theorem Quiet.nor_of {t s : State} (h : Quiet t s) : QuietNor t s := by
  have heq : ({ s with nor := t.nor } : State) = s := by rw [h.nor]
  rw [QuietNor, heq]
  exact h

theorem QuietNor.refl (s : State) : QuietNor s s := (Quiet.refl s).nor_of

theorem QuietNor.trans {t u s : State} (h : QuietNor t u) (k : QuietNor u s) : QuietNor t s := Quiet.trans h (k.withNor t.nor)

theorem quietNor_set (n : NorSt) (s : State) : QuietNor { s with nor := n } s := Quiet.refl _

theorem wrNorN_eq (a : Nat) (l : List Byte) (s : State) :
    wrNorN a l s = { s with nor := { s.nor with bytes := (wrNorN a l s).nor.bytes } } := by
  induction l generalizing a s with
  | nil => rfl
  | cons b t ih => exact ih (a + 1) (wrNor a b s)

theorem quietNor_wrNorN (a : Nat) (l : List Byte) (s : State) : QuietNor (wrNorN a l s) s := by
  rw [wrNorN_eq]
  exact quietNor_set _ s

theorem quietNor_norProgram (a : Nat) (l : List Byte) (s : State) : QuietNor (norProgram a l s) s :=
  (quiet_addProg _ _ _ _).nor_of.trans (quietNor_wrNorN a l s)

/-- Programming the NOR changes its bytes alone. -/
theorem norProgram_nor (a : Nat) (l : List Byte) (s : State) : (norProgram a l s).nor = { s.nor with bytes := (wrNorN a l s).nor.bytes } := by
  rw [norProgram, addProg_nor]
  exact congrArg State.nor (wrNorN_eq a l s)

theorem quietNor_wearWrite (kind die unit spare logical wh : Nat) (s : State) : QuietNor (wearWrite kind die unit spare logical wh s) s := by
  unfold wearWrite
  split
  · exact .refl s
  · extract_lets s1 n s2
    have h2 : QuietNor s2 s := (quietNor_set _ s1).trans (quietNor_norProgram _ _ s)
    split
    · exact (quiet_event pWatchdog 6 s2).nor_of.trans h2
    · exact h2

/-- A wear record that is not full takes one more entry. -/
theorem wearWrite_wear (kind die unit spare logical wh : Nat) {s : State} (h : wearFull s = false) :
    (wearWrite kind die unit spare logical wh s).nor.wear = s.nor.wear + 1 := by
  have hroom : ¬262144 ≤ s.nor.wear := by simpa [wearFull] using h
  rw [wearWrite, if_neg hroom]
  extract_lets s1 n s2
  have h1 : s1.nor.wear = s.nor.wear := by rw [show s1.nor = _ from norProgram_nor _ _ s]
  have h2 : s2.nor.wear = s.nor.wear + 1 := congrArg (· + 1) h1
  split
  · rw [event_nor, h2]
  · exact h2

theorem unitSt_congr {t s : State} (h : t.units = s.units) (p : Nat) : unitSt t p = unitSt s p :=
  congrArg (sget (fun _ => ({} : UnitSt)) · p) h

/-! ### Units that are retired, activated and tested (R704, R707) -/

theorem quiet_sparesOut (left : List Nat) (s : State) : Quiet (sparesOut left s) s := by
  unfold sparesOut
  split
  · exact quiet_event _ _ _
  · exact .refl s

theorem retire_state (p : Nat) (s : State) : (unitSt (retire p s) p).state = .retired := by
  rw [retire, unitSt_setUState]

theorem retire_mem (p : Nat) (s : State) : (retire p s).mem = s.mem := by
  rw [retire, setUState_mem]
  exact (quietNor_wearWrite _ _ _ _ _ _ s).mem

theorem retire_wear (p : Nat) {s : State} (h : wearFull s = false) : (retire p s).nor.wear = s.nor.wear + 1 := by
  rw [retire, setUState_nor, wearWrite_wear _ _ _ _ _ _ h]

theorem activate_state (p : Nat) (s : State) : (unitSt (activate p s) p).state = .active := by
  rw [activate, unitSt_setUState]

theorem unitSt_activate_ne {p q : Nat} (s : State) (h : q ≠ p) : unitSt (activate p s) q = unitSt s q := by
  rw [activate, unitSt_setUState_ne _ _ _ h, unitSt_setUnit_ne s _ h]

theorem activate_mem (p : Nat) (s : State) : (activate p s).mem = s.mem := by
  rw [activate, setUState_mem, setUnit_mem]

/-- A copy engine that passes its test is ACTIVE; every other change leaves the units' records. -/
theorem testReset_copyEngine {p : Nat} (hk : pageKind p = some .copyEngine) (s : State) : (unitSt (testReset p true s) p).state = .active := by
  have hresend (q : Nat) (t : State) : unitSt (recovered p (resendDue q t)) p = unitSt t p := rfl
  simp only [testReset, hk, if_true]
  rw [unitSt_congr (dispSync_units _), hresend, activate_state]

theorem testReset_recovered (p : Nat) (ok : Bool) (s : State) : (testReset p ok s).recov.faulty.contains p = false := by
  have hset (t : State) : (dispSync (recovered p t)).recov.faulty.contains p = false := by
    show (setDel p t.recov.faulty).contains p = false
    simpa using not_mem_setDel p t.recov.faulty
  exact hset _

theorem spareTest_faulted {s : State} {p : Nat} (ok : Bool) (hh : s.inHold = false) (hd : devFault s = false)
    (hf : s.recov.faulty.contains p = true) (ht : inTile p = false) (hk : pageKind p ≠ some .segment) (hs : (unitSt s p).state = .faulted) :
    spareTest p ok s = commitFollow (testReset p ok s) := by
  simp only [spareTest, hh, hd, hf, ht, hk, hs, Bool.false_eq_true, or_self, if_false, if_true, true_or]

theorem pounceRuns_notHold {s : State} (h : pounceRuns s = true) : s.inHold = false := by
  simp only [pounceRuns, Bool.and_eq_true, Bool.not_eq_true'] at h
  exact h.1.1.2

section
variable {s : State} {d u : Nat} (hd : d < 8) (hu : u < 15) (hf : s.recov.faulty.contains (pTile d u) = false)
  (hs : (unitSt s (pTile d u)).state = .spare) (hp : pounceRuns s = true) (hv : devFault s = false)
include hf hs hp hv

include hd hu in
/-- A spare tile that fails its test is retired (R704, R707). -/
theorem spareTest_spareFails : ∃ left, spareTest (pTile d u) false s = sparesOut left (retire (pTile d u) s) := by
  have hdsp : isDsp (pTile d u) = false := by
    simp only [isDsp, pTile, pDispatch, pStandby, pageOf, Bool.or_eq_false_iff, beq_eq_false_iff_ne]
    omega
  simp only [spareTest, pounceRuns_notHold hp, hv, hf, hs, hdsp, hp, Bool.false_eq_true, ne_eq, not_true, Bool.not_true, or_self, if_false]
  split
  · exact ⟨_, rfl⟩
  · exact ⟨_, rfl⟩

theorem spareTest_sparePasses : spareTest (pTile d u) true s = s := by
  simp only [spareTest, pounceRuns_notHold hp, hv, hf, hs, Bool.false_eq_true, or_self, if_false, or_true, if_true]

end

/-! ### The dispatcher that is not in service (R694, R704) -/

theorem execPathTest_standby {s : State} (ok : Bool) (hp : pounceRuns s = true) : execPathTest ok [] [] s = .next (standbyTest ok s) := by
  rw [execPathTest, if_neg (by simp [hp])]
  rfl

section
variable {s : State} (hf : s.disp.failover = false) (hs : (unitSt s (pOther s)).state ≠ .retired)
include hf hs

theorem standbyTest_passes : standbyTest true s
    = setUState (pOther s) .spare false (setUnit (pOther s) { unitSt s (pOther s) with enable := false, drain := false } s) := by
  simp only [standbyTest, hf, hs, Bool.false_eq_true, or_self, if_false, if_true]

theorem standbyTest_fails : ∃ u, standbyTest false s
    = event pWatchdog 1 (wr pWatchdog 0x108 (rd u pWatchdog 0x108 ||| 2) u) ∧ QuietNor u (setUState (pOther s) .retired false s) := by
  refine ⟨wearWrite 11 8 (pageUnit (pOther s)) 0 0x3F 0 (setUState (pOther s) .retired false s), ?_, quietNor_wearWrite _ _ _ _ _ _ _⟩
  simp only [standbyTest, hf, hs, Bool.false_eq_true, or_self, if_false]

end

/-! ### Corrected errors, scrubs and spare rows (R154, R704, R705) -/

section
variable {s : State} {p rate off : Nat} (ho : ceThresh p = some off) (hp : pounceRuns s = true)
include ho

theorem ceRateEval_under (hr : rate < (rd s p off).toNat) (left : Bool) : ceRateEval p rate left s = s := by
  simp only [ceRateEval, ho, hr, or_true, if_true]

include hp

/-- A rate at the threshold raises the event; beyond it at most a row becomes due or a tile is to leave. -/
theorem ceRateEval_over (hr : (rd s p off).toNat ≤ rate) (left : Bool) : ∃ r di,
    ceRateEval p rate left s = { event p 1 s with recov := r, disp := di } := by
  simp only [ceRateEval, ho, hp, Nat.not_lt.mpr hr, Bool.not_true, Bool.false_eq_true, or_self, if_false]
  split
  · exact ⟨_, _, rfl⟩
  · split
    · exact ⟨_, _, rfl⟩
    · split
      · split <;> exact ⟨_, _, rfl⟩
      · exact ⟨_, _, rfl⟩

theorem ceRateEval_due (hr : (rd s p off).toNat ≤ rate) (hw : wearFull s = false) (hf : fittedLately s p = false)
    (hk : pageKind p = some .tstore ∨ pageKind p = some .segment) : p ∈ (ceRateEval p rate true s).recov.due := by
  have hw' : wearFull (event p 1 s) = false := by simpa [wearFull] using hw
  have hf' : fittedLately (event p 1 s) p = false := by simpa [fittedLately] using hf
  have hk' : (pageKind p == some .tstore || pageKind p == some .segment) = true := by simpa using hk
  simp only [ceRateEval, ho, hp, Nat.not_lt.mpr hr, hw', hf', hk', Bool.not_true, Bool.not_false, Bool.false_eq_true, or_self, if_false,
    and_self, if_true]
  exact mem_setAdd p _

end

theorem mem_foldl_setAdd {x : Nat} (l m : List Nat) (h : x ∈ l) : x ∈ l.foldl (fun m w => setAdd w m) m := by
  have hkeep (y : Nat) (m : List Nat) (hm : x ∈ m) : x ∈ setAdd y m := by
    unfold setAdd
    split
    · exact hm
    · exact List.mem_cons_of_mem y hm
  have hall (l m : List Nat) (hm : x ∈ m) : x ∈ l.foldl (fun m w => setAdd w m) m := by
    induction l generalizing m with
    | nil => exact hm
    | cons y l ih => exact ih _ (hkeep y m hm)
  induction l generalizing m with
  | nil => cases h
  | cons y l ih =>
    rcases List.mem_cons.mp h with rfl | h
    · exact hall l _ (mem_setAdd x m)
    · exact ih _ h

/-- Poisoning one 64 B word of a tile store. -/
theorem mem_poison_word (loc : Nat) (t : TileSt) : (TileSt.poison (64 * loc) 64 t).scratchPoison.contains loc = true := by
  rw [TileSt.poison, if_neg (by decide), List.contains_iff_mem]
  refine mem_foldl_setAdd _ _ (List.mem_map.mpr ⟨0, List.mem_range.mpr (by omega), by omega⟩)

theorem tstore_ne_intr {p : Nat} (hk : pageKind p = some .tstore) : p ≠ pIntr := by
  rintro rfl
  revert hk
  decide

section
variable {s : State} {p loc : Nat} (hk : pageKind p = some .tstore) (hp : pounceRuns s = true) (sector : Nat)
include hk hp

theorem arrayScrub_corrected : arrayScrub p loc sector true false s = satInc p 0x104 1 s := by
  simp only [arrayScrub, hp, hk, Bool.not_true, Bool.false_eq_true, if_false, if_true, false_and]

/-- An uncorrectable word of a tile store is counted and poisoned, and the page names it (R120). -/
theorem arrayScrub_uncorrectable (hl : loc < 0x20000) : arrayScrub p loc sector false true s
    = event p 0 (wr p 0x110 (BitVec.ofNat 32 (loc + 0x80000000)) (satInc p 0x108 1
        (setTile (pageDie p) (pageUnit p) ((tileSt s (pageDie p) (pageUnit p)).poison (64 * loc) 64) s))) := by
  simp only [arrayScrub, hp, hk, hl, Bool.not_true, Bool.false_eq_true, if_false, if_true, and_self]

end

/-- What fitting a spare row leaves: one entry of the wear record, the time, and the array no longer due. -/
theorem spareRowFit_fits {s : State} {p : Nat} (loc : Nat) (column : Bool) (hp : pounceRuns s = true) (hd : s.recov.due.contains p = true)
    (hw : wearFull s = false) : ∃ u v : State, spareRowFit p loc column s = pounceDone false v ∧ Quiet v u
      ∧ u.recov = { s.recov with due := setDel p s.recov.due, fitted := sadd s.recov.fitted p s.now }
      ∧ u.nor.wear = s.nor.wear + 1 ∧ u.mem = s.mem := by
  have hwear := quietNor_wearWrite 9 (pageDie p) (pageUnit p) 0 0x3F loc s
  rw [spareRowFit, if_neg (by simpa [hp, hw] using hd)]
  extract_lets s1 r s2 w s3
  have hrecov : s2.recov = { s.recov with due := setDel p s.recov.due, fitted := sadd s.recov.fitted p s.now } := by
    have h1 : s1.recov = s.recov := hwear.recov
    have h2 : s1.now = s.now := hwear.now
    simp only [s2, r, h1, h2]
  refine ⟨s2, s3, rfl, ?_, hrecov, wearWrite_wear _ _ _ _ _ _ hw, hwear.mem⟩
  subst s3
  split
  · exact (quiet_event _ _ _).trans (quiet_wr _ _ _ s2)
  · exact .refl s2

/-! ### A tile is substituted (R706 to R708) -/

theorem distUpdate_units (changes : List (Nat × Word)) (s : State) : (distUpdate changes s).units = s.units := by
  simp [distUpdate]
theorem distUpdate_mem (changes : List (Nat × Word)) (s : State) : (distUpdate changes s).mem = s.mem := by
  simp [distUpdate]
theorem distUpdate_prot (changes : List (Nat × Word)) (s : State) : (distUpdate changes s).prot = s.prot := by
  simp [distUpdate]
theorem distUpdate_bindTile (changes : List (Nat × Word)) (s : State) : (distUpdate changes s).org.bindTile = s.org.bindTile := by
  simp [distUpdate]

/-- Two states agree on what a substitution is seen by: memory, the units' records, the commit and the bindings of tiles. -/
structure SameTiles (t s : State) : Prop where
  mem : t.mem = s.mem
  units : t.units = s.units
  prot : t.prot = s.prot
  bind : t.org.bindTile = s.org.bindTile

theorem SameTiles.trans {t u s : State} (h : SameTiles t u) (k : SameTiles u s) : SameTiles t s :=
  ⟨h.mem.trans k.mem, h.units.trans k.units, h.prot.trans k.prot, h.bind.trans k.bind⟩

theorem Quiet.sameTiles {t s : State} (h : Quiet t s) : SameTiles t s := ⟨h.mem, h.units, h.prot, congrArg OrgSt.bindTile h.org⟩

theorem sameTiles_wearWrite (kind die unit spare logical wh : Nat) (s : State) :
    SameTiles (wearWrite kind die unit spare logical wh s) s :=
  have h := quietNor_wearWrite kind die unit spare logical wh s
  ⟨h.mem, h.units, h.prot, congrArg OrgSt.bindTile h.org⟩

theorem sameTiles_distUpdate (changes : List (Nat × Word)) (s : State) : SameTiles (distUpdate changes s) s :=
  ⟨distUpdate_mem _ s, distUpdate_units _ s, distUpdate_prot _ s, distUpdate_bindTile _ s⟩

theorem sameTiles_recalibrate (ix : List Nat) (s : State) : SameTiles (recalibrate ix s) s :=
  (sameTiles_distUpdate _ (tickFree ix.length s)).trans ⟨rfl, rfl, rfl, rfl⟩

theorem foldl_keeps_on {α β : Type} (g : State → β) {f : State → α → State} {l : List α} (hf : ∀ t, ∀ x ∈ l, g (f t x) = g t) (s : State) :
    g (l.foldl f s) = g s := by
  induction l generalizing s with
  | nil => rfl
  | cons x l ih => exact (ih (fun t y hy => hf t y (List.mem_cons_of_mem x hy)) _).trans (hf s x List.mem_cons_self)

/-- A state with a logical tile's binding set. -/
def withBinding (k v : Nat) (s : State) : State :=
  { s with org := { s.org with bindTile := sput (fun _ => 0) s.org.bindTile k v } }

theorem binding_set {t u s : State} {k v : Nat} (h : SameTiles t u) (hu : u.org = (withBinding k v s).org) :
    sget (fun _ => 0) t.org.bindTile k = v := by
  rw [h.bind, hu]
  exact sget_sput_same _ _ _ _

/-- The state of a tile and its spare once the spare has been brought in. -/
def exchanged (d u v lt : Nat) (s : State) : State :=
  (List.range 10).foldl (fun t b => activate (pTile d v + 1 + b) t)
    (setUState (pTile d v) .active false (setUState (pTile d u) .retired false (withBinding (12 * d + lt) (v + 1) (wearWrite 1 d u v lt 0 s))))

theorem sameTiles_bindTile (d u v lt : Nat) (rest : List Nat) (s : State) : SameTiles (bindTile d u v lt rest s) (exchanged d u v lt s) :=
  (quiet_sparesOut _ _).sameTiles.trans ((quiet_pounceDone _ _).sameTiles.trans (sameTiles_recalibrate _ (exchanged d u v lt s)))

theorem unitSt_exchanged {d u v lt : Nat} (s : State) {q : Nat} (hq : ∀ b < 10, q ≠ pTile d v + 1 + b) : unitSt (exchanged d u v lt s) q
    = unitSt (setUState (pTile d v) .active false (setUState (pTile d u) .retired false (withBinding (12 * d + lt) (v + 1) (wearWrite 1 d u v lt 0 s)))) q :=
  foldl_keeps_on (unitSt · q) (fun t b hb => unitSt_activate_ne t (hq b (List.mem_range.mp hb))) _

theorem exchanged_frame {d u v lt : Nat} (s : State) {β : Type} (g : State → β) (ha : ∀ p t, g (activate p t) = g t)
    (hs : ∀ p x c t, g (setUState p x c t) = g t) : g (exchanged d u v lt s) = g (withBinding (12 * d + lt) (v + 1) (wearWrite 1 d u v lt 0 s)) := by
  rw [exchanged, foldl_keeps g fun t b => ha _ t, hs, hs]

/-- A spare that is another unit of the die takes the logical tile; the old tile is retired. -/
theorem bindTile_binds {d u v lt : Nat} (rest : List Nat) (s : State) (hv : v ≠ u) :
    tileUnit (bindTile d u v lt rest s) (12 * d + lt) = some v ∧ (unitSt (bindTile d u v lt rest s) (pTile d u)).state = .retired
      ∧ (unitSt (bindTile d u v lt rest s) (pTile d v)).state = .active ∧ (bindTile d u v lt rest s).mem = s.mem
      ∧ (bindTile d u v lt rest s).prot = s.prot := by
  have h := sameTiles_bindTile d u v lt rest s
  have hwear := sameTiles_wearWrite 1 d u v lt 0 s
  have hne : pTile d u ≠ pTile d v := by
    simp only [pTile, pageOf]
    omega
  have hpages (x : Nat) : ∀ b < 10, pTile d x ≠ pTile d v + 1 + b := by
    simp only [pTile, pageOf]
    omega
  have horg : (exchanged d u v lt s).org = (withBinding (12 * d + lt) (v + 1) (wearWrite 1 d u v lt 0 s)).org :=
    exchanged_frame s State.org (fun p t => by rw [activate, setUState_org, setUnit_org]) fun p x c t => setUState_org p x c t
  refine ⟨?_, ?_, ?_, h.mem.trans ?_, h.prot.trans ?_⟩
  · rw [tileUnit, binding_set h horg]
  · rw [unitSt_congr h.units, unitSt_exchanged s (hpages u), unitSt_setUState_ne _ _ _ hne, unitSt_setUState]
  · rw [unitSt_congr h.units, unitSt_exchanged s (hpages v), unitSt_setUState]
  · exact (exchanged_frame s State.mem activate_mem fun p x c t => setUState_mem p x c t).trans hwear.mem
  · refine (exchanged_frame s State.prot (fun p t => ?_) fun p x c t => setUState_prot p x c t).trans hwear.prot
    rw [activate, setUState_prot, setUnit_prot]

/-- Without a spare the logical tile is bound to none, and its tile is retired (R708). -/
theorem loseTile_unbinds (d u lt : Nat) (s : State) : tileUnit (loseTile d u lt s) (12 * d + lt) = none
    ∧ (unitSt (loseTile d u lt s) (pTile d u)).state = .retired ∧ (loseTile d u lt s).mem = s.mem ∧ (loseTile d u lt s).prot = s.prot := by
  have h : SameTiles (loseTile d u lt s) (withBinding (12 * d + lt) 0 (retire (pTile d u) s)) := sameTiles_distUpdate _ _
  refine ⟨?_, ?_, h.mem.trans (retire_mem _ s), h.prot.trans ?_⟩
  · rw [tileUnit, binding_set h rfl]
  · rw [unitSt_congr h.units]
    exact retire_state (pTile d u) s
  · show (retire (pTile d u) s).prot = s.prot
    rw [retire, setUState_prot]
    exact (sameTiles_wearWrite _ _ _ _ _ _ s).prot

/-- What follows either end of a substitution: the tile is in no recovery and no longer to leave, and no commit is in progress. -/
def leftService (d u k : Nat) (s : State) : State :=
  dispSync { s with
    recov := { s.recov with faulty := s.recov.faulty.filter fun p => !(pageDie p == d && pageUnit p == u) }
    disp := { s.disp with leaving := setDel k s.disp.leaving } }

theorem sameTiles_leftService (d u k : Nat) (s : State) : SameTiles (leftService d u k s) s := ⟨rfl, rfl, rfl, rfl⟩

theorem tileUnit_congr {t s : State} (h : t.org.bindTile = s.org.bindTile) (k : Nat) : tileUnit t k = tileUnit s k := by
  rw [tileUnit, tileUnit, h]

/-- With no commit in progress no unit has to acknowledge. -/
theorem commitFollow_leftService {d u k : Nat} {s : State} (h : s.prot.phase = .idle) :
    commitFollow (leftService d u k s) = leftService d u k s :=
  commitFollow_idle (by rw [(sameTiles_leftService d u k s).prot, h]; decide)

section
variable {s : State} {d u : Nat} (hd : d < 8) (hu : u < 15) (hl : logicalTile s d u < 12) (hh : s.inHold = false) (hv : devFault s = false)
  (hp : pounceRuns s = true) (hk : s.disp.leaving.contains (12 * d + logicalTile s d u) = true)
  (hb : tileBusy s (12 * d + logicalTile s d u) = false) (hr : (slook s.disp.resid (12 * d + logicalTile s d u)).isSome = false)
  (hw : wearFull s = false)
include hd hu hl hh hv hp hk hb hr hw

theorem tileSubstitution_spare {v : Nat} {rest : List Nat} (hs : spareTiles s d (u / 5) = v :: rest) : tileSubstitution d u s
    = commitFollow (leftService d u (12 * d + logicalTile s d u) (bindTile d u v (logicalTile s d u) rest s)) := by
  rw [tileSubstitution]
  dsimp only
  rw [if_neg (by simp only [hh, hv, hp, hk, hb, hr, hw]; simp; omega), hs]
  rfl

theorem tileSubstitution_none (hs : spareTiles s d (u / 5) = []) : tileSubstitution d u s
    = commitFollow (leftService d u (12 * d + logicalTile s d u) (loseTile d u (logicalTile s d u) s)) := by
  rw [tileSubstitution]
  dsimp only
  rw [if_neg (by simp only [hh, hv, hp, hk, hb, hr, hw]; simp; omega), hs]
  rfl

end

theorem recoveryEnd_ends (lost : List Nat) {s : State} (hr : s.recov.running = true) (hf : s.recov.faulty = []) (hh : s.inHold = false)
    (hv : devFault s = false) : ∃ u : State, recoveryEnd lost s = dispSync (addProg pPolicy 0 1 (event pPolicy 1 u))
      ∧ u.recov.running = false ∧ u.recov.order = false ∧ u.recov.segs = [] ∧ u.disp.paused = false := by
  rw [recoveryEnd, if_neg (by simp [hr, hf, hh, hv])]
  exact ⟨_, rfl, rfl, rfl, rfl, rfl⟩

end Sys2Proof.Machine
end

section
/-! PROOFS. The statement on recovery and Pounce. -/

namespace Sys2Proof.Machine

/-- Settles O52: each row from what it leaves; a substitution from the spare that the cluster has, or has not. What
SPARE_TEST does to units other than tiles and segments, and how a teardown ends, is the model's own reading (assumption log 43). -/
theorem recoveryAndPounce : Obligations.RecoveryAndPounce := by
  unfold Obligations.RecoveryAndPounce
  refine ⟨fun s l hr hf hh hv => ?recoveryEnd, fun s l hf => congrArg Host.Outcome.next (if_pos (.inr (.inl hf))),
    fun s d u k ht hh ha => ⟨fun hn => ?teardown, fun hn => ?early⟩,
    fun s p ok hh hv hf ht hk hs => ⟨congrArg Host.Outcome.next (spareTest_faulted ok hh hv hf ht hk hs), testReset_recovered p ok s,
      fun hk => testReset_copyEngine hk s⟩,
    fun s d u hd hu hf hs hp hv hw => ⟨?spareFails, congrArg Host.Outcome.next (spareTest_sparePasses hf hs hp hv)⟩,
    fun s hp hf hs => ⟨⟨_, (execPathTest_standby true hp).trans (congrArg Host.Outcome.next (standbyTest_passes hf hs)), ?standbyPasses⟩,
      ?standbyFails⟩,
    fun s p rate off ho hp => ⟨fun hr left => ⟨_, rfl, ?rateOver⟩, fun hr left => congrArg Host.Outcome.next (ceRateEval_under ho hr left)⟩,
    fun s p loc sector hk hp => ⟨⟨_, congrArg Host.Outcome.next (arrayScrub_corrected hk hp sector), rfl, rd_wr_same _ _ _ _⟩,
      fun hl => ⟨_, congrArg Host.Outcome.next (arrayScrub_uncorrectable hk hp sector hl), ?uncorrectable⟩⟩,
    fun s p loc c hp hd hw => ⟨_, rfl, ?rowFit⟩,
    fun s d u hd hu hl hh hv hp hk hb hr hw hi => ⟨fun v rest hs hne => ?substituted, fun hs => ?lost⟩⟩
  case recoveryEnd =>
    obtain ⟨u, he, hrun, hord, hsegs, hpaused⟩ := recoveryEnd_ends l hr hf hh hv
    refine ⟨_, congrArg Host.Outcome.next he, ?_, ?_, ?_, ?_, bitOf_addProg_event pPolicy 1 pPolicy _ (by decide) (by decide)⟩
    · rw [dispSync_recov, addProg_recov, event_recov, hrun]
    · rw [dispSync_recov, addProg_recov, event_recov, hord]
    · rw [dispSync_recov, addProg_recov, event_recov, hsegs]
    · show (addProg pPolicy 0 1 (event pPolicy 1 u)).disp.paused = false
      rw [addProg_disp, event_disp, hpaused]
  case teardown =>
    have hlate : ¬(s.inHold = true ∨ (!k.aborted) = true ∨ s.now < k.abortAt + 1000000) := by simpa [hh, ha] using hn
    show execTeardownTimeout d u s = _
    rw [execTeardownTimeout, ht]
    exact if_neg hlate
  case early =>
    show execTeardownTimeout d u s = _
    rw [execTeardownTimeout, ht]
    exact if_pos (.inr (.inr hn))
  case spareFails =>
    obtain ⟨left, he⟩ := spareTest_spareFails hd hu hf hs hp hv
    have hq := quiet_sparesOut left (retire (pTile d u) s)
    refine ⟨_, congrArg Host.Outcome.next he, ?_, ?_, ?_⟩
    · rw [unitSt_congr hq.units, retire_state]
    · rw [hq.nor, retire_wear _ hw]
    · rw [hq.mem, retire_mem]
  case standbyPasses => exact ⟨by rw [unitSt_setUState], by rw [setUState_mem, setUnit_mem]⟩
  case standbyFails =>
    obtain ⟨u, he, hu⟩ := standbyTest_fails hf hs
    refine ⟨_, (execPathTest_standby false hp).trans (congrArg Host.Outcome.next he), ?_, ?_, ?_⟩
    · rw [unitSt_congr ((event_units _ _ _).trans ((wr_units _ _ _ _).trans hu.units))]
      exact congrArg UnitSt.state (unitSt_setUState _ _ _ s)
    · rw [rd_event _ _ _ (by decide) (by decide) (by decide), rd_wr_same, bitOf_eq_getLsbD, BitVec.getLsbD_or]
      exact Bool.or_true _
    · rw [event_mem, wr_mem]
      exact hu.mem.trans (setUState_mem _ _ _ s)
  case rateOver =>
    obtain ⟨r, di, he⟩ := ceRateEval_over ho hp hr left
    refine ⟨?_, ?_, fun hl hw hf hk => ?_⟩
    · rw [he]
      exact bitOf_event (by decide) p s
    · rw [he]
      exact event_mem p 1 s
    · subst hl
      exact ceRateEval_due ho hp hr hw hf hk
  case uncorrectable =>
    have hne := tstore_ne_intr hk
    refine ⟨?_, ?_, ?_, bitOf_event (by decide) _ _, ?_⟩
    · rw [tileSt_congr ((event_tiles _ _ _).trans ((wr_tiles _ _ _ _).trans (satInc_tiles _ _ _ _))), tileSt_setTile_same, mem_poison_word]
    · rw [rd_event _ _ _ (by decide) (by decide) hne, rd_wr_same]
    · rw [rd_event _ _ _ (by decide) (by decide) hne, rd_wr_off _ _ (by decide) (by decide) (by decide)]
      exact rd_wr_same _ _ _ _
    · rw [event_mem, wr_mem, satInc_mem, setTile_mem]
  case rowFit =>
    obtain ⟨u, v, he, hq, hrecov, hwear, hmem⟩ := spareRowFit_fits loc c hp hd hw
    have hpd := (quiet_pounceDone false v).trans hq
    rw [he, hpd.recov, hrecov, hpd.nor, hpd.mem]
    refine ⟨by simpa using not_mem_setDel p s.recov.due, slook_sadd_same _ _ _, hwear, ?_, hmem⟩
    exact bitOf_addProg_event pWatchdog 1 pWatchdog _ (by decide) (by decide)
  case substituted =>
    obtain ⟨hbind, hold, hnew, hmem, hprot⟩ := bindTile_binds rest s hne (d := d) (lt := logicalTile s d u)
    have hsame := sameTiles_leftService d u (12 * d + logicalTile s d u) (bindTile d u v (logicalTile s d u) rest s)
    refine ⟨_, congrArg Host.Outcome.next ((tileSubstitution_spare hd hu hl hh hv hp hk hb hr hw hs).trans
      (commitFollow_leftService (hprot ▸ hi))), ?_, ?_, ?_, ?_⟩
    · rw [tileUnit_congr hsame.bind, hbind]
    · rw [unitSt_congr hsame.units, hold]
    · rw [unitSt_congr hsame.units, hnew]
    · rw [hsame.mem, hmem]
  case lost =>
    obtain ⟨hbind, hold, hmem, hprot⟩ := loseTile_unbinds d u (logicalTile s d u) s
    have hsame := sameTiles_leftService d u (12 * d + logicalTile s d u) (loseTile d u (logicalTile s d u) s)
    refine ⟨_, congrArg Host.Outcome.next ((tileSubstitution_none hd hu hl hh hv hp hk hb hr hw hs).trans
      (commitFollow_leftService (hprot ▸ hi))), ?_, ?_, ?_⟩
    · rw [tileUnit_congr hsame.bind, hbind]
    · rw [unitSt_congr hsame.units, hold]
    · rw [hsame.mem, hmem]

end Sys2Proof.Machine
end

section
/-! SUPPORT. HOLD (16_power.md R755 to R763, R775): the causes in HOLD_STAT, what entering HOLD and resuming leave as it was, and the
state that every leaf unit takes. -/

namespace Sys2Proof.Machine

/-! ### The causes in HOLD_STAT (R755, R775) -/

theorem nbit_holdCauses (s : State) {j : Nat} (hj : j < 5) : nbit (holdCauses s) j = bitOf (rd s pBlocker 0x158) (j + 1) := by
  rw [bitOf_eq_testBit]
  have hbit : nbit (holdCauses s) j = (holdCauses s).testBit j := by
    rw [Nat.testBit_eq_decide_div_mod_eq]
    rfl
  rw [hbit, holdCauses, testBit_fld, decide_eq_true (by omega), Bool.true_and]

theorem nbit_setHoldCause_same {c : Nat} (hc : c < 5) (on : Bool) (s : State) : nbit (holdCauses (setHoldCause c on s)) c = on := by
  rw [nbit_holdCauses _ hc, setHoldCause, rd_wr_same, bitOf_setFld_same _ _ (by omega)]

theorem nbit_setHoldCause_ne {c j : Nat} (hj : j < 5) (h : j ≠ c) (on : Bool) (s : State) :
    nbit (holdCauses (setHoldCause c on s)) j = nbit (holdCauses s) j := by
  rw [nbit_holdCauses _ hj, nbit_holdCauses _ hj, setHoldCause, rd_wr_same, bitOf_setFld_ne _ _ (Nat.le_refl _) (by omega) (by omega)]

theorem holdCauses_congr {t s : State} (h : t.regs = s.regs) : holdCauses t = holdCauses s := congrArg (fld · 5 1) (rd_congr h _ _)

theorem clearHold_inHold {s : State} (c : Nat) (h : s.inHold = true) : clearHold c s = setHoldCause c false s := if_pos h

theorem enterHold_joins {s : State} (c : Nat) (hp : s.power.up = true) (hh : s.inHold = true) : enterHold c s = setHoldCause c true s := by
  rw [enterHold, if_neg (by simp [hp]), if_pos hh]

/-! ### What entering HOLD and resuming leave (R756, R757) -/

/-- Memory, the tiles, the Felt, the power state, DEV_TIME, the mark of HOLD and HOLD_STAT are as they were. -/
structure HoldFrame (t s : State) : Prop where
  mem : t.mem = s.mem
  tiles : t.tiles = s.tiles
  felt : t.felt = s.felt
  power : t.power = s.power
  now : t.now = s.now
  inHold : t.inHold = s.inHold
  stat : rd t pBlocker 0x158 = rd s pBlocker 0x158

namespace HoldFrame

variable {t u s : State}

theorem refl (s : State) : HoldFrame s s := ⟨rfl, rfl, rfl, rfl, rfl, rfl, rfl⟩

theorem trans (h : HoldFrame t u) (k : HoldFrame u s) : HoldFrame t s :=
  ⟨h.mem.trans k.mem, h.tiles.trans k.tiles, h.felt.trans k.felt, h.power.trans k.power, h.now.trans k.now, h.inHold.trans k.inHold,
    h.stat.trans k.stat⟩

theorem of_quiet (h : Quiet t s) (hs : rd t pBlocker 0x158 = rd s pBlocker 0x158) : HoldFrame t s :=
  ⟨h.mem, h.tiles, h.felt, h.power, h.now, h.inHold, hs⟩

theorem foldl {α : Type} {f : State → α → State} (hf : ∀ t x, HoldFrame (f t x) t) (l : List α) (s : State) :
    HoldFrame (l.foldl f s) s := by
  induction l generalizing s with
  | nil => exact .refl s
  | cons x l ih => exact (ih _).trans (hf s x)

theorem wr (p : Nat) {o : Nat} (v : Word) (s : State) (ho : o < 0x1000) (h : o ≠ 0x158) : HoldFrame (wr p o v s) s :=
  .of_quiet (quiet_wr p o v s) (rd_wr_off s v ho (by decide) h.symm)

theorem event (p n : Nat) (s : State) : HoldFrame (event p n s) s :=
  .of_quiet (quiet_event p n s) (rd_event p n s (by decide) (by decide) (by decide))

theorem addProg (p : Nat) {i : Nat} (n : Nat) (s : State) (hi : i < 8) : HoldFrame (addProg p i n s) s :=
  .of_quiet (quiet_addProg p i n s) (rd_addProg p n s hi (by decide) (by decide))

theorem setUnit (p : Nat) (x : UnitSt) (s : State) : HoldFrame (setUnit p x s) s := ⟨rfl, rfl, rfl, rfl, rfl, rfl, rfl⟩

theorem setUState (p : Nat) (x : UState) (c : Bool) (s : State) : HoldFrame (setUState p x c s) s := by
  unfold Machine.setUState
  split
  · exact .refl s
  · simp only
    split
    · exact .setUnit p _ s
    · exact (event p 30 _).trans (.setUnit p _ s)

theorem holdUnit (s : State) (p : Nat) : HoldFrame (holdUnit s p) s := by
  unfold Machine.holdUnit
  simp only
  split
  · exact (setUState p .hold false _).trans (.setUnit p _ s)
  · exact .refl s

theorem holdMem (s : State) (d : Nat) : HoldFrame (holdMem s d) s := ⟨rfl, rfl, rfl, rfl, rfl, rfl, rfl⟩

theorem holdPort (s : State) (k : Nat) : HoldFrame (holdPort s k) s := by
  have hport (p : PortSt) : HoldFrame (setLState k 9 (setPort k p s)) s :=
    (HoldFrame.wr (pPort k) _ (setPort k p s) (by decide) (by decide)).trans ⟨rfl, rfl, rfl, rfl, rfl, rfl, rfl⟩
  have hemit (o : Out) (t : State) : HoldFrame (emit o t) t := .of_quiet (quiet_emit o t) rfl
  unfold Machine.holdPort
  dsimp only
  generalize hs1 : setLState k 9 (setPort k _ s) = s1
  have h1 : HoldFrame s1 s := hs1 ▸ hport _
  split
  · exact (hemit _ s1).trans h1
  · exact h1

end HoldFrame

theorem quiet_publish (pace : Nat) (s : State) : Quiet (publish pace s) s := by
  have hwr (w : Word) : Quiet (addProg pPace 0 1 (wr pPace 0x100 w s)) s := (quiet_addProg _ _ _ _).trans (quiet_wr _ _ _ s)
  unfold publish
  simp only
  split
  · exact (quiet_event _ _ _).trans (hwr _)
  · exact hwr _

theorem holdFrame_publish (pace : Nat) (s : State) : HoldFrame (publish pace s) s := by
  have hwr (w : Word) : HoldFrame (addProg pPace 0 1 (wr pPace 0x100 w s)) s :=
    (HoldFrame.addProg pPace 1 _ (by decide)).trans (.wr pPace w s (by decide) (by decide))
  unfold publish
  simp only
  split
  · exact (HoldFrame.event pPace 0 _).trans (hwr _)
  · exact hwr _

/-- HOLD_STAT with one cause and the count of HOLDs one higher (R775). -/
def holdStat (c : Nat) (s : State) : Word := BitVec.ofNat 32 (1 + 2 * 2 ^ c + 64 * min (fld (rd s pBlocker 0x158) 21 6 + 1) 65535)

/-- Blocker's page as a HOLD begins. -/
def holdShown (c : Nat) (s : State) : State :=
  let s1 := wr pBlocker 0x158 (holdStat c s) (addProg pBlocker 5 1 s)
  event pBlocker 3 (wr pBlocker 0x10C (rd s1 pBlocker 0x10C ||| 0x20000) s1)

/-- The device in HOLD, before its units follow. -/
def holdMarked (c : Nat) (s : State) : State :=
  { holdShown c s with inHold := true, power := { (holdShown c s).power with hold := { enteredAt := (holdShown c s).now } } }

/-- The units of a list of pages in HOLD, after the controllers. -/
def holdUnits (l : List Nat) (c : Nat) (s : State) : State :=
  l.foldl holdUnit ((List.range 8).foldl holdMem (dispSync (holdMarked c s)))

/-- The ports in STANDBY and the dies' limits at HOLD. -/
def holdClocks (l : List Nat) (c : Nat) (s : State) : State :=
  (List.range 8).foldl (fun t d => wr (pPwrtherm d) 0x100 (setFld (rd t (pPwrtherm d) 0x100) 23 20 8) t)
    ((List.range 48).foldl holdPort (holdUnits l c s))

theorem enterHold_begins {s : State} (c : Nat) (hp : s.power.up = true) (hh : s.inHold = false) :
    enterHold c s = publish 0 (holdClocks (allHeaderPages.filter isLeaf) c s) := by
  rw [enterHold, if_neg (by simp [hp]), if_neg (by simp [hh])]
  rfl

theorem quiet_holdShown (c : Nat) (s : State) : Quiet (holdShown c s) s :=
  (quiet_event _ _ _).trans ((quiet_wr _ _ _ _).trans ((quiet_wr _ _ _ _).trans (quiet_addProg _ _ _ s)))

theorem holdFrame_dispSync (s : State) : HoldFrame (dispSync s) s := ⟨rfl, rfl, rfl, rfl, rfl, rfl, rfl⟩

theorem holdFrame_entered (l : List Nat) (c : Nat) (s : State) : HoldFrame (publish 0 (holdClocks l c s)) (holdMarked c s) :=
  (holdFrame_publish 0 _).trans ((HoldFrame.foldl (fun t d => .wr (pPwrtherm d) _ t (by decide) (by decide)) _ _).trans
    ((HoldFrame.foldl .holdPort _ _).trans ((HoldFrame.foldl .holdUnit _ _).trans
      ((HoldFrame.foldl .holdMem _ _).trans (holdFrame_dispSync _)))))

theorem rd_holdMarked (c : Nat) (s : State) : rd (holdMarked c s) pBlocker 0x158 = holdStat c s := by
  show rd (holdShown c s) pBlocker 0x158 = _
  rw [holdShown, rd_event _ _ _ (by decide) (by decide) (by decide), rd_wr_off _ _ (by decide) (by decide) (by decide), rd_wr_same]

theorem enterHold_frame {s : State} (c : Nat) (hp : s.power.up = true) (hh : s.inHold = false) : HoldFrame (enterHold c s) (holdMarked c s) := by
  rw [enterHold_begins c hp hh]
  exact holdFrame_entered _ c s

theorem holdMarked_now (c : Nat) (s : State) : (holdMarked c s).now = s.now := (quiet_holdShown c s).now
theorem holdMarked_mem (c : Nat) (s : State) : (holdMarked c s).mem = s.mem := (quiet_holdShown c s).mem
theorem holdMarked_tiles (c : Nat) (s : State) : (holdMarked c s).tiles = s.tiles := (quiet_holdShown c s).tiles
theorem holdMarked_felt (c : Nat) (s : State) : (holdMarked c s).felt = s.felt := (quiet_holdShown c s).felt
theorem holdMarked_enteredAt (c : Nat) (s : State) : (holdMarked c s).power.hold.enteredAt = s.now := (quiet_holdShown c s).now

/-- A TEST in HOLD ends at its time (R755, R775). -/
theorem holdTest_begins {s : State} {w : Word} (hh : s.inHold = false) (hp : s.power.up = true) (hw : fld w 15 0 ≠ 0) : ∃ x, holdTest w s
    = { enterHold 4 s with power := x } ∧ x.hold.testUntil = some (s.now + fld w 15 0 * 1000000) := by
  refine ⟨_, if_neg (by simp [hh, hp, hw]), ?_⟩
  rw [(enterHold_frame 4 hp hh).now, holdMarked_now]

/-! ### Every leaf unit keeps its state, and gets it back (R76, R757, R760) -/

/-- A unit in a state that HOLD keeps: not FAULTED, SPARE, RETIRED, and not in HOLD already. -/
abbrev Holdable (x : UnitSt) : Prop := x.state = .off ∨ x.state = .active ∨ x.state = .draining

theorem unitSt_holdUnit_same {s : State} {p : Nat} (h : Holdable (unitSt s p)) :
    unitSt (holdUnit s p) p = { unitSt s p with state := .hold, held := (unitSt s p).state } := by
  rw [holdUnit, if_pos h, unitSt_setUState, unitSt_setUnit_same]

theorem unitSt_holdUnit_held {s : State} {p : Nat} (h : (unitSt s p).state = .hold) : holdUnit s p = s := by
  rw [holdUnit, if_neg (by simp [h])]

theorem unitSt_holdUnit_ne {s : State} {p q : Nat} (h : q ≠ p) : unitSt (holdUnit s p) q = unitSt s q := by
  rw [holdUnit]
  split
  · rw [unitSt_setUState_ne _ _ _ h, unitSt_setUnit_ne _ _ h]
  · rfl

theorem unitSt_resumeUnit_same {s : State} {p : Nat} (h : (unitSt s p).state = .hold) :
    unitSt (resumeUnit s p) p = { unitSt s p with state := (unitSt s p).held } := by
  rw [resumeUnit, if_pos h, unitSt_setUState]

theorem resumeUnit_other {s : State} {p : Nat} (h : (unitSt s p).state ≠ .hold) : resumeUnit s p = s := if_neg h

theorem unitSt_resumeUnit_ne {s : State} {p q : Nat} (h : q ≠ p) : unitSt (resumeUnit s p) q = unitSt s q := by
  unfold resumeUnit
  split
  · exact unitSt_setUState_ne _ _ _ h
  · rfl

/-- A fold of steps, each of which changes its own unit's record alone and only where `P` holds, applies to a unit it meets once:
what the step makes of the record no longer satisfies `P`. -/
theorem unitSt_foldl_once {f : State → Nat → State} {P : UnitSt → Prop} {e : UnitSt → UnitSt}
    (hsame : ∀ s p, P (unitSt s p) → unitSt (f s p) p = e (unitSt s p)) (hother : ∀ s p q, q ≠ p → unitSt (f s p) q = unitSt s q)
    {p : Nat} {x : UnitSt} (hdone : ∀ s, unitSt s p = e x → f s p = s) {l : List Nat} (hl : p ∈ l) {s : State}
    (hx : unitSt s p = x) (hP : P x) : unitSt (l.foldl f s) p = e x := by
  have hafter (l : List Nat) (s : State) (hs : unitSt s p = e x) : unitSt (l.foldl f s) p = e x := by
    induction l generalizing s with
    | nil => exact hs
    | cons q l ih =>
      refine ih _ ?_
      by_cases hq : p = q
      · rw [← hq, hdone s hs, hs]
      · rw [hother s q p hq, hs]
  induction l generalizing s with
  | nil => cases hl
  | cons q l ih =>
    by_cases hq : p = q
    · subst hq
      exact hafter l _ ((hsame s p (hx ▸ hP)).trans (congrArg e hx))
    · exact ih ((List.mem_cons.mp hl).resolve_left hq) ((hother s q p hq).trans hx)

theorem holdMem_units (s : State) (d : Nat) : (holdMem s d).units = s.units := rfl

theorem unitSt_holdUnits {l : List Nat} {c : Nat} {s : State} {p : Nat} (hp : p ∈ l) (h : Holdable (unitSt s p)) :
    unitSt (holdUnits l c s) p = { unitSt s p with state := .hold, held := (unitSt s p).state } := by
  have hmem : ((List.range 8).foldl holdMem (dispSync (holdMarked c s))).units = (dispSync (holdMarked c s)).units :=
    foldl_keeps State.units holdMem_units _ _
  have hbefore : unitSt ((List.range 8).foldl holdMem (dispSync (holdMarked c s))) p = unitSt s p :=
    unitSt_congr (hmem.trans (quiet_holdShown c s).units) p
  exact unitSt_foldl_once (P := Holdable) (e := fun x => { x with state := .hold, held := x.state }) (fun s p => unitSt_holdUnit_same)
    (fun s p q => unitSt_holdUnit_ne) (fun s hs => unitSt_holdUnit_held (by rw [hs])) hp hbefore h

theorem entered_units (l : List Nat) (c : Nat) (s : State) : (publish 0 (holdClocks l c s)).units = (holdUnits l c s).units := by
  have hport (t : State) (k : Nat) : (holdPort t k).units = t.units := by
    unfold holdPort
    simp only
    split <;> rfl
  rw [(quiet_publish 0 _).units, holdClocks, foldl_keeps State.units fun t d => wr_units t _ _ _]
  exact foldl_keeps State.units hport _ _

/-! ### RESUMPTION (R757 to R761) -/

/-- The device out of HOLD. -/
def unheld (s : State) : State := { s with inHold := false, power := { s.power with hold := { enteredAt := s.power.hold.enteredAt } } }

/-- The device out of HOLD with its counts and clocks, before its units follow. -/
def resumeMarked (s : State) : State :=
  resumeClocks (s.now - s.power.hold.enteredAt) (holdCounts (s.now - s.power.hold.enteredAt) (unheld s))

/-- The controllers and the units of a list of pages resumed. -/
def resumedUnits (l : List Nat) (s : State) : State := l.foldl resumeUnit ((List.range 8).foldl resumeMem (resumeMarked s))

theorem resumption_runs {s : State} (hh : s.inHold = true) (hc : holdCauses s = 0) (hp : s.power.up = true) (hr : s.power.hold.reset = none) :
    resumption s = pump (commitFollow (pacePublish none (event pBlocker 4 (setClocks (capSync (dispSync (applyHeld s.power.hold
      (resumeBoot ((List.range 48).foldl resumePort (resumedUnits (allHeaderPages.filter isLeaf) s)))))))))) := by
  rw [resumption, if_neg (by simp [hh, hc, hp])]
  simp only [hr, Option.isSome_none, Bool.false_eq_true, if_false]
  rfl

theorem resumeClocks_eq (dur : Nat) (s : State) : (resumeClocks dur s).units = s.units ∧ (resumeClocks dur s).mem = s.mem
    ∧ (resumeClocks dur s).tiles = s.tiles ∧ (resumeClocks dur s).felt = s.felt ∧ (resumeClocks dur s).inHold = s.inHold
    ∧ (resumeClocks dur s).regs = s.regs := ⟨rfl, rfl, rfl, rfl, rfl, rfl⟩

theorem quiet_holdCounts (dur : Nat) (s : State) : Quiet (holdCounts dur s) s :=
  (quiet_add64 _ _ _ _).trans ((quiet_wr _ _ _ _).trans ((quiet_wr _ _ _ _).trans (quiet_wr _ _ _ s)))

/-- Out of HOLD the units, memory, the tiles and the Felt are as they were. -/
theorem resumeMarked_eq (s : State) : (resumeMarked s).units = s.units ∧ (resumeMarked s).mem = s.mem ∧ (resumeMarked s).tiles = s.tiles
    ∧ (resumeMarked s).felt = s.felt ∧ (resumeMarked s).inHold = false := by
  obtain ⟨hunits, hmem, htiles, hfelt, hhold, -⟩ := resumeClocks_eq (s.now - s.power.hold.enteredAt)
    (holdCounts (s.now - s.power.hold.enteredAt) (unheld s))
  have hq := quiet_holdCounts (s.now - s.power.hold.enteredAt) (unheld s)
  rw [resumeMarked, hunits, hmem, htiles, hfelt, hhold, hq.units, hq.mem, hq.tiles, hq.felt, hq.inHold]
  exact ⟨rfl, rfl, rfl, rfl, rfl⟩

theorem holdFrame_resumeMem (s : State) (d : Nat) : HoldFrame (resumeMem s d) s := ⟨rfl, rfl, rfl, rfl, rfl, rfl, rfl⟩

theorem holdFrame_resumeUnit (s : State) (p : Nat) : HoldFrame (resumeUnit s p) s := by
  unfold resumeUnit
  split
  · exact .setUState p _ false s
  · exact .refl s

theorem holdFrame_resumedUnits (l : List Nat) (s : State) : HoldFrame (resumedUnits l s) (resumeMarked s) :=
  (HoldFrame.foldl holdFrame_resumeUnit _ _).trans (HoldFrame.foldl holdFrame_resumeMem _ _)

theorem resumeMarked_notIn (s : State) : bitOf (rd (resumeMarked s) pBlocker 0x158) 0 = false := by
  obtain ⟨-, -, -, -, -, hregs⟩ := resumeClocks_eq (s.now - s.power.hold.enteredAt) (holdCounts (s.now - s.power.hold.enteredAt) (unheld s))
  rw [resumeMarked, rd_congr hregs, holdCounts, add64, rd_wr64_off _ _ (by decide) (by decide) (by decide) (by decide),
    rd_wr_off _ _ (by decide) (by decide) (by decide), rd_wr_same]
  exact bitOf_setFld_same _ false (by decide)

theorem resumedUnits_selfRefresh (pages : List Nat) (s : State) {d : Nat} (hd : d < 8) : (memCtl (resumedUnits pages s) d).selfRefresh = false := by
  have hunit (t : State) (p : Nat) : (resumeUnit t p).memctl = t.memctl := by
    unfold resumeUnit
    split
    · exact setUState_memctl _ _ _ t
    · rfl
  have hmem (l : List Nat) (t : State) (h : d ∈ l ∨ (memCtl t d).selfRefresh = false) : (memCtl (l.foldl resumeMem t) d).selfRefresh = false := by
    induction l generalizing t with
    | nil => exact h.resolve_left List.not_mem_nil
    | cons e l ih =>
      refine ih _ ?_
      by_cases he : d = e
      · subst he
        exact .inr (by rw [resumeMem, memCtl_setMemCtl_same])
      · rw [resumeMem, memCtl_setMemCtl_ne _ _ he]
        exact h.imp_left fun hm => (List.mem_cons.mp hm).resolve_left he
  have hctl : memCtl (resumedUnits pages s) d = memCtl ((List.range 8).foldl resumeMem (resumeMarked s)) d :=
    congrArg (sget (fun _ => ({} : MemCtl)) · d) (foldl_keeps State.memctl hunit _ _)
  rw [hctl]
  exact hmem _ _ (.inl (List.mem_range.mpr hd))

theorem resumeMem_units (s : State) (d : Nat) : (resumeMem s d).units = s.units := rfl

theorem unitSt_resumedUnits {l : List Nat} {s : State} {p : Nat} (hp : p ∈ l) (hs : (unitSt s p).state = .hold)
    (hh : (unitSt s p).held ≠ .hold) : unitSt (resumedUnits l s) p = { unitSt s p with state := (unitSt s p).held } := by
  have hmem : ((List.range 8).foldl resumeMem (resumeMarked s)).units = (resumeMarked s).units :=
    foldl_keeps State.units resumeMem_units _ _
  have hbefore : unitSt ((List.range 8).foldl resumeMem (resumeMarked s)) p = unitSt s p := unitSt_congr (hmem.trans (resumeMarked_eq s).1) p
  exact unitSt_foldl_once (P := fun x => x.state = .hold) (e := fun x => { x with state := x.held }) (fun s p => unitSt_resumeUnit_same)
    (fun s p q => unitSt_resumeUnit_ne) (fun s hx => resumeUnit_other (by rw [hx]; exact hh)) hp hbefore hs

/-! ### Temperatures (R734, R760) -/

theorem hottest_le {l : List Nat} {m x : Nat} (hl : ∀ b ∈ l, degOf b ≤ m) (hx : hottest l = some x) : x ≤ m := by
  have hfold (l : List Nat) (a : Nat) (ha : a ≤ m) (hl : ∀ b ∈ l, degOf b ≤ m) : l.foldl (fun m x => max m (degOf x)) a ≤ m := by
    induction l generalizing a with
    | nil => exact ha
    | cons b l ih =>
      rw [List.forall_mem_cons] at hl
      exact ih _ (Nat.max_le.mpr ⟨ha, hl.1⟩) hl.2
  cases l with
  | nil => cases hx
  | cons b l =>
    rw [List.forall_mem_cons] at hl
    rw [hottest, Option.some.injEq] at hx
    exact hx ▸ hfold l _ hl.1 hl.2

/-- The state with the readings of every die. -/
def withTemps (l : List (List Nat)) (s : State) : State :=
  { s with power := { s.power with temps := (List.range 11).map fun i => l.getD i [] } }

theorem allDeg_le {l : List (List Nat)} {m : Nat} (h : ∀ x ∈ l, ∀ b ∈ x, degOf b ≤ m) (s : State) :
    ((allDeg (withTemps l s)).all fun e => decide (e.2 ≤ m)) = true := by
  have hread (d x : Nat) (hd : d < 11) (hx : dieDeg (withTemps l s) d = some x) : x ≤ m := by
    have hdie : dieDeg (withTemps l s) d = hottest (l.getD d []) := by
      simp [dieDeg, withTemps, List.getD_eq_getElem?_getD, hd]
    refine hottest_le (fun b hb => ?_) (hdie ▸ hx)
    by_cases hlen : d < l.length
    · rw [List.getD_eq_getElem _ _ hlen] at hb
      exact h _ (List.getElem_mem hlen) b hb
    · rw [List.getD_eq_default _ _ (by omega)] at hb
      cases hb
  rw [List.all_eq_true]
  intro e he
  obtain ⟨d, hd, hx⟩ := List.mem_filterMap.mp he
  simp only [Option.map_eq_some_iff] at hx
  obtain ⟨x, hx, rfl⟩ := hx
  exact decide_eq_true (hread d x (List.mem_range.mp hd) hx)

theorem thermalHold_hot {s : State} {d x : Nat} {l : List Nat} (hd : d < 11) (hp : s.power.up = true) (hx : dieDeg (setSensors d l s) d = some x)
    (ht : deg 110 ≤ x) : thermalHold d l s
      = enterHold 3 (if d < 8 then event (pPwrtherm d) 5 (setSensors d l s) else setSensors d l s) := by
  rw [thermalHold, if_neg (by simp [hp]; omega)]
  simp only [hx, ht, if_true]

end Sys2Proof.Machine
end

section
/-! PROOFS. The statement on HOLD. -/

namespace Sys2Proof.Machine

/-- Settles O53: entry and resumption by the frame of their parts and one pass over the leaf units, the causes by their bits.
The order of what follows a resumption is the model's own choice (assumption log 46). -/
theorem holdBeginsAndEnds : Obligations.HoldBeginsAndEnds := by
  unfold Obligations.HoldBeginsAndEnds
  refine ⟨fun s => rfl,
    fun s v => ⟨fun hv => congrArg Host.Outcome.next (if_pos hv), fun hv => congrArg Host.Outcome.next (if_pos hv)⟩,
    fun s d x l hd hp hx ht => ⟨_, congrArg Host.Outcome.next (thermalHold_hot hd hp hx ht), ?thermal⟩,
    fun s w hh hp hw => ?test,
    fun s c _ hp hh => ?entry, fun s c hc hp hh => ?joins, fun s e he hh ht => ?clears, fun s v hh hlo hhi => ?input,
    fun s l hh hl => ?cool, fun s n hh hn => ⟨fun ht => ?long, fun ht => ?short⟩,
    fun s hh hc hp hr => ⟨resumedUnits (allHeaderPages.filter isLeaf) s, congrArg Host.Outcome.next (resumption_runs hh hc hp hr), ?resumed⟩,
    fun s hc => congrArg Host.Outcome.next (if_pos (.inr (.inl hc)))⟩
  case thermal =>
    have hpart : Quiet (if d < 8 then event (pPwrtherm d) 5 (setSensors d l s) else setSensors d l s) (setSensors d l s) := by
      split
      · exact quiet_event _ _ _
      · exact .refl _
    exact ⟨hpart.inHold, hpart.power, hpart.units, hpart.mem⟩
  case test =>
    obtain ⟨x, he, hx⟩ := holdTest_begins hh hp hw
    exact ⟨_, congrArg Host.Outcome.next he, hx, rfl, (enterHold_frame 4 hp hh).inHold⟩
  case entry =>
    have hframe := enterHold_frame c hp hh
    refine ⟨hframe.inHold, hframe.stat.trans (rd_holdMarked c s), ?_, hframe.mem.trans (holdMarked_mem c s),
      hframe.tiles.trans (holdMarked_tiles c s), hframe.felt.trans (holdMarked_felt c s), fun p hpage hl hs => ?_⟩
    · rw [hframe.power, holdMarked_enteredAt]
    · rw [enterHold_begins c hp hh, unitSt_congr (entered_units _ c s), unitSt_holdUnits (List.mem_filter.mpr ⟨hpage, hl⟩) hs]
  case joins =>
    rw [enterHold_joins c hp hh]
    exact ⟨rfl, nbit_setHoldCause_same hc true s, fun j hj hlt => nbit_setHoldCause_ne hlt hj true s⟩
  case clears =>
    have hfield (c : Nat) (hc : c < 5) (t : State) (hreg : t.regs = s.regs) : nbit (holdCauses (setHoldCause c false t)) c = false
        ∧ ∀ j, j ≠ c → j < 5 → nbit (holdCauses (setHoldCause c false t)) j = nbit (holdCauses s) j :=
      ⟨nbit_setHoldCause_same hc false t, fun j hj hlt => (nbit_setHoldCause_ne hlt hj false t).trans (congrArg (nbit · j) (holdCauses_congr hreg))⟩
    simp only [List.mem_cons, List.not_mem_nil, or_false] at he
    rcases he with rfl | rfl
    · exact ⟨_, congrArg Host.Outcome.next (clearHold_inHold 0 hh), rfl, hfield 0 (by decide) s rfl⟩
    · obtain ⟨x, hx, hle⟩ := ht rfl
      have hrun : exec .holdTestExpire s
          = .next (clearHold 4 { s with power := { s.power with hold := { s.power.hold with testUntil := none } } }) := by
        show execHoldTestExpire s = _
        rw [execHoldTestExpire, hx]
        exact if_neg (Nat.not_lt.mpr hle)
      exact ⟨_, hrun.trans (congrArg Host.Outcome.next (clearHold_inHold 4 hh)), rfl, hfield 4 (by decide) _ rfl⟩
  case input =>
    have hrun : exec (.inputClear v) s = .next (setHoldCause 2 false (setHoldCause 1 false (setVin v s))) := by
      show execInputClear v s = _
      rw [execInputClear, if_pos hlo, if_pos hhi, clearHold_inHold (s := setVin v s) 1 hh, clearHold_inHold (s := setHoldCause 1 false (setVin v s)) 2 hh]
    refine ⟨_, hrun, rfl, ?_, nbit_setHoldCause_same (by decide) false _, fun j h1 h2 hj => ?_⟩
    · rw [nbit_setHoldCause_ne (by decide) (by decide), nbit_setHoldCause_same (by decide)]
    · rw [nbit_setHoldCause_ne hj h2, nbit_setHoldCause_ne hj h1]
      exact congrArg (nbit · j) (holdCauses_congr rfl)
  case cool =>
    have hrun : exec (.thermalClear l) s = .next (setHoldCause 3 false (withTemps l s)) :=
      congrArg Host.Outcome.next ((if_pos (allDeg_le hl s)).trans (clearHold_inHold 3 hh))
    exact ⟨_, hrun, rfl, nbit_setHoldCause_same (by decide) false _,
      fun j h3 hj => (nbit_setHoldCause_ne hj h3 false _).trans (congrArg (nbit · j) (holdCauses_congr rfl))⟩
  case long =>
    subst hn
    exact ⟨_, if_pos ⟨hh, ht⟩, bitOf_event (by decide) _ _, event_mem _ _ s, event_units _ _ s⟩
  case short =>
    subst hn
    exact if_neg fun h => absurd h.2 (Nat.not_le.mpr ht)
  case resumed =>
    have hframe := holdFrame_resumedUnits (allHeaderPages.filter isLeaf) s
    obtain ⟨-, hmem, htiles, hfelt, hout⟩ := resumeMarked_eq s
    exact ⟨hframe.inHold.trans hout, (congrArg (bitOf · 0) hframe.stat).trans (resumeMarked_notIn s), hframe.mem.trans hmem,
      hframe.felt.trans hfelt, hframe.tiles.trans htiles,
      fun d hd => resumedUnits_selfRefresh _ s hd, fun p hp hl hs hne => unitSt_resumedUnits (List.mem_filter.mpr ⟨hp, hl⟩) hs hne⟩

end Sys2Proof.Machine
end

section
/-! SUPPORT. The loss of the supply and faults of the rails (16_power.md R723 to R731, R764 to R770; 17_firmware.md R800, R810): what
the NOR reads after it is programmed and erased, what the MMC's log leaves, and what a device fault leaves behind. -/

namespace Sys2Proof.Machine

/-! ### Bytes of numbers and of the NOR -/

theorem length_leBytes (n v : Nat) : (leBytes n v).length = n := by
  induction n generalizing v with
  | zero => rfl
  | succ n ih => rw [leBytes, List.length_cons, ih]

theorem leNat_lt (l : List Byte) : leNat l < 256 ^ l.length := by
  induction l with
  | nil => exact Nat.one_pos
  | cons b t ih =>
    have hb := b.isLt
    rw [leNat, List.length_cons, Nat.pow_succ]
    omega

theorem length_rdNorN (s : State) (a n : Nat) : (rdNorN s a n).length = n := by
  induction n generalizing a with
  | zero => rfl
  | succ n ih => rw [rdNorN, List.length_cons, ih]

/-- A word of the NOR is its four bytes' number. -/
theorem toNat_norWord (s : State) (a : Nat) : (BitVec.ofNat 32 (leNat (rdNorN s a 4))).toNat = leNat (rdNorN s a 4) := by
  have hlt := leNat_lt (rdNorN s a 4)
  rw [length_rdNorN] at hlt
  rw [BitVec.toNat_ofNat]
  exact Nat.mod_eq_of_lt hlt

theorem rdNor_wrNorN_out (a : Nat) (l : List Byte) (s : State) {x : Nat} (h : x < a ∨ a + l.length ≤ x) :
    rdNor (wrNorN a l s) x = rdNor s x := by
  induction l generalizing a s with
  | nil => rfl
  | cons b t ih =>
    rw [List.length_cons] at h
    rw [wrNorN, ih _ _ (by omega)]
    exact sget_sput_ne _ _ _ (by omega)

theorem rdNor_wrNorN_at (a : Nat) (l : List Byte) (s : State) {i : Nat} (hi : i < l.length) (d : Byte) :
    rdNor (wrNorN a l s) (a + i) = l.getD i d := by
  induction l generalizing a s i with
  | nil => cases hi
  | cons b t ih =>
    rw [List.length_cons] at hi
    rw [wrNorN]
    cases i with
    | zero =>
      rw [rdNor_wrNorN_out _ _ _ (by omega)]
      exact sget_sput_same _ _ _ _
    | succ j =>
      rw [show a + (j + 1) = a + 1 + j by omega, ih _ _ (by omega)]
      rfl

theorem wrNorN_slots (a : Nat) (l : List Byte) (s : State) : (wrNorN a l s).nor.slots = s.nor.slots := by rw [wrNorN_eq]

/-- An erased byte reads 0xFF, another as it did. -/
theorem rdNor_eraseNor (a n : Nat) (s : State) (x : Nat) :
    rdNor (eraseNor a n s) x = if a ≤ x ∧ x < a + n then 0xFF else rdNor s x := by
  refine (sget_filter norDefault (fun x => !(decide (a ≤ x) && decide (x < a + n))) s.nor.bytes x).trans ?_
  by_cases h : a ≤ x ∧ x < a + n
  · rw [if_pos h, if_neg (by simp [h])]
    rfl
  · rw [if_neg h, if_pos (by simpa only [Bool.not_eq_true', Bool.and_eq_false_iff, decide_eq_false_iff_not, not_and_or] using h)]
    rfl

/-! ### What captures leave of EVT_STAT -/

theorem evtGrows_wrWords (p o : Nat) (l : List Word) (s : State) (ho : 0x10 < o) (hl : o + 4 * l.length ≤ 0x1000) :
    EvtGrows (wrWords p o l s) s :=
  .of_eq fun _ => rd_wrWords_out p o l s hl (by decide) (.inl ho)

theorem evtGrows_capture1 (p : Nat) (e : ErrRec) (s : State) : EvtGrows (capture1 p e s) s := by
  rw [capture1]
  split
  · exact evtGrows_wr _ _ _ (by decide) (by decide)
  · exact evtGrows_wrWords _ _ _ _ (by decide) (by simp [errWords])

theorem evtGrows_satInc (p : Nat) {o : Nat} (n : Nat) (s : State) (ho : o < 0x1000) (h : o ≠ 0x10) : EvtGrows (satInc p o n s) s :=
  evtGrows_wr p _ s ho h

theorem evtGrows_latchPage (ts seq src origin : Nat) (s : State) (p : Nat) : EvtGrows (latchPage ts seq src origin s p) s := by
  cases hp : pagePresent s p
  case false => exact .of_regs (congrArg State.regs (by rw [latchPage, if_pos (by simp [hp])]))
  case true =>
    obtain ⟨l, hl, e | e⟩ := latchPage_eq ts seq src origin hp
    · rw [e]
      exact ((evtClosed_evtGrows.raiseEvt p _ _).trans (evtGrows_orEvt p _ _)).trans (evtGrows_wrWords p _ l s (by decide) (by omega))
    · rw [e]
      exact evtGrows_wrWords p _ l s (by decide) (by omega)

theorem evtGrows_latchAll (seq src origin : Nat) (s : State) : EvtGrows (latchAll seq src origin s) s := by
  have h64 (v : Nat) (t : State) : EvtGrows (wr64 pSnap 0x120 v t) t :=
    .of_eq fun _ => rd_wr64_off v t (by decide) (by decide) (by decide) (by decide)
  exact (h64 _ _).trans ((evtGrows_wr _ _ _ (by decide) (by decide)).trans (.foldl (evtGrows_latchPage s.now seq src origin) _ s))

theorem EvtGrows.ite (c : Prop) [Decidable c] {a b s : State} (ha : EvtGrows a s) (hb : EvtGrows b s) : EvtGrows (if c then a else b) s := by
  split
  · exact ha
  · exact hb

theorem evtGrows_emit (o : Out) (s : State) : EvtGrows (emit o s) s := .of_regs rfl
theorem evtGrows_seen (x : SnapSt) (s : State) : EvtGrows { s with snap := x } s := .of_regs rfl
theorem evtGrows_noteJournal (p : Nat) (w : List Word) (s : State) : EvtGrows (noteJournal p w s) s := .of_regs rfl

theorem evtGrows_snapTrigger (src : Nat) (s : State) : EvtGrows (snapTrigger src s) s := by
  have hlatch (n : Nat) : EvtGrows (latchAll n src (nodeId s) (wr pSnap 0x110 (BitVec.ofNat 32 n) s)) s :=
    (evtGrows_latchAll _ _ _ _).trans (evtGrows_wr pSnap _ s (by decide) (by decide))
  refine .ite _ (evtGrows_satInc _ _ _ (by decide) (by decide)) (.ite _ ?_ (hlatch _))
  exact (EvtGrows.foldl (fun t _ => evtGrows_emit _ t) _ _).trans ((evtGrows_seen _ _).trans (hlatch _))

/-- A capture clears no bit of EVT_STAT (R84 to R87). -/
theorem evtGrows_captureErr (p : Nat) (e : ErrRec) (s : State) : EvtGrows (captureErr p e s) s := by
  unfold captureErr
  extract_lets new s0 s1 s2 s3 k
  have h0 : EvtGrows s0 s := evtGrows_capture1 p e s
  have h1 : EvtGrows s1 s := .ite _ ((evtGrows_noteJournal _ _ s0).trans h0) h0
  have h2 : EvtGrows s2 s := .ite _ ((evtGrows_event p 31 s1).trans h1) h1
  have h3 : EvtGrows s3 s := .ite _ ((EvtGrows.foldl (fun t g => evtGrows_capture1 g e t) (groupsAbove 5 p) s2).trans h2) h2
  exact .ite _ ((evtGrows_snapTrigger 4 s3).trans h3) h3

/-! ### The MMC's log (R836, R841) -/

/-- The MMC's log is all that an entry changes. -/
theorem mmcLogAdd_log (e : MmcEvent) (s : State) : ∃ l, mmcLogAdd e s = { s with mmc := { s.mmc with log := l } } := by
  unfold mmcLogAdd
  split
  · exact ⟨s.mmc.log, rfl⟩
  · exact ⟨_, rfl⟩

theorem mmcLogAdd_eq (e : MmcEvent) (s : State) : mmcLogAdd e s = { s with mmc := (mmcLogAdd e s).mmc } := by
  obtain ⟨l, h⟩ := mmcLogAdd_log e s
  rw [h]

@[simp] theorem mmcLogAdd_psStat (e : MmcEvent) (s : State) : (mmcLogAdd e s).mmc.psStat = s.mmc.psStat := by
  obtain ⟨l, h⟩ := mmcLogAdd_log e s
  rw [h]

@[simp] theorem mmcLogAdd_pending (e : MmcEvent) (s : State) : (mmcLogAdd e s).pending = s.pending := by rw [mmcLogAdd_eq]
@[simp] theorem mmcLogAdd_alertN (e : MmcEvent) (s : State) : (mmcLogAdd e s).alertN = s.alertN := by rw [mmcLogAdd_eq]
@[simp] theorem mmcLogAdd_nor (e : MmcEvent) (s : State) : (mmcLogAdd e s).nor = s.nor := by rw [mmcLogAdd_eq]
@[simp] theorem mmcLogAdd_power (e : MmcEvent) (s : State) : (mmcLogAdd e s).power = s.power := by rw [mmcLogAdd_eq]

theorem bitOf_oneBit {n : Nat} (hn : n < 32) : bitOf (oneBit n) n = true := by
  rw [bitOf_eq_getLsbD, oneBit, BitVec.getLsbD_ofNat, Nat.testBit_two_pow_self, decide_eq_true hn, Bool.and_true]

theorem bitOf_or (a b : Word) (n : Nat) : bitOf (a ||| b) n = (bitOf a n || bitOf b n) := by
  simp only [bitOf_eq_getLsbD, BitVec.getLsbD_or]

/-! ### The journal (R764 to R768, R800) -/

theorem length_padTo (n : Nat) (l : List Byte) : (padTo n l).length = n := by
  rw [padTo, List.length_append, List.length_take, List.length_replicate]
  omega

theorem length_freeBytes (s : State) (n : Nat) : (freeBytes s n).length = n := by
  rw [freeBytes, List.length_map, List.length_range]

theorem length_powerRecord (c : Nat) (m : PMeas) (s : State) : (powerRecord c m s).length = 128 := by
  simp only [powerRecord, List.length_append, length_leBytes, List.length_replicate]

theorem length_journalRecord (c : Nat) (m : PMeas) (s : State) : (journalRecord c m s).length = 3072 := by
  simp only [journalRecord, List.length_append, length_leBytes, length_freeBytes, length_padTo, length_powerRecord,
    List.length_replicate]

/-- The NOR with a journal slot's record header set. -/
def setSlot (i : Nat) (v : JSlot) (s : State) : State := { s with nor := { s.nor with slots := s.nor.slots.set i v } }

/-- The NOR takes the bytes of a record and the slot its header. -/
def journalled (i : Nat) (v : JSlot) (l : List Byte) (s : State) : State := setSlot i v (wrNorN (0x20000 + 0x1000 * i) l (tickFree 236 s))

/-- The slot header of a new record (R800). -/
def newSlot (s : State) : JSlot := { valid := true, seq := nextJournalSeq s, boot := s.nor.boots, erased := false }

theorem writeJournal_of_armed (c : Nat) (m : PMeas) {s : State} (h : armed s = true) :
    writeJournal c m s = journalled (freeSlot s) (newSlot s) (journalRecord c m s) s := by
  rw [writeJournal, if_neg (by simp [h])]
  generalize journalRecord c m s = l
  rfl

theorem writeJournal_of_unarmed (c : Nat) (m : PMeas) {s : State} (h : armed s = false) : writeJournal c m s = s := by
  rw [writeJournal, if_pos (by simp [h])]

theorem journalled_slots (i : Nat) (v : JSlot) (l : List Byte) (s : State) : (journalled i v l s).nor.slots = s.nor.slots.set i v := by
  rw [journalled, setSlot, wrNorN_slots, tickFree_nor]

theorem rdNor_journalled (i : Nat) (v : JSlot) (l : List Byte) (s : State) {j : Nat} (hj : j < l.length) :
    rdNor (journalled i v l s) (0x20000 + 0x1000 * i + j) = l.getD j 0 :=
  rdNor_wrNorN_at _ l _ hj 0

theorem journalled_eq (i : Nat) (v : JSlot) (l : List Byte) (s : State) :
    journalled i v l s = { s with nor := (journalled i v l s).nor, freeCtr := s.freeCtr + 236 } := by
  rw [journalled, wrNorN_eq]
  rfl

/-- The journal engine changes the NOR and draws free bytes. -/
theorem writeJournal_eq (c : Nat) (m : PMeas) (s : State) :
    writeJournal c m s = { s with nor := (writeJournal c m s).nor, freeCtr := (writeJournal c m s).freeCtr } := by
  cases h : armed s
  · rw [writeJournal_of_unarmed c m h]
  · rw [writeJournal_of_armed c m h]
    generalize journalRecord c m s = l
    rw [journalled_eq]

/-- An armed slot takes the record. -/
theorem writeJournal_slots (c : Nat) (m : PMeas) {s : State} (h : armed s = true) :
    (writeJournal c m s).nor.slots = s.nor.slots.set (freeSlot s) (newSlot s) := by
  rw [writeJournal_of_armed c m h, journalled_slots]

/-- The bytes of the record stand in the slot. -/
theorem rdNor_writeJournal (c : Nat) (m : PMeas) {s : State} (h : armed s = true) {i : Nat} (hi : i < 3072) :
    rdNor (writeJournal c m s) (0x20000 + 0x1000 * freeSlot s + i) = (journalRecord c m s).getD i 0 := by
  rw [writeJournal_of_armed c m h]
  exact rdNor_journalled _ _ _ _ (by rw [length_journalRecord]; exact hi)

theorem losePower_up (c : Nat) (e : EFuse) (m : PMeas) {s : State} (h : s.power.up = true) :
    losePower c e m s = powerOff e (mmcLogAdd .power (writeJournal c m s)) := by
  rw [losePower, if_neg (by simp [h])]

theorem losePower_nor (c : Nat) (e : EFuse) (m : PMeas) {s : State} (h : s.power.up = true) :
    (losePower c e m s).nor = { (writeJournal c m s).nor with erasing := none } := by
  rw [losePower_up c e m h]
  exact congrArg (fun n : NorSt => { n with erasing := none }) (mmcLogAdd_nor _ _)

theorem losePower_pending (c : Nat) (e : EFuse) (m : PMeas) (s : State) : (losePower c e m s).pending = s.pending := by
  unfold losePower
  split
  · rfl
  · rw [powerOff, mmcLogAdd_pending, writeJournal_eq]

theorem losePower_alertN (c : Nat) (e : EFuse) (m : PMeas) (s : State) : (losePower c e m s).alertN = s.alertN := by
  unfold losePower
  split
  · rfl
  · rw [powerOff, mmcLogAdd_alertN, writeJournal_eq]

theorem losePower_psStat (c : Nat) (e : EFuse) (m : PMeas) (s : State) : (losePower c e m s).mmc.psStat = s.mmc.psStat := by
  unfold losePower
  split
  · rfl
  · rw [powerOff, mmcLogAdd_psStat, writeJournal_eq]

theorem losePower_off (c : Nat) (e : EFuse) (m : PMeas) (s : State) :
    (losePower c e m s).power.up = false ∧ (losePower c e m s).power.efuse = e := by
  unfold losePower
  split
  next h => exact ⟨by simpa using h, rfl⟩
  next => exact ⟨rfl, rfl⟩

/-- What a loss of the supply takes away and what it leaves (R765, R769, R770). -/
theorem losePower_clears (c : Nat) (e : EFuse) (m : PMeas) {s : State} (h : s.power.up = true) :
    (losePower c e m s).mem = [] ∧ (losePower c e m s).regs = [] ∧ (losePower c e m s).units = [] ∧ (losePower c e m s).inHold = false := by
  rw [losePower_up c e m h]
  exact ⟨rfl, rfl, rfl, rfl⟩

/-! ### The eFuse (R723 to R726) -/

/-- An overload latches the eFuse and asserts ALERT_N; the supply is gone. -/
theorem efuseLatch_latches (m : PMeas) {s : State} (h : s.power.efuse ≠ .latched) :
    (efuseLatch m s).power.efuse = .latched ∧ (efuseLatch m s).power.up = false ∧ (efuseLatch m s).alertN = true
      ∧ bitOf (efuseLatch m s).mmc.psStat 0 = true ∧ bitOf (efuseLatch m s).mmc.psStat 5 = true ∧ (efuseLatch m s).pending = s.pending := by
  rw [efuseLatch, if_neg h]
  obtain ⟨hup, hfuse⟩ := losePower_off 0x40 .latched m (mmcLogAdd .efuse (psStatOr 0x21 { s with alertN := true }))
  refine ⟨hfuse, hup, ?_, ?_, ?_, ?_⟩
  · rw [losePower_alertN, mmcLogAdd_alertN]
    rfl
  · rw [losePower_psStat, mmcLogAdd_psStat]
    exact (bitOf_or _ 0x21 0).trans (Bool.or_eq_true_iff.mpr (.inr rfl))
  · rw [losePower_psStat, mmcLogAdd_psStat]
    exact (bitOf_or _ 0x21 5).trans (Bool.or_eq_true_iff.mpr (.inr rfl))
  · rw [losePower_pending, mmcLogAdd_pending]
    rfl

/-! ### Rails (R728, R731) -/

theorem bitOf_railStat (d : Nat) {n : Nat} (s : State) (hn : n < 32) : bitOf (rd (railStat d n s) (pPwrtherm d) 0x118) n = true := by
  rw [railStat, rd_wr_same, bitOf_or, bitOf_oneBit hn, Bool.or_true]

theorem pPwrtherm_ne_pIntr {d : Nat} (h : d < 8) : pPwrtherm d ≠ pIntr := by
  have hpages : ∀ d < 8, pPwrtherm d ≠ pIntr := by decide
  exact hpages d h

theorem bitOf_railEvents {d n : Nat} (s : State) (hd : d < 8) (hn : n < 32) :
    bitOf (rd (railEvents d n s) (pPwrtherm d) 0x118) n = true := by
  rw [railEvents, rd_event _ _ _ (by decide) (by decide) (pPwrtherm_ne_pIntr hd),
    rd_event _ _ _ (by decide) (by decide) (pPwrtherm_ne_pIntr hd), bitOf_railStat d s hn]

theorem railEvents_mem (d n : Nat) (s : State) : (railEvents d n s).mem = s.mem := by
  rw [railEvents, event_mem, event_mem, railStat, wr_mem]

theorem getD_set_false (l : List Bool) (i : Nat) : (l.set i false).getD i false = false := by
  rw [List.getD_eq_getElem?_getD, List.getElem?_set_self']
  cases l[i]? <;> rfl

/-- The state with PS_STAT bit 6 set. -/
def senseFlag (s : State) : State := { s with mmc := { s.mmc with psStat := setFld s.mmc.psStat 6 6 1 } }

theorem senseFlag_mem (s : State) : (senseFlag s).mem = s.mem := rfl

theorem rd_senseFlag (s : State) (q o : Nat) : rd (senseFlag s) q o = rd s q o := rfl

theorem bitOf_senseFlag (s : State) : bitOf (senseFlag s).mmc.psStat 6 = true := bitOf_setFld_same _ true (by decide)

theorem senseOpen_eq {d : Nat} (r : Nat) {s : State} (hup : s.power.up = true) (hd : d < 8) :
    senseOpen d r s = event pBlocker 8 (senseFlag (event (pPwrtherm d) 2 (railStat d (min r 2) s))) := by
  rw [senseOpen, if_neg (by simp [hup]), if_pos hd]
  rfl

/-- A regulator on local sense: the rail's bit, both events and PS_STAT bit 6. -/
theorem senseOpen_reports {d : Nat} (r : Nat) {s : State} (hup : s.power.up = true) (hd : d < 8) :
    bitOf (rd (senseOpen d r s) (pPwrtherm d) 0x118) (min r 2) = true ∧ bitOf (rd (senseOpen d r s) (pPwrtherm d) 0x10) 2 = true
      ∧ bitOf (rd (senseOpen d r s) pBlocker 0x10) 8 = true ∧ bitOf (senseOpen d r s).mmc.psStat 6 = true
      ∧ (senseOpen d r s).mem = s.mem := by
  rw [senseOpen_eq r hup hd]
  refine ⟨?_, (evtGrows_event _ _ _).bit ?_, bitOf_event (by decide) _ _, ?_, ?_⟩
  · rw [rd_event _ _ _ (by decide) (by decide) (pPwrtherm_ne_pIntr hd), rd_senseFlag,
      rd_event _ _ _ (by decide) (by decide) (pPwrtherm_ne_pIntr hd), bitOf_railStat d s (by omega)]
  · rw [rd_senseFlag]
    exact bitOf_event (by decide) _ _
  · rw [event_mmc, bitOf_senseFlag]
  · rw [event_mem, senseFlag_mem, event_mem, railStat, wr_mem]

theorem rd_hatTrigger_devFault (code : Nat) (s : State) : rd (hatTrigger code s) pWatchdog 0x108 = rd s pWatchdog 0x108 := by
  unfold hatTrigger
  split
  · exact rd_wr_off s _ (by decide) (by decide) (by decide)
  · exact rd_congr rfl _ _

/-- The device is in a device fault afterwards (R695). -/
theorem devFault_deviceFault (s : State) : devFault (deviceFault s) = true := by
  unfold deviceFault
  split
  next h => exact h
  next =>
    rw [devFault, rd_congr (dispSync_regs _), rd_hatTrigger_devFault]
    have h1 : rd (event pWatchdog 7 (wr pWatchdog 0x108 (rd s pWatchdog 0x108 ||| 0x400) s)) pWatchdog 0x108
        = rd s pWatchdog 0x108 ||| 0x400 := by
      rw [rd_event _ _ _ (by decide) (by decide) (by decide), rd_wr_same]
    refine (congrArg (bitOf · 10) ((rd_congr rfl _ _).trans h1)).trans ?_
    rw [bitOf_or]
    exact Bool.or_eq_true_iff.mpr (.inr rfl)

theorem devFault_isolateDie (d dt : Nat) (s : State) : devFault (isolateDie d dt s) = true := devFault_deviceFault _

/-! ### Erasing a slot and NOR_DATA (R800, R810) -/

/-- Beside its count an erase changes the NOR's bytes alone. -/
theorem norErase_nor (a n : Nat) (s : State) : (norErase a n s).nor = (eraseNor a n s).nor := by
  rw [norErase, addProg_nor]

/-- An erase that ended well frees and arms the slot. -/
theorem journalEraseDone_erased {i : Nat} {s : State} (h : s.nor.erasing = some i) :
    (journalEraseDone true s).nor.erasing = none ∧ (journalEraseDone true s).nor.slots = s.nor.slots.set i {}
      ∧ bitOf (rd (journalEraseDone true s) pJournal 0x100) 3 = true ∧ bitOf (rd (journalEraseDone true s) pJournal 0x10) 0 = true
      ∧ ∀ a, rdNor (journalEraseDone true s) a
          = if 0x20000 + 0x1000 * i ≤ a ∧ a < 0x20000 + 0x1000 * i + 0x1000 then 0xFF else rdNor s a := by
  simp only [journalEraseDone, h, Bool.not_true, Bool.false_eq_true, if_false]
  refine ⟨?_, ?_, ?_, bitOf_event (by decide) _ _, fun a => ?_⟩
  · rw [event_nor, wr_nor, norErase_nor]
    rfl
  · rw [event_nor, wr_nor, norErase_nor]
    rfl
  · rw [rd_event _ _ _ (by decide) (by decide) (by decide), rd_wr_same, bitOf_or]
    exact Bool.or_eq_true_iff.mpr (.inr rfl)
  · rw [rdNor, event_nor, wr_nor, norErase_nor]
    exact rdNor_eraseNor (0x20000 + 0x1000 * i) 0x1000 s a

/-- An erase that failed leaves the slot as it was, and the failure is reported. -/
theorem journalEraseDone_failed {i : Nat} {s : State} (h : s.nor.erasing = some i) :
    (journalEraseDone false s).nor = { s.nor with erasing := none } ∧ bitOf (rd (journalEraseDone false s) pJournal 0x10) 2 = true
      ∧ (journalEraseDone false s).mem = s.mem := by
  simp only [journalEraseDone, h, Bool.not_false, if_true]
  refine ⟨?_, (evtGrows_captureErr _ _ _).bit (bitOf_event (by decide) _ _), ?_⟩
  · rw [captureErr_nor, event_nor, tickFree_nor]
  · rw [captureErr_mem, event_mem, tickFree_mem]

theorem norRead_eq (s : State) (h : s.nor.erasing = none) : norRead s =
    if bitOf (rd s pJournal 0x110) 31 then
      wr pJournal 0x110 (setFld (rd s pJournal 0x110) 25 2 (fld (rd s pJournal 0x110) 25 2 + 1)) (addProg pJournal 2 1 s)
    else addProg pJournal 2 1 s := by
  rw [norRead, h]
  rfl

/-- The address advances with bit 31 and stays without it. -/
theorem rd_norRead_address (s : State) (h : s.nor.erasing = none) : rd (norRead s) pJournal 0x110 =
    if bitOf (rd s pJournal 0x110) 31 then setFld (rd s pJournal 0x110) 25 2 (fld (rd s pJournal 0x110) 25 2 + 1) else rd s pJournal 0x110 := by
  rw [norRead_eq s h]
  split
  · rw [rd_wr_same]
  · exact rd_addProg_off _ _ s (by decide) (by decide) (by decide)

/-- Stored registers alone differ. -/
def RegsOnly (t s : State) : Prop := ∃ r, t = { s with regs := r }

theorem RegsOnly.refl (s : State) : RegsOnly s s := ⟨s.regs, rfl⟩

theorem RegsOnly.trans {t u s : State} (h : RegsOnly t u) (k : RegsOnly u s) : RegsOnly t s := by
  obtain ⟨r, rfl⟩ := h
  obtain ⟨q, rfl⟩ := k
  exact ⟨r, rfl⟩

theorem RegsOnly.eq {t s : State} (h : RegsOnly t s) : t = { s with regs := t.regs } := by
  obtain ⟨r, rfl⟩ := h
  rfl

theorem RegsOnly.foldl {α : Type} {f : State → α → State} (hf : ∀ t x, RegsOnly (f t x) t) (l : List α) (s : State) : RegsOnly (l.foldl f s) s := by
  induction l generalizing s with
  | nil => exact .refl s
  | cons x l ih => exact (ih _).trans (hf s x)

theorem regsOnly_wr (p o : Nat) (v : Word) (s : State) : RegsOnly (wr p o v s) s := ⟨_, rfl⟩

theorem regsOnly_add64 (p o n : Nat) (s : State) : RegsOnly (add64 p o n s) s := (regsOnly_wr _ _ _ _).trans (regsOnly_wr _ _ _ s)

theorem regsOnly_addProg (p i n : Nat) (s : State) : RegsOnly (addProg p i n s) s := by
  have h1 := regsOnly_add64 p (0x40 + 8 * i) n s
  unfold addProg
  split
  · exact .refl s
  · dsimp only
    split
    · exact (RegsOnly.foldl (fun t g => regsOnly_add64 g _ n t) _ _).trans h1
    · exact h1

/-- A read of NOR_DATA counts and moves its address: registers alone. -/
theorem regsOnly_norRead (s : State) (h : s.nor.erasing = none) : RegsOnly (norRead s) s := by
  rw [norRead_eq s h]
  split
  · exact (regsOnly_wr _ _ _ _).trans (regsOnly_addProg _ _ _ s)
  · exact regsOnly_addProg _ _ _ s

end Sys2Proof.Machine
end

section
/-! PROOFS. The statement on the loss of the supply, the journal and the rails. -/

namespace Sys2Proof.Machine

/-- Settles O54: each trigger goes through the one loss of the supply, whose record the armed slot takes; the rails' faults and the
NOR's commands by what each leaves in its own page. That FAST_TRIP latches as the overload timer does is the model's own reading
(assumption log 61). -/
theorem powerLossJournalAndRails : Obligations.PowerLossJournalAndRails := by
  unfold Obligations.PowerLossJournalAndRails
  refine ⟨fun s m => ⟨fun hup hvin => ?journal, fun hvin hon => ?overvoltage, fun d l x hd hup hx ht => ?trip⟩, fun s m i hi hne => ?latch,
    fun s c e m hup => ?lost, fun s hl => ⟨fun hr => ?retry, fun hr => ?spent, ?clear⟩, fun s => ?polarity, fun s d r hup hd => ?sense,
    fun s d pkg hup hd => ⟨fun hpkg => ?package, ?stack, ?core, ?vdiff⟩, fun s d hup hd hdead => ?site,
    fun s i hi => ⟨?erased, ?failed⟩, fun s req hreq => ⟨fun he => ?norRead, fun he => ?norBusy⟩⟩
  case journal => exact congrArg Host.Outcome.next (if_pos ⟨hup, hvin⟩)
  case overvoltage =>
    refine ⟨mmcLogAdd .efuse (psStatOr 0x10 (setVin m.vin s)), congrArg Host.Outcome.next (if_pos ⟨hvin, hon⟩), ?_, ?_⟩
    · rw [mmcLogAdd_eq]
      rfl
    · rw [mmcLogAdd_psStat]
      exact (bitOf_or _ 0x10 4).trans (Bool.or_eq_true_iff.mpr (.inr rfl))
  case trip =>
    refine ⟨mmcLogAdd .efuse (setSensors d l s), ?_, mmcLogAdd_eq _ _⟩
    show execThermalTrip d l m s = _
    rw [execThermalTrip, if_neg (by simp [hup]; omega), hx]
    exact if_pos ht
  case latch =>
    refine ⟨efuseLatch m s, ?_, efuseLatch_latches m hne⟩
    rcases hi with rfl | ⟨rfl, hpeak⟩
    · rfl
    · exact congrArg Host.Outcome.next (if_pos hpeak)
  case lost =>
    obtain ⟨hdown, hfuse⟩ := losePower_off c e m s
    obtain ⟨hmem, hregs, hunits, hhold⟩ := losePower_clears c e m hup
    refine ⟨hdown, hfuse, hmem, hregs, hunits, losePower_pending c e m s, hhold, length_journalRecord c m s, fun ha => ⟨?_, fun i hi => ?_⟩,
      fun ha => ?_⟩
    · rw [losePower_nor c e m hup]
      exact writeJournal_slots c m ha
    · rw [rdNor, losePower_nor c e m hup]
      exact rdNor_writeJournal c m ha hi
    · rw [losePower_nor c e m hup, writeJournal_of_unarmed c m ha]
  case retry => exact if_pos ⟨hl, hr⟩
  case spent => exact if_neg fun h => absurd h.2 (by omega)
  case clear => exact congrArg Host.Outcome.next (if_pos hl)
  case polarity =>
    refine ⟨_, rfl, ?_, mmcLogAdd_psStat _ _⟩
    rw [mmcLogAdd_eq]
    rfl
  case sense => exact ⟨_, rfl, senseOpen_reports r hup hd⟩
  case package =>
    refine ⟨setMemCtl d { memCtl s d with present := (memCtl s d).present.set pkg false } (railEvents d 3 s), ?_, ?_, ?_, ?_⟩
    · refine congrArg Host.Outcome.next ?_
      rw [railShort, if_neg (by simp [hup])]
      exact if_neg (by omega)
    · rw [memCtl_setMemCtl_same]
      exact getD_set_false _ _
    · rw [rd_congr (setMemCtl_regs ..), bitOf_railEvents s hd (by decide)]
    · rw [setMemCtl_mem, railEvents_mem]
  case stack =>
    refine ⟨setMemCtl d { memCtl s d with nearShort := true } (railEvents d 4 s), ?_, ?_, ?_, ?_⟩
    · refine congrArg Host.Outcome.next ?_
      rw [railShort, if_neg (by simp [hup])]
      exact if_neg (by omega)
    · rw [memCtl_setMemCtl_same]
    · rw [rd_congr (setMemCtl_regs ..), bitOf_railEvents s hd (by decide)]
    · rw [setMemCtl_mem, railEvents_mem]
  case core =>
    have hrun : railShort d .core s = isolateDie d 0x01 (railStat d 5 s) := by
      rw [railShort, if_neg (by simp [hup])]
      exact if_neg (by omega)
    exact ⟨_, congrArg Host.Outcome.next hrun, devFault_isolateDie _ _ _⟩
  case vdiff =>
    have hrun : vdiff d s = isolateDie d 0x02 (railStat d 6 s) := if_neg (by simp [hup]; omega)
    exact ⟨_, congrArg Host.Outcome.next hrun, devFault_isolateDie _ _ _⟩
  case site =>
    have hrun : railShort d .site s = setUState (pageOf d 1 0) .faulted false s := by
      rw [railShort, if_neg (by simp [hup])]
      refine (if_pos hd).trans (if_pos ?_)
      rw [setUState_felt]
      exact hdead
    refine ⟨_, congrArg Host.Outcome.next hrun, ?_, setUState_mem _ _ _ _⟩
    rw [unitSt_setUState]
  case erased =>
    obtain ⟨herasing, hslots, harmed, hevent, hnor⟩ := journalEraseDone_erased hi
    refine ⟨_, rfl, herasing, hslots, harmed, hevent, fun a h1 h2 => ?_, fun a ha => ?_⟩
    · rw [hnor, if_pos (by omega)]
    · rw [hnor, if_neg (by omega)]
  case failed => exact ⟨_, rfl, journalEraseDone_failed hi⟩
  case norRead =>
    refine ⟨norRead s, ?_, (regsOnly_norRead s he).eq, fun hb => ?_, fun hb => ?_⟩
    · have hword : (norData s).toNat = leNat (rdNorN s (4 * fld (rd s pJournal 0x110) 25 2) 4) := by
        rw [norData, he]
        exact toNat_norWord s _
      rw [← hword]
      refine congrArg Host.Outcome.next ?_
      rw [readOut, read32_norData hreq]
    · rw [rd_norRead_address s he, if_pos hb, fld_setFld_same _ _ (by decide) (by decide)]
      rfl
    · rw [rd_norRead_address s he, if_neg (by simp [hb])]
  case norBusy =>
    have hsome : s.nor.erasing.isSome = true := Option.isSome_iff_ne_none.mpr he
    refine ⟨event pJournal 1 s, ?_, bitOf_event (by decide) _ _, event_nor _ _ _⟩
    refine congrArg Host.Outcome.next ?_
    rw [readOut, read32_norData hreq, norData, if_pos hsome, norRead, if_pos hsome]
    rfl

end Sys2Proof.Machine
end

section
/-! SUPPORT. SPDM and IDE over the DOE mailbox (17_firmware.md R805, R806; 18_interfaces.md R823 to R825): an object that is answered, and
the list of sessions. -/

namespace Sys2Proof.Machine

/-! ### One object answered (R825, R851) -/

/-- The hub's answer to a request it serves. -/
theorem spdmRequest_up (c : Nat) (ok : Bool) (l : List Byte) {s : State} (h : spdmUp s = true) :
    spdmRequest c ok l s = doeAnswer c ok (if ok then l else []) s := if_neg (by simp [h])

/-- Outside the phases of R805 nothing is served. -/
theorem spdmRequest_down (c : Nat) (ok : Bool) (l : List Byte) {s : State} (h : spdmUp s = false) : spdmRequest c ok l s = s :=
  if_pos (by simp [h])

theorem next_spdmRequest_down (c : Nat) (ok : Bool) (l : List Byte) {s : State} (h : spdmUp s = false) :
    (Host.Outcome.next (spdmRequest c ok l s) : Res) = .next s := congrArg Host.Outcome.next (spdmRequest_down c ok l h)

/-- What a request does when it is granted is not done outside those phases. -/
theorem ite_unserved {ok : Bool} {s : State} (h : spdmUp s = false) (a b : State) : (if ok = true ∧ spdmUp s = true then a else b) = b :=
  if_neg fun hc => by simp [h] at hc

theorem granted_down {ok ok' : Bool} {t : State} {c : Nat} {l : List Byte} {s : State} (h : spdmUp s = false) :
    (Host.Outcome.next (if ok = true ∧ spdmUp s = true then t else spdmRequest c ok' l s) : Res) = .next s :=
  congrArg Host.Outcome.next ((ite_unserved h _ _).trans (spdmRequest_down _ _ _ h))

theorem doeAnswer_out (c : Nat) (ok : Bool) (l : List Byte) (s : State) : (doeAnswer c ok l s).out = .spdm c ok l :: s.out := rfl

theorem doeAnswer_count (c : Nat) (ok : Bool) (l : List Byte) (s : State) : rd (doeAnswer c ok l s) pDoe 0x104 = rd s pDoe 0x104 + 1 := by
  rw [doeAnswer, rd_emit, rd_inc32_same]
  rfl

theorem rd_doeAnswer_off (c : Nat) (ok : Bool) (l : List Byte) (s : State) {q x : Nat} (hx : x < 0x1000) (h : x ≠ 0x104) :
    rd (doeAnswer c ok l s) q x = rd s q x := by
  rw [doeAnswer, rd_emit]
  exact rd_wr_off s _ (by decide) hx h

/-- Only the supply and BOOT_STAT decide whether the hub answers. -/
theorem spdmUp_of {t s : State} (hp : t.power = s.power) (hb : rd t pBoot 0x100 = rd s pBoot 0x100) : spdmUp t = spdmUp s := by
  rw [spdmUp, spdmUp, phase, phase, hp, hb]

/-! ### The sessions -/

theorem spdmUp_setSessions (l : List SpdmSession) (s : State) : spdmUp (setSessions l s) = spdmUp s :=
  spdmUp_of rfl (rd_wr_page { s with spdm := { s.spdm with sessions := l } } _ (by decide) (by decide) (by decide))

theorem spdmUp_onSession (id : Nat) (f : SpdmSession → SpdmSession) (s : State) : spdmUp (onSession id f s) = spdmUp s := spdmUp_of rfl rfl

/-- DOE_STAT shows the number of sessions. -/
theorem fld_setSessions {l : List SpdmSession} (h : l.length < 8) (s : State) : fld (rd (setSessions l s) pDoe 0x100) 2 0 = l.length := by
  rw [setSessions, rd_wr_same, fld_setFld_same _ _ (by decide) (by decide)]
  exact Nat.mod_eq_of_lt h

theorem find_map_session (l : List SpdmSession) (id : Nat) {f : SpdmSession → SpdmSession} (hf : ∀ x, (f x).id = x.id) :
    (l.map fun x => if x.id = id then f x else x).find? (fun x => x.id == id) = (l.find? fun x => x.id == id).map f := by
  induction l with
  | nil => rfl
  | cons a l ih =>
    by_cases h : a.id = id
    · simp [h, hf]
    · simpa [h] using ih

/-- A change of a session's record that keeps its number is what its number finds. -/
theorem sessionOf_onSession {id : Nat} {f : SpdmSession → SpdmSession} (hf : ∀ x, (f x).id = x.id) (s : State) :
    sessionOf (onSession id f s) id = (sessionOf s id).map f := find_map_session s.spdm.sessions id hf

theorem find_filter_session (l : List SpdmSession) (id j : Nat) :
    (l.filter fun x => x.id != id).find? (fun x => x.id == j) = if j = id then none else l.find? fun x => x.id == j := by
  induction l with
  | nil => exact (ite_self _).symm
  | cons a l ih =>
    by_cases h : a.id = id
    · rw [List.filter_cons_of_neg (by simp [h]), ih]
      by_cases hj : j = id
      · rw [if_pos hj, if_pos hj]
      · rw [if_neg hj, if_neg hj, List.find?_cons_of_neg (by simp [h, Ne.symm hj])]
    · rw [List.filter_cons_of_pos (by simpa using h)]
      by_cases ha : a.id = j
      · rw [List.find?_cons_of_pos (by simpa using ha), List.find?_cons_of_pos (by simpa using ha), if_neg (ha ▸ h)]
      · rw [List.find?_cons_of_neg (by simpa using ha), List.find?_cons_of_neg (by simpa using ha), ih]

/-- A session closed is not found; the others are found as before. -/
theorem sessionOf_closed (id j : Nat) (s : State) :
    sessionOf (setSessions (s.spdm.sessions.filter fun x => x.id != id) s) j = if j = id then none else sessionOf s j :=
  find_filter_session s.spdm.sessions id j

theorem sessionUp_of {s : State} {id : Nat} {x : SpdmSession} (h : sessionOf s id = some x) : sessionUp s id = x.established := by
  rw [sessionUp, h]

/-! ### Requests that begin, complete, rekey and close a session (R805) -/

section
variable {s : State} {id : Nat} (hup : spdmUp s = true)
include hup

theorem execKeyExchange_opens (hstage : s.spdm.stage = 3) (hnew : sessionOf s id = none) (hroom : s.spdm.sessions.length < 4) :
    execKeyExchange id 0 s = .next (doeAnswer 0xE4 true (leBytes 4 id) (setSessions (s.spdm.sessions ++ [{ id := id }]) s)) := by
  simp only [execKeyExchange, hstage, hnew, hroom, hup, decide_true, Bool.and_self, Option.isNone_none, and_self, if_true,
    spdmRequest_up _ _ _ ((spdmUp_setSessions _ s).trans hup)]

theorem execKeyExchange_full (hfull : 4 ≤ s.spdm.sessions.length) : execKeyExchange id 0 s = .next (doeAnswer 0xE4 false [] s) := by
  simp only [execKeyExchange, decide_eq_false (Nat.not_lt.mpr hfull), Bool.and_false, Bool.false_and, Bool.false_eq_true, false_and, if_false,
    spdmRequest_up _ _ _ hup]

theorem execFinish_completes {x : SpdmSession} (hx : sessionOf s id = some x) (hopen : x.established = false) :
    execFinish id s = .next (doeAnswer 0xE5 true [] (onSession id (fun x => { x with established := true }) s)) := by
  simp only [execFinish, hx, sessionUp_of hx, hopen, hup, Option.isSome_some, Bool.not_false, Bool.and_self, and_self, if_true,
    spdmRequest_up _ _ _ ((spdmUp_onSession id _ s).trans hup)]

theorem execHeartbeatSpdm_up : execHeartbeatSpdm id s = .next (doeAnswer 0xE8 (sessionUp s id) [] s) := by
  rw [execHeartbeatSpdm, spdmRequest_up _ _ _ hup, ite_self]

theorem execKeyUpdate_rekeys (hx : sessionUp s id = true) :
    execKeyUpdate id s = .next (doeAnswer 0xE9 true [] (onSession id (fun x => { x with updates := x.updates + 1 }) s)) := by
  simp only [execKeyUpdate, hx, hup, and_self, if_true, spdmRequest_up _ _ _ ((spdmUp_onSession id _ s).trans hup)]

theorem execKeyUpdate_refused (hx : sessionUp s id = false) : execKeyUpdate id s = .next (doeAnswer 0xE9 false [] s) := by
  simp only [execKeyUpdate, hx, Bool.false_eq_true, false_and, if_false, spdmRequest_up _ _ _ hup]

theorem execEndSession_closes (hx : sessionUp s id = true) :
    execEndSession id s = .next (doeAnswer 0xEC true [] (setSessions (s.spdm.sessions.filter fun x => x.id != id) s)) := by
  simp only [execEndSession, hx, hup, and_self, if_true, spdmRequest_up _ _ _ ((spdmUp_setSessions _ s).trans hup)]

theorem execEndSession_refused (hx : sessionUp s id = false) : execEndSession id s = .next (doeAnswer 0xEC false [] s) := by
  simp only [execEndSession, hx, Bool.false_eq_true, false_and, if_false, spdmRequest_up _ _ _ hup]

theorem execIdeKm_sets (hx : sessionUp s id = true) {st : Nat} (hst : st < 4) (on : Bool) :
    execIdeKm id st on s = .next (doeAnswer 0 true [] (wr pIde 0x100 (setFld (rd s pIde 0x100) st st (b2n on)) s)) := by
  simp only [execIdeKm, hx, hst, hup, decide_true, Bool.and_self, and_self, if_true]

end

/-! ### The negotiation and what is answered at its end (R805, R806) -/

section
variable {s : State} (hup : spdmUp s = true)
include hup

theorem execGetCapabilities_taken {v : Nat} (hstage : s.spdm.stage = 1) (hv : v = 0x11 ∨ v = 0x12) :
    execGetCapabilities v s = .next (setStage 2 (doeAnswer 0xE1 true [] s)) := by
  have hver : (v == 0x11 || v == 0x12) = true := by simpa using hv
  simp only [execGetCapabilities, hstage, hver, hup, decide_true, Bool.and_self, and_self, if_true, spdmRequest_up _ _ _ hup]

theorem execGetCapabilities_refused {v : Nat} (h : s.spdm.stage ≠ 1 ∨ (v ≠ 0x11 ∧ v ≠ 0x12)) :
    execGetCapabilities v s = .next (doeAnswer 0xE1 false [] s) := by
  have hok : (decide (s.spdm.stage = 1) && (v == 0x11 || v == 0x12)) = false := by
    rcases h with h | ⟨h1, h2⟩
    · simp [h]
    · simp [h1, h2]
  simp only [execGetCapabilities, hok, Bool.false_eq_true, false_and, if_false, spdmRequest_up _ _ _ hup]

theorem execNegotiateAlgorithms_taken (hstage : s.spdm.stage = 2) :
    execNegotiateAlgorithms true s = .next (setStage 3 (doeAnswer 0xE3 true [] s)) := by
  simp only [execNegotiateAlgorithms, hstage, hup, decide_true, Bool.and_self, and_self, if_true, spdmRequest_up _ _ _ hup]

theorem execNegotiateAlgorithms_refused (hstage : s.spdm.stage ≠ 2) :
    execNegotiateAlgorithms true s = .next (doeAnswer 0xE3 false [] s) := by
  simp only [execNegotiateAlgorithms, hstage, decide_false, Bool.false_and, Bool.false_eq_true, false_and, if_false, spdmRequest_up _ _ _ hup]

theorem execGetCertificate_other {sl : Nat} (hsl : sl ≠ 0) (off n : Nat) :
    execGetCertificate sl off n s = .next (doeAnswer 0x82 false [] s) := by
  simp only [execGetCertificate, hsl, decide_false, Bool.and_false, Bool.false_and, spdmRequest_up _ _ _ hup, Bool.false_eq_true, if_false]

theorem execChallenge_other {sl : Nat} (hsl : sl ≠ 0) : execChallenge sl s = .next (doeAnswer 0x83 false [] s) := by
  simp only [execChallenge, hsl, decide_false, Bool.and_false, spdmRequest_up _ _ _ hup, Bool.false_eq_true, false_and, if_false]

variable (hstage : s.spdm.stage = 3)
include hstage

theorem execGetDigests_answers : execGetDigests s = .next (doeAnswer 0x81 true (digestBytes (Config.sha384 Config.certChain)) s) := by
  simp only [execGetDigests, hstage, decide_true, spdmRequest_up _ _ _ hup, if_true]

theorem execGetCertificate_answers {off : Nat} (n : Nat) (hoff : off ≤ Config.certChain.length) :
    execGetCertificate 0 off n s = .next (doeAnswer 0x82 true ((Config.certChain.drop off).take n) s) := by
  simp only [execGetCertificate, hstage, decide_eq_true hoff, decide_true, Bool.and_self, spdmRequest_up _ _ _ hup, if_true]

theorem execChallenge_signs : execChallenge 0 s = .next (tickFree 96 (doeAnswer 0x83 true (freeBytes s 96) s)) := by
  simp only [execChallenge, hstage, hup, decide_true, Bool.and_self, and_self, if_true, spdmRequest_up _ _ _ hup]

/-- The blocks 1 to 7 are answered, on request with a signature after them. -/
theorem execGetMeasurements_block {i : Nat} (h1 : 1 ≤ i) (h7 : i ≤ 7) :
    execGetMeasurements i false s = .next (doeAnswer 0xE0 true (measurement s i) s)
      ∧ execGetMeasurements i true s = .next (tickFree 96 (doeAnswer 0xE0 true (measurement s i ++ freeBytes s 96) s)) := by
  have h0 : i ≠ 0 := by omega
  have hall : i ≠ 0xFF := by omega
  constructor <;>
    simp only [execGetMeasurements, hstage, hup, h0, hall, decide_eq_true h7, decide_true, Bool.true_or, Bool.and_self, Bool.false_eq_true,
      and_self, false_and, and_false, if_true, if_false, spdmRequest_up _ _ _ hup]

theorem execGetMeasurements_number : execGetMeasurements 0 false s = .next (doeAnswer 0xE0 true [7] s) := by
  simp only [execGetMeasurements, hstage, Nat.zero_le, decide_true, Bool.true_or, Bool.and_self, Bool.false_eq_true, false_and, and_false, if_true,
    if_false, spdmRequest_up _ _ _ hup]

omit hstage in
theorem execGetMeasurements_other {i : Nat} (h7 : 7 < i) (hall : i ≠ 0xFF) :
    execGetMeasurements i false s = .next (doeAnswer 0xE0 false [] s) := by
  have hok : (decide (i ≤ 7) || i == 0xFF) = false := by simp [hall]; omega
  simp only [execGetMeasurements, hok, Bool.and_false, Bool.false_eq_true, false_and, if_false, spdmRequest_up _ _ _ hup]

end

/-! ### IDE (R823, R824) -/

/-- A failure of an active stream stops it, counts and reports. -/
theorem execIdeFail_active {st : Nat} (hst : st < 4) {s : State} (h : bitOf (rd s pIde 0x100) st = true) :
    execIdeFail st s = .next (event pHostif 6 (satInc pIde 0x104 1 (wr pIde 0x100 (setFld (rd s pIde 0x100) st st 0) s))) :=
  if_neg (by simp [h]; omega)

end Sys2Proof.Machine
end

section
/-! PROOFS. The statement on SPDM and IDE over the DOE mailbox. -/

namespace Sys2Proof.Machine

/-- Settles O57: each request is one object counted and one response, and each session request changes the one record its number finds. The
order of the requests and their refusals are the model's own choice (assumption log 50). -/
theorem spdmAndIdeOverDoe : Obligations.SpdmAndIdeOverDoe := by
  unfold Obligations.SpdmAndIdeOverDoe
  refine ⟨fun s hdown i hi => ?down, fun s c b l => ⟨doeAnswer_out c b l s, doeAnswer_count c b l s, rfl, rfl⟩, fun s hup => ?version,
    fun s v hup => ⟨fun h1 hv => execGetCapabilities_taken hup h1 hv, fun h => execGetCapabilities_refused hup h⟩,
    fun s hup => ⟨execNegotiateAlgorithms_taken hup, execNegotiateAlgorithms_refused hup⟩,
    fun s hup h3 => ⟨execGetDigests_answers hup h3, fun off n h => execGetCertificate_answers hup h3 n h,
      fun sl off n h => ⟨execGetCertificate_other hup h off n, execChallenge_other hup h⟩,
      ⟨_, length_freeBytes s 96, execChallenge_signs hup h3⟩, fun i h1 h7 => ?block, execGetMeasurements_number hup h3,
      fun i h7 hall => execGetMeasurements_other hup h7 hall⟩,
    fun s id hup h3 hnew => ⟨fun hroom => ?opens, execKeyExchange_full hup⟩,
    fun s id x hup hx => ⟨fun hopen => ?finish, fun hest => ?session⟩,
    fun s id hup hx => ⟨?refused, execKeyUpdate_refused hup hx, execEndSession_refused hup hx⟩,
    fun s st hst hb => ?ideFail⟩
  case down =>
    simp only [List.mem_cons, List.not_mem_nil, or_false] at hi
    rcases hi with rfl | rfl | rfl | rfl | rfl | rfl | rfl | rfl | rfl | rfl | rfl | rfl | rfl
    · exact if_pos (by simp [hdown])
    · exact next_spdmRequest_down _ _ _ hdown
    · exact granted_down hdown
    · exact granted_down hdown
    · exact granted_down hdown
    · exact next_spdmRequest_down _ _ _ hdown
    · refine congrArg Host.Outcome.next ((if_neg fun h => ?_).trans (spdmRequest_down _ _ _ hdown))
      simp [hdown] at h
    · exact granted_down hdown
    · exact granted_down hdown
    · exact next_spdmRequest_down _ _ _ hdown
    · exact granted_down hdown
    · exact granted_down hdown
    · exact granted_down hdown
  case version =>
    refine ⟨setStage 1 (setSessions [] s), if_neg (by simp [hup]), rfl, ?_⟩
    exact fld_setSessions (l := []) (by decide) s
  case block =>
    obtain ⟨hplain, hsigned⟩ := execGetMeasurements_block hup h3 h1 h7
    exact ⟨hplain, _, length_freeBytes s 96, hsigned⟩
  case opens =>
    have hlen : (s.spdm.sessions ++ [({ id := id } : SpdmSession)]).length = s.spdm.sessions.length + 1 := by rw [List.length_append]; rfl
    refine ⟨_, execKeyExchange_opens hup h3 hnew hroom, rfl, rfl, ?_⟩
    rw [fld_setSessions (by omega), hlen]
  case finish =>
    refine ⟨_, execFinish_completes hup hx hopen, ?_, rfl, rfl⟩
    have hfound : sessionOf (onSession id (fun x => { x with established := true }) s) id = some { x with established := true } := by
      rw [sessionOf_onSession (f := fun x => { x with established := true }) (fun _ => rfl), hx]
      rfl
    exact sessionUp_of hfound
  case session =>
    have hses : sessionUp s id = true := (sessionUp_of hx).trans hest
    refine ⟨?_, ⟨_, execKeyUpdate_rekeys hup hses, ⟨{ x with updates := x.updates + 1 }, ?_, rfl, hest⟩, rfl⟩,
      ⟨_, execEndSession_closes hup hses, ?_, rfl, fun j hj => ?_⟩, fun st on hst => ⟨_, execIdeKm_sets hup hses hst on, ?_, rfl, rfl⟩⟩
    · exact hses ▸ execHeartbeatSpdm_up hup
    · refine (sessionOf_onSession (f := fun x => { x with updates := x.updates + 1 }) (fun _ => rfl) s).trans ?_
      rw [hx]
      rfl
    · exact (sessionOf_closed id id s).trans (if_pos rfl)
    · exact (sessionOf_closed id j s).trans (if_neg hj)
    · rw [rd_doeAnswer_off _ _ _ _ (by decide) (by decide), rd_wr_same, bitOf_setFld_same _ on (by omega)]
  case refused => exact hx ▸ execHeartbeatSpdm_up hup
  case ideFail =>
    refine ⟨_, execIdeFail_active hst hb, ?_, ?_, bitOf_event (by decide) _ _, ?_, ?_⟩
    · rw [rd_event _ _ _ (by decide) (by decide) (by decide), satInc, rd_wr_off _ _ (by decide) (by decide) (by decide), rd_wr_same]
      exact bitOf_setFld_same _ false (by omega)
    · rw [rd_event _ _ _ (by decide) (by decide) (by decide), satInc, rd_wr_same, rd_wr_off _ _ (by decide) (by decide) (by decide)]
    · rw [event_mem, satInc_mem, wr_mem]
    · rw [event_spdm, satInc_spdm, wr_spdm]

end Sys2Proof.Machine
end

section
/-! SUPPORT. The management controller and Holog's log (17_firmware.md R803, R804, R808; 18_interfaces.md R832 to R836, R841, R845): what
a management command does once the MMC is ready, what an event leaves of ALERT_N and of the output, and one entry of the log. -/

namespace Sys2Proof.Machine

/-! ### What an event leaves of ALERT_N and the output -/

/-- ALERT_N stays asserted while an event rises. -/
theorem evtClosed_alertN : EvtClosed fun t s => s.alertN = true → t.alertN = true where
  refl _ h := h
  trans h k hs := h (k hs)
  orEvt _ _ _ h := h
  intr _ _ _ _ h := h
  emit _ _ h := h
  alert _ _ := rfl

theorem event_alertN (p n : Nat) {s : State} (h : s.alertN = true) : (event p n s).alertN = true :=
  evtClosed_alertN.raiseEvt p _ s h

/-- Nothing that was put out is taken back while an event rises. -/
theorem evtClosed_out (o : Out) : EvtClosed fun t s => o ∈ s.out → o ∈ t.out where
  refl _ h := h
  trans h k hs := h (k hs)
  orEvt _ _ _ h := h
  intr _ _ _ _ h := h
  emit _ _ h := List.mem_cons_of_mem _ h
  alert _ h := h

theorem mem_event_out {o : Out} (p n : Nat) {s : State} (h : o ∈ s.out) : o ∈ (event p n s).out :=
  (evtClosed_out o).raiseEvt p _ s h

/-! ### Management commands (R832 to R836, R841, R845) -/

section
variable {s : State}

theorem mmcServe_ready (f : State → State) (h : s.mmc.ready = true) : mmcServe f s = .next (f s) := congrArg Host.Outcome.next (if_pos h)

theorem mmcLogAdd_ready (e : MmcEvent) (h : s.mmc.ready = true) :
    (mmcLogAdd e s).mmc.log = (s.mmc.log ++ [(mmcTime s, e)]).drop (s.mmc.log.length + 1 - 4096) := by
  rw [mmcLogAdd, if_neg (by simp [h]), ← List.length_singleton (a := (mmcTime s, e)), ← List.length_append]

theorem mmcLogAdd_cap (e : MmcEvent) : (mmcLogAdd e s).mmc.cap = s.mmc.cap := by
  obtain ⟨l, h⟩ := mmcLogAdd_log e s
  rw [h]

theorem mmcLogAdd_leak (e : MmcEvent) : (mmcLogAdd e s).mmc.leak = s.mmc.leak := by
  obtain ⟨l, h⟩ := mmcLogAdd_log e s
  rw [h]

theorem mmcLogAdd_mem (e : MmcEvent) : (mmcLogAdd e s).mem = s.mem := by rw [mmcLogAdd_eq]
theorem mmcLogAdd_regs (e : MmcEvent) : (mmcLogAdd e s).regs = s.regs := by rw [mmcLogAdd_eq]

/-- The state with the MMC's own cap. -/
def withCap (w : Nat) (s : State) : State := { s with mmc := { s.mmc with cap := w } }

/-- A cap in range is kept, and sets the device's cap and clocks while the device is up (R834, R740). -/
theorem mmcSetCap_inRange {w : Nat} (hlo : 1200 ≤ w) (hhi : w ≤ 4600) :
    mmcSetCap w s = if s.power.up then setClocks (capSync (wr pBlocker 0x104 (BitVec.ofNat 32 w) (mmcLogAdd (.command 2) (withCap w s))))
      else mmcLogAdd (.command 2) (withCap w s) := if_neg (by omega)

theorem execClearEfuse_ready (h : s.mmc.ready = true) : execClearEfuse s = .next (efuseClear (mmcLogAdd (.command 3) s)) :=
  mmcServe_ready (fun s => efuseClear (mmcLogAdd (.command 3) s)) h

/-- With the supply up a module reset takes it away (R764, R834). -/
theorem execModuleReset_ready (m : PMeas) (h : s.mmc.ready = true) (hup : s.power.up = true) :
    execModuleReset m s = .next (losePower 0 .off m (mmcLogAdd (.command 5) s)) := by
  have hup' : (mmcLogAdd (.command 5) s).power.up = true := by rw [mmcLogAdd_power, hup]
  exact congrArg Host.Outcome.next ((if_pos h).trans (if_pos hup'))

theorem execPldmFirmwareUpdate_ready (l : List Byte) (h : s.mmc.ready = true) :
    execPldmFirmwareUpdate l s = .next { s with out := .pldmFirmware :: s.out, mmc := { s.mmc with spareBank := l, newBank := true } } :=
  congrArg Host.Outcome.next (if_pos h)

theorem efuseClear_latched (h : s.power.efuse = .latched) : efuseClear s = { s with power := { s.power with efuse := .off, retries := 0 } } :=
  if_pos h

end

/-- The state in which a leak is noted. -/
def leaking (s : State) : State := mmcLogAdd .leak { s with alertN := true, mmc := { s.mmc with leak := true } }

theorem leaking_facts (s : State) : (leaking s).alertN = true ∧ (leaking s).mmc.leak = true ∧ (leaking s).regs = s.regs ∧ (leaking s).mem = s.mem
    ∧ (leaking s).power = s.power :=
  ⟨mmcLogAdd_alertN _ _, mmcLogAdd_leak _, mmcLogAdd_regs _, mmcLogAdd_mem _, mmcLogAdd_power _ _⟩

theorem execLeak_ready {s : State} (h : s.mmc.ready = true) :
    execLeak s = .next (if (leaking s).power.up then event pMmcBox 1 (leaking s) else leaking s) := mmcServe_ready _ h

/-- The state in which a low flow is reported. -/
def flowReported (n : Nat) (s : State) : State := emit (.pldmFlow n) { s with alertN := true }

theorem execFlowLow_ready {n : Nat} (hn : n < 60) {s : State} (h : s.mmc.ready = true) :
    execFlowLow n s = .next (if s.power.up then event pMmcBox 2 (flowReported n s) else flowReported n s) :=
  (mmcServe_ready _ h).trans (congrArg Host.Outcome.next (if_neg (by omega)))

/-! ### The log (R803, R804, R808) -/

/-- The 32 bytes of a log entry (R803). -/
def logBytes (tp sev src : Nat) (args : List Word) (s : State) : List Byte :=
  leBytes 8 s.now ++ leBytes 2 tp ++ leBytes 1 (sev % 4) ++ leBytes 1 (src % 16) ++ leBytes 4 s.boot.logSeq
    ++ (List.range 4).flatMap fun i => leBytes 4 (args.getD i 0).toNat

theorem length_logBytes (tp sev src : Nat) (args : List Word) (s : State) : (logBytes tp sev src args s).length = 32 := rfl

theorem take_logBytes (tp sev src : Nat) (args : List Word) (s : State) : (logBytes tp sev src args s).take 8 = leBytes 8 s.now := rfl

/-- The log with one more entry: the newest 2,048 are kept. -/
def keptLog (e : List Byte) (s : State) : List (List Byte) := (s.boot.log ++ [e]).drop ((s.boot.log ++ [e]).length - 2048)

theorem keptLog_eq (e : List Byte) (s : State) : keptLog e s = (s.boot.log ++ [e]).drop (s.boot.log.length + 1 - 2048) := by
  rw [keptLog, List.length_append, List.length_singleton]

/-- The state with another log and one entry more counted. -/
def logged (l : List (List Byte)) (s : State) : State := { s with boot := { s.boot with log := l, logSeq := s.boot.logSeq + 1 } }

theorem logged_regs (l : List (List Byte)) (s : State) : (logged l s).regs = s.regs := rfl

/-- Whether entries are exported depends on the phase, a recovery, a failover and the test mode alone (R803). -/
theorem logExports_of {t s : State} (hb : rd t pBoot 0x100 = rd s pBoot 0x100) (hr : t.recov = s.recov) (hd : t.disp = s.disp)
    (ht : t.boot.test = s.boot.test) : logExports t = logExports s := by
  rw [logExports, logExports, phase, phase, hb, hr, hd, ht]

/-- A 64-bit register reads as it did when its two words do. -/
theorem rd64_of {t s : State} {p o : Nat} (hlo : rd t p o = rd s p o) (hhi : rd t p (o + 4) = rd s p (o + 4)) : rd64 t p o = rd64 s p o :=
  congrArg₂ (fun a b : Word => a.toNat + b.toNat * 0x100000000) hlo hhi

/-- The state with the entry in the log, counted in the BOOT page too. -/
def logAppended (l : List (List Byte)) (s : State) : State := addProg pBoot 2 1 (logged l s)

theorem logAppended_eq (l : List (List Byte)) (s : State) : logAppended l s
    = { s with regs := (logAppended l s).regs, boot := { s.boot with log := l, logSeq := s.boot.logSeq + 1 } } :=
  (regsOnly_addProg pBoot 2 1 (logged l s)).eq

theorem rd_logAppended (l : List (List Byte)) (s : State) {x : Nat} (hx : x < 0x1000) (h : 0x100 ≤ x) :
    rd (logAppended l s) pBoot x = rd s pBoot x :=
  (rd_addProg_off pBoot (i := 2) 1 (logged l s) (by decide) hx (.inr (by omega))).trans (rd_congr (logged_regs l s) _ _)

theorem logAppended_unsent (l : List (List Byte)) (s : State) : (logAppended l s).boot.unsent = s.boot.unsent := by
  rw [logAppended, addProg_boot]
  rfl

theorem logExports_logAppended (l : List (List Byte)) (s : State) : logExports (logAppended l s) = logExports s := by
  refine logExports_of (rd_logAppended l s (by decide) (by decide)) (addProg_recov _ _ _ _) (addProg_disp _ _ _ _) ?_
  rw [logAppended, addProg_boot]
  rfl

theorem rd64_logAppended_base (l : List (List Byte)) (s : State) : rd64 (logAppended l s) pBoot 0x170 = rd64 s pBoot 0x170 :=
  rd64_of (rd_logAppended l s (by decide) (by decide)) (rd_logAppended l s (by decide) (by decide))

/-- An entry is appended and counted; then it is exported, or waits for a ring, or neither. -/
theorem logEntry_eq (tp sev src : Nat) (args : List Word) {s : State} (hup : s.power.up = true) (hh : s.inHold = false) :
    logEntry tp sev src args s =
      let e := logBytes tp sev src args s
      let u := logAppended (keptLog e s) s
      if !logExports u then u
      else if rd64 u pBoot 0x170 / 4096 = 0 then { u with boot := { u.boot with unsent := (u.boot.unsent ++ [e]).take 0x100000 } }
      else logExport e u := by
  rw [logEntry, if_neg (by simp [hup, hh])]
  rfl

/-- A full ring takes no entry: the entry is counted as lost (R808). -/
theorem logExport_full {e : List Byte} {s : State} (hsev : fld (rd s pBoot 0x188) 1 0 ≤ (e.getD 10 0).toNat)
    (hfull : (logProd s + 0x200000 - logCons s) % 0x200000 = 2 ^ logSize s) :
    logExport e s = event pBoot 4 (satInc pBoot 0x184 1 s) := by
  rw [logExport, if_neg (by omega), if_pos hfull]

theorem regsOnly_stWord (bank p o : Nat) (v : Word) (s : State) : RegsOnly (stWord bank p o v s) s := by
  unfold stWord
  split
  · exact ⟨_, rfl⟩
  · exact .refl s

theorem regsOnly_stReg (bank p o : Nat) (v : DWord) (wide : Bool) (s : State) : RegsOnly (stReg bank p o v wide s) s := by
  unfold stReg
  dsimp only
  split
  · exact (regsOnly_stWord _ _ _ _ _).trans (regsOnly_stWord _ _ _ _ s)
  · exact regsOnly_stWord _ _ _ _ s

/-- With no entry waiting a write of LOG_BASE or LOG_SIZE on an empty ring is the write of the register. -/
theorem logBaseWrite_idle (off : Nat) (v : DWord) (wide : Bool) {s : State} (hempty : logProd s = logCons s) (hnone : s.boot.unsent = []) :
    logBaseWrite off v wide s = stReg 0 pBoot off v wide s := by
  rw [logBaseWrite, if_neg (not_not.mpr hempty)]
  obtain ⟨r, hr⟩ := regsOnly_stReg 0 pBoot off v wide s
  rw [hr]
  dsimp only
  rw [hnone, List.filter_nil, List.take_nil, List.foldl_nil]
  split
  · rfl
  · rw [← hnone]

end Sys2Proof.Machine
end

section
/-! PROOFS. The statement on the management controller and Holog's log. -/

namespace Sys2Proof.Machine

/-- Settles O58: every management command goes through the one guard that the MMC is ready, and LOG_ENTRY through the state with the entry
appended. That GET_STATUS, READ_LOG and PLDM_MONITORING are not logged is the model's own reading (assumption log 51). -/
theorem managementControllerAndLog : Obligations.ManagementControllerAndLog := by
  unfold Obligations.ManagementControllerAndLog
  refine ⟨fun s hdown i hi => ?down, fun s n b => ⟨_, rfl, rfl, rfl, rfl, rfl, rfl, rfl, rfl, rfl⟩, fun s hr => ?ready,
    fun s e hr => ⟨mmcLogAdd_ready e hr, mmcLogAdd_eq e s⟩, fun s tp sev src a hup hh => ?entry, fun s e hsev hfull => ?full,
    fun s off v b hoff => ⟨fun hne => ?busy, fun heq hnone => ?idle⟩⟩
  case down =>
    simp only [List.mem_cons, List.not_mem_nil, or_false] at hi
    rcases hi with rfl | rfl | rfl | rfl | rfl | rfl | rfl | rfl | rfl | rfl
    all_goals exact congrArg Host.Outcome.next (if_neg (by simp [hdown]))
  case ready =>
    refine ⟨mmcServe_ready _ hr, fun n => mmcServe_ready _ hr, fun x n => mmcServe_ready _ hr, fun n => ⟨rfl, fun hoff => if_neg (by simp [hoff])⟩,
      ?clearAlert, fun w hw => ?refuse, fun w hlo hhi => ⟨fun hoff => ?capDown, fun hup => ?capUp⟩, fun hl => ?clearEfuse,
      fun m hup => ?reset, fun l => ⟨_, execPldmFirmwareUpdate_ready l hr, rfl⟩, ?leak, fun n hn => ?flow, fun n hn => ?enough⟩
    case clearAlert => exact ⟨_, mmcServe_ready _ hr, mmcLogAdd_eq _ _⟩
    case refuse => exact (mmcServe_ready _ hr).trans (congrArg Host.Outcome.next (if_pos hw))
    case capDown =>
      refine ⟨_, (mmcServe_ready _ hr).trans (congrArg Host.Outcome.next ((mmcSetCap_inRange hlo hhi).trans (if_neg (by simp [hoff])))), ?_,
        mmcLogAdd_cap _⟩
      exact mmcLogAdd_eq _ (withCap w s)
    case capUp =>
      refine ⟨_, (mmcServe_ready _ hr).trans (congrArg Host.Outcome.next ((mmcSetCap_inRange hlo hhi).trans (if_pos hup))), ?_, ?_, rd_wr_same _ _ _ _⟩
      · rw [mmcLogAdd_eq]
        rfl
      · rw [wr_mmc, mmcLogAdd_cap]
        rfl
    case clearEfuse =>
      have hl' : (mmcLogAdd (.command 3) s).power.efuse = .latched := by rw [mmcLogAdd_power, hl]
      refine ⟨_, execClearEfuse_ready hr, ?_⟩
      rw [efuseClear_latched hl', mmcLogAdd_eq]
    case reset => exact ⟨mmcLogAdd (.command 5) s, execModuleReset_ready m hr hup, mmcLogAdd_eq _ _⟩
    case leak =>
      obtain ⟨halert, hleak, hregs, hmem, hpower⟩ := leaking_facts s
      refine ⟨_, execLeak_ready hr, ?_⟩
      rw [hpower]
      cases hup : s.power.up
      · exact ⟨halert, hleak, fun h => absurd h (by decide), fun _ => hregs, hmem⟩
      · exact ⟨event_alertN _ _ halert, (congrArg MmcSt.leak (event_mmc _ _ _)).trans hleak, fun _ => bitOf_event (by decide) _ _,
          fun h => absurd h (by decide), (event_mem _ _ _).trans hmem⟩
    case flow =>
      refine ⟨_, execFlowLow_ready hn hr, ?_⟩
      cases hup : s.power.up
      · exact ⟨rfl, List.mem_cons_self, fun h => absurd h (by decide), rfl, rfl⟩
      · exact ⟨event_alertN _ _ rfl, mem_event_out _ _ List.mem_cons_self, fun _ => bitOf_event (by decide) _ _, event_mmc _ _ _,
          event_mem _ _ _⟩
    case enough => exact congrArg Host.Outcome.next ((if_pos hr).trans (if_pos hn))
  case entry =>
    have hrun := logEntry_eq tp sev src a hup hh
    generalize he : logBytes tp sev src a s = e at hrun
    have hu := logAppended_eq (keptLog e s) s
    have hexp := logExports_logAppended (keptLog e s) s
    have hbase := rd64_logAppended_base (keptLog e s) s
    have hunsent := logAppended_unsent (keptLog e s) s
    dsimp only at hrun
    rw [hexp, hbase, hunsent] at hrun
    rw [keptLog_eq] at hu
    refine ⟨e, logAppended (keptLog e s) s, he ▸ length_logBytes tp sev src a s, he ▸ take_logBytes tp sev src a s, ?_, fun hno => ?_,
      fun hyes hring => ?_, fun hyes hring => ?_⟩
    · rw [keptLog_eq]
      exact hu
    · exact congrArg Host.Outcome.next (hrun.trans (if_pos (by simp [hno])))
    · exact congrArg Host.Outcome.next (hrun.trans ((if_neg (by simp [hyes])).trans (if_neg hring)))
    · exact congrArg Host.Outcome.next (hrun.trans ((if_neg (by simp [hyes])).trans (if_pos hring)))
  case full =>
    rw [logExport_full hsev hfull]
    refine ⟨?_, ?_, bitOf_event (by decide) _ _⟩
    · rw [event_mem, satInc_mem]
    · rw [rd_event _ _ _ (by decide) (by decide) (by decide), satInc, rd_wr_same]
  case busy => exact (if_pos hoff).trans (congrArg Host.Outcome.next (if_pos hne))
  case idle => exact (if_pos hoff).trans (congrArg Host.Outcome.next (logBaseWrite_idle off v b heq hnone))

end Sys2Proof.Machine
end

section
/-! SUPPORT. Blocker's clocks (16_power.md R742, R746, R750): what a die's clock is computed from, and that setting the other dies'
clocks leaves it. -/

namespace Sys2Proof.Machine

/-! ### Folds over the dies, and words by their offset -/

/-- A fold that changes what is read of `d` in the one step for `d`. -/
theorem foldl_once {α β : Type} {f : State → α → State} {g : State → β} {R : State → Prop} {v : β → β} {d : α}
    (hR : ∀ t e, R t → R (f t e)) (hset : ∀ t, R t → g (f t d) = v (g t)) (hkeep : ∀ t e, e ≠ d → g (f t e) = g t)
    {l : List α} (hd : d ∈ l) (hn : l.Nodup) {s : State} (hs : R s) : g (l.foldl f s) = v (g s) := by
  induction l generalizing s with
  | nil => cases hd
  | cons e l ih =>
    obtain ⟨hnot, hn⟩ := List.nodup_cons.mp hn
    rw [List.foldl_cons]
    rcases List.mem_cons.mp hd with rfl | hd
    · rw [← hset s hs]
      exact foldl_keeps_on g (fun t x hx => hkeep t x fun h => hnot (h ▸ hx)) _
    · rw [ih hd hn (hR s e hs), hkeep s e fun h => hnot (h ▸ hd)]

theorem pPwrtherm_inj {d e : Nat} (h : e ≠ d) : pPwrtherm d ≠ pPwrtherm e := by
  unfold pPwrtherm pageOf
  omega

theorem pPwrtherm_ne_pBlocker (d : Nat) : pBlocker ≠ pPwrtherm d := by
  unfold pBlocker pPwrtherm pageOf
  omega

theorem regKey_mod (b p : Nat) {o : Nat} (ho : o < 0x1000) : regKey b p o % 0x1000 = o := by
  unfold regKey
  omega

/-! ### What a die's clock is computed from -/

/-- The words from offset 0x108 of their pages up, the power state, the tiles, the commands and memory are the same. -/
structure SameInputs (t s : State) : Prop where
  word : ∀ k, 0x108 ≤ k % 0x1000 → rdKey t k = rdKey s k
  power : t.power = s.power
  tiles : t.tiles = s.tiles
  disp : t.disp = s.disp
  mem : t.mem = s.mem

theorem SameInputs.refl (s : State) : SameInputs s s := ⟨fun _ _ => rfl, rfl, rfl, rfl, rfl⟩

theorem SameInputs.trans {t u s : State} (h : SameInputs t u) (k : SameInputs u s) : SameInputs t s :=
  ⟨fun x hx => (h.word x hx).trans (k.word x hx), h.power.trans k.power, h.tiles.trans k.tiles, h.disp.trans k.disp, h.mem.trans k.mem⟩

theorem SameInputs.foldl {α : Type} {f : State → α → State} (hf : ∀ t x, SameInputs (f t x) t) (l : List α) (s : State) :
    SameInputs (l.foldl f s) s := by
  induction l generalizing s with
  | nil => exact .refl s
  | cons x l ih => exact (ih _).trans (hf s x)

theorem SameInputs.rd {t s : State} (h : SameInputs t s) (p : Nat) {o : Nat} (ho : o < 0x1000) (hlo : 0x108 ≤ o) :
    Machine.rd t p o = Machine.rd s p o := h.word _ (by rw [regKey_mod 0 p ho]; exact hlo)

theorem SameInputs.rdB {t s : State} (h : SameInputs t s) (b p : Nat) {o : Nat} (ho : o < 0x1000) (hlo : 0x108 ≤ o) :
    Machine.rdB t b p o = Machine.rdB s b p o := h.word _ (by rw [regKey_mod b p ho]; exact hlo)

theorem sameInputs_wr (p : Nat) {o : Nat} (v : Word) (s : State) (ho : o < 0x108) : SameInputs (wr p o v s) s := by
  refine ⟨fun k hk => rdKey_wrKey_ne s v fun h => ?_, wr_power .., wr_tiles .., wr_disp .., wr_mem ..⟩
  rw [h, regKey_mod 0 p (by omega)] at hk
  omega

theorem sameInputs_add64 (p : Nat) {o : Nat} (n : Nat) (s : State) (ho : o + 4 < 0x108) : SameInputs (add64 p o n s) s :=
  (sameInputs_wr p _ _ ho).trans (sameInputs_wr p _ s (by omega))

theorem sameInputs_addProg (p : Nat) {i : Nat} (n : Nat) (s : State) (hi : i < 8) : SameInputs (addProg p i n s) s := by
  have hadd (g : Nat) (t : State) : SameInputs (add64 g (0x40 + 8 * i) n t) t := sameInputs_add64 g n t (by omega)
  unfold addProg
  split
  · exact .refl s
  · dsimp only
    split
    · exact (SameInputs.foldl (fun t g => hadd g t) _ _).trans (hadd p s)
    · exact hadd p s

theorem sameInputs_tickFree (n : Nat) (s : State) : SameInputs (tickFree n s) s := ⟨fun _ _ => rfl, rfl, rfl, rfl, rfl⟩

theorem sameInputs_setVolt (d : Nat) (s : State) : SameInputs (setVolt d s) s :=
  (sameInputs_wr _ _ _ (by decide)).trans (sameInputs_tickFree 2 s)

section
variable {t s : State} (h : SameInputs t s)
include h

theorem dieB_of (d : Nat) : dieB t d = dieB s d := by rw [dieB, dieB, h.power]

theorem allDeg_of : allDeg t = allDeg s := by
  unfold allDeg dieDeg
  rw [h.power]

theorem boostOk_of : boostOk t = boostOk s := by
  rw [boostOk, boostOk, allDeg_of h, h.rd pBlocker (o := 0x108) (by decide) (by decide), h.rd pBlocker (o := 0x110) (by decide) (by decide),
    h.rd pBlocker (o := 0x10C) (by decide) (by decide)]

theorem phaseTarget_of (slice tag : Nat) : phaseTarget t slice tag = phaseTarget s slice tag := by
  rw [phaseTarget, phaseTarget, boostOk_of h, h.rdB _ pBlocker (o := 0x144) (by decide) (by decide), learnedTarget, learnedTarget,
    phaseModel, phaseModel, h.power, h.rd pBlocker (o := 0x108) (by decide) (by decide)]

theorem dieTarget_of (d : Nat) : dieTarget t d = dieTarget s d := by
  simp only [dieTarget, tileSt, findCmd, h.tiles, h.disp, phaseTarget_of h]

/-- The clock of a die is the same. -/
theorem dieClock_of (d : Nat) : dieClock t d = dieClock s d := by
  rw [dieClock, dieClock, boundList, boundList, dieB_of h, dieTarget_of h, boostOk_of h, h.rd pPace (o := 0x108) (by decide) (by decide),
    h.rd pBlocker (o := 0x10C) (by decide) (by decide)]

end

/-! ### Setting the clocks (R742) -/

theorem fld_clockWord (n a b c e f : Nat) :
    fld (BitVec.ofNat 32 (n + 0x800 * a + 0x10000 * b + 0x100000 * c + 0x1000000 * e + 0x2000000 * f)) 10 0 = n % 2048 := by
  simp only [fld, BitVec.toNat_ofNat]
  omega

theorem sameInputs_setDieClock (s : State) (d : Nat) : SameInputs (setDieClock s d) s := by
  have hset (v : Word) (c : Prop) [Decidable c] : SameInputs (wr (pPwrtherm d) 0x100 v (if c then tickFree 1 s else s)) s := by
    refine (sameInputs_wr _ _ _ (by decide)).trans ?_
    split
    · exact sameInputs_tickFree 1 s
    · exact .refl s
  unfold setDieClock
  dsimp only
  split
  · exact hset _ _
  · exact ((sameInputs_addProg _ _ _ (by decide)).trans (sameInputs_setVolt d _)).trans (hset _ _)

/-- TCLK_N takes the N of the die's clock. -/
theorem tclkN_setDieClock (s : State) (d : Nat) : tclkN (setDieClock s d) d = (dieClock s d).2 % 2048 := by
  unfold setDieClock tclkN
  dsimp only
  split
  · rw [rd_wr_same, fld_clockWord]
  · rw [rd_addProg_off _ _ _ (by decide) (by decide) (by decide), setVolt, rd_wr_off _ _ (by decide) (by decide) (by decide), rd_tickFree,
      rd_wr_same, fld_clockWord]

theorem tclkN_setDieClock_ne (s : State) {d e : Nat} (h : e ≠ d) : tclkN (setDieClock s e) d = tclkN s d := by
  have hset (v : Word) (c : Prop) [Decidable c] :
      rd (wr (pPwrtherm e) 0x100 v (if c then tickFree 1 s else s)) (pPwrtherm d) 0x100 = rd s (pPwrtherm d) 0x100 := by
    rw [rd_wr_page _ _ (by decide) (by decide) (pPwrtherm_inj h)]
    split
    · rw [rd_tickFree]
    · rfl
  unfold setDieClock tclkN
  dsimp only
  split
  · rw [hset]
  · rw [rd_addProg_off _ _ _ (by decide) (by decide) (by decide), setVolt, rd_wr_off _ _ (by decide) (by decide) (by decide), rd_tickFree, hset]

theorem rd_powerLimited (s : State) {q x : Nat} (hx : x < 0x1000) (h10 : x ≠ 0x10) (hx' : x ≠ 0x10C) (hq : q ≠ pIntr) :
    rd (powerLimited s) q x = rd s q x := by
  unfold powerLimited
  dsimp only
  split
  · rw [rd_event _ _ _ hx h10 hq, rd_wr_off _ _ (by decide) hx hx']
  · rw [rd_wr_off _ _ (by decide) hx hx']

theorem powerLimited_power (s : State) : (powerLimited s).power = s.power := by
  unfold powerLimited
  dsimp only
  split
  · rw [event_power, wr_power]
  · rw [wr_power]

theorem powerLimited_mem (s : State) : (powerLimited s).mem = s.mem := by
  unfold powerLimited
  dsimp only
  split
  · rw [event_mem, wr_mem]
  · rw [wr_mem]

/-- In RUN, outside HOLD and with power, each compute die has the N of its clock. -/
theorem tclkN_setClocks {s : State} (hh : s.inHold = false) (hup : s.power.up = true) (hp : phase s = 5) {d : Nat} (hd : d < 8) :
    tclkN (setClocks s) d = (dieClock s d).2 % 2048 := by
  rw [setClocks, if_neg (by simp [hh, hup, hp]), tclkN, rd_powerLimited _ (by decide) (by decide) (by decide) (pPwrtherm_ne_pIntr hd)]
  exact foldl_once (f := setDieClock) (g := fun t => tclkN t d) (R := fun t => SameInputs t s) (v := fun _ => (dieClock s d).2 % 2048)
    (fun t e h => (sameInputs_setDieClock t e).trans h) (fun t h => (tclkN_setDieClock t d).trans (by rw [dieClock_of h]))
    (fun t e h => tclkN_setDieClock_ne t h) (List.mem_range.mpr hd) List.nodup_range (.refl s)

/-- A clamped die has at most half its least bound, at least the lowest N (assumption log 60). -/
theorem dieClock_clamped {s : State} {d : Nat} (h : (dieB s d).clamp = true) :
    (dieClock s d).2 ≤ max 332 ((leastBound (boundList s d (dieTarget s d).1)).2 / 2) := by
  rw [dieClock]
  generalize leastBound (boundList s d (dieTarget s d).1) = m
  split
  next => exact Nat.le_refl _
  next hc =>
    have hle : ¬max 332 (m.2 / 2) < m.2 := fun hlt => hc ⟨h, hlt⟩
    exact max_le (le_max_left _ _) (not_lt.mp hle)

theorem setClocks_power (s : State) : (setClocks s).power = s.power := by
  unfold setClocks
  split
  · rfl
  · rw [powerLimited_power, (SameInputs.foldl sameInputs_setDieClock _ s).power]

theorem setClocks_mem (s : State) : (setClocks s).mem = s.mem := by
  unfold setClocks
  split
  · rfl
  · rw [powerLimited_mem, (SameInputs.foldl sameInputs_setDieClock _ s).mem]

theorem rd_setClocks (s : State) {q x : Nat} (hx : x < 0x1000) (hlo : 0x108 ≤ x) (hx' : x ≠ 0x10C) (hq : q ≠ pIntr) :
    rd (setClocks s) q x = rd s q x := by
  unfold setClocks
  split
  · rfl
  · rw [rd_powerLimited _ hx (by omega) hx' hq, (SameInputs.foldl sameInputs_setDieClock _ s).rd q hx hlo]

end Sys2Proof.Machine
end

section
/-! SUPPORT. Blocker's measurements (16_power.md R732 to R735, R739, R740, R744, R748, R752, R753): bounds of one die, the gradient, a
control period, a droop, the cap, and the energy of an interval. -/

namespace Sys2Proof.Machine

/-! ### Bounds of one die -/

theorem dieB_setDieB_same (d : Nat) (b : DieBounds) (s : State) : dieB (setDieB d b s) d = b := sget_sput_same _ _ _ _

theorem dieB_setDieB_ne {d e : Nat} (b : DieBounds) (s : State) (h : e ≠ d) : dieB (setDieB e b s) d = dieB s d := sget_sput_ne _ _ _ h.symm

theorem dieB_congr {t s : State} (h : t.power = s.power) (d : Nat) : dieB t d = dieB s d := by rw [dieB, dieB, h]

/-- A field that each step leaves on the bounds it changes is the same for every die. -/
theorem dieB_field {β : Type} (g : DieBounds → β) {e : Nat} {b : DieBounds} {s : State} (h : g b = g (dieB s e)) (d : Nat) :
    g (dieB (setDieB e b s) d) = g (dieB s d) := by
  by_cases hd : e = d
  · rw [← hd, dieB_setDieB_same, h]
  · rw [dieB_setDieB_ne _ _ hd]

/-! ### CLAMP105 (R734) -/

theorem dieB_setSensors (d : Nat) (l : List Nat) (s : State) (e : Nat) : dieB (setSensors d l s) e = dieB s e := rfl

/-- The state in which CLAMP105 began on a die. -/
def clamped (d : Nat) (l : List Nat) (s : State) : State :=
  event (pPwrtherm d) 0 (satInc (pPwrtherm d) 0x12C 1 (setDieB d { dieB s d with clamp := true } (setSensors d l s)))

theorem clamp105_begins {d x : Nat} {l : List Nat} {s : State} (hd : d < 8) (hup : s.power.up = true) (hx : dieDeg (setSensors d l s) d = some x)
    (ht : deg 105 ≤ x) (hc : (dieB s d).clamp = false) : clamp105 d l s = setClocks (clamped d l s) := by
  rw [clamp105, if_neg (by simp [hup]; omega)]
  dsimp only
  rw [hx, dieB_setSensors]
  exact if_pos ⟨ht, by rw [hc]; rfl⟩

theorem clamped_facts {d : Nat} (l : List Nat) (s : State) (hd : d < 8) :
    (dieB (clamped d l s) d).clamp = true ∧ (clamped d l s).mem = s.mem
      ∧ rd (clamped d l s) (pPwrtherm d) 0x12C = sat32 ((rd s (pPwrtherm d) 0x12C).toNat + 1)
      ∧ bitOf (rd (clamped d l s) (pPwrtherm d) 0x10) 0 = true := by
  refine ⟨?_, ?_, ?_, bitOf_event (by decide) _ _⟩
  · rw [clamped, dieB_congr (event_power _ _ _), dieB_congr (satInc_power ..), dieB_setDieB_same]
  · rw [clamped, event_mem, satInc_mem]
    rfl
  · rw [clamped, rd_event _ _ _ (by decide) (by decide) (pPwrtherm_ne_pIntr hd), satInc, rd_wr_same]
    rfl

theorem clamp105_ends {d x : Nat} {l : List Nat} {s : State} (hd : d < 8) (hup : s.power.up = true) (hx : dieDeg (setSensors d l s) d = some x)
    (ht : x ≤ deg 102) (hc : (dieB s d).clamp = true) :
    clamp105 d l s = setClocks (setDieB d { dieB s d with clamp := false } (setSensors d l s)) := by
  have hlow : ¬deg 105 ≤ x := by unfold deg at *; omega
  rw [clamp105, if_neg (by simp [hup]; omega)]
  dsimp only
  rw [hx, dieB_setSensors]
  exact (if_neg fun h => hlow h.1).trans (if_pos ⟨ht, hc⟩)

/-! ### GRADIENT_CHECK (R732) -/

/-- The readings decide the spread and the die the gradient bound falls on. -/
theorem allDeg_congr {t s : State} (h : t.power.temps = s.power.temps) : allDeg t = allDeg s := by
  unfold allDeg dieDeg
  rw [h]

theorem spread_congr {t s : State} (h : t.power.temps = s.power.temps) : spread t = spread s := by rw [spread, spread, allDeg_congr h]

theorem gradDie_congr {t s : State} (h : t.power.temps = s.power.temps) : gradDie t = gradDie s := by rw [gradDie, gradDie, allDeg_congr h]

/-- The readings, the time, memory and the gradient bound of a die with when it last moved. -/
def gradSide (d : Nat) (s : State) : List (List Nat) × Nat × List Cell × Nat × Option Nat :=
  (s.power.temps, s.now, s.mem, (dieB s d).grad, (dieB s d).gradAt)

/-- The bounds of the dies while the spread is above the threshold: no time since which it was low. -/
def gradHigh (l : List Nat) (s : State) : State := l.foldl (fun t d => setDieB d { dieB t d with gradOk := none } t) s

theorem gradSide_gradHigh (d : Nat) (l : List Nat) (s : State) : gradSide d (gradHigh l s) = gradSide d s := by
  refine foldl_keeps (gradSide d) (fun t e => ?_) l s
  unfold gradSide
  rw [dieB_field DieBounds.grad (e := e) (b := { dieB t e with gradOk := none }) rfl d,
    dieB_field DieBounds.gradAt (e := e) (b := { dieB t e with gradOk := none }) rfl d]
  rfl

/-- The step of the gradient bound of the hottest die. -/
def gradMove (s : State) : State :=
  match gradDie s with
  | some d =>
    if msSince s (dieB s d).gradAt then
      event (pPwrtherm d) 1 (setDieB d { dieB s d with grad := max 332 ((dieB s d).grad - 32), gradAt := some s.now } s)
    else s
  | none => s

theorem gradDown_eq (s : State) : gradDown s = gradMove (gradHigh (List.range 8) s) := rfl

theorem gradMove_lowers {d : Nat} {s : State} (hd : gradDie s = some d) (hms : msSince s (dieB s d).gradAt = true) :
    (dieB (gradMove s) d).grad = max 332 ((dieB s d).grad - 32) ∧ (dieB (gradMove s) d).gradAt = some s.now
      ∧ bitOf (rd (gradMove s) (pPwrtherm d) 0x10) 1 = true := by
  have hmove : gradMove s = event (pPwrtherm d) 1 (setDieB d { dieB s d with grad := max 332 ((dieB s d).grad - 32), gradAt := some s.now } s) := by
    rw [gradMove, hd]
    exact if_pos hms
  rw [hmove, dieB_congr (event_power _ _ _), dieB_setDieB_same]
  exact ⟨rfl, rfl, bitOf_event (by decide) _ _⟩

theorem msSince_congr {t s : State} (h : t.now = s.now) (o : Option Nat) : msSince t o = msSince s o := by
  unfold msSince
  rw [h]

/-- Above the threshold the bound of the die falls by 32, at least to 332, and reports. -/
theorem gradDown_lowers {d : Nat} {s : State} (hd : gradDie s = some d) (hms : msSince s (dieB s d).gradAt = true) :
    (dieB (gradDown s) d).grad = max 332 ((dieB s d).grad - 32) ∧ (dieB (gradDown s) d).gradAt = some s.now
      ∧ bitOf (rd (gradDown s) (pPwrtherm d) 0x10) 1 = true := by
  have hside := gradSide_gradHigh d (List.range 8) s
  rw [gradDown_eq]
  generalize gradHigh (List.range 8) s = u at hside ⊢
  simp only [gradSide, Prod.mk.injEq] at hside
  obtain ⟨htemps, hnow, -, hgrad, hat⟩ := hside
  have h := gradMove_lowers (s := u) ((gradDie_congr htemps).trans hd) (by rw [msSince_congr hnow, hat]; exact hms)
  rwa [hgrad, hnow] at h

/-- What a move of the gradient bounds leaves: the readings and memory. -/
def readings (s : State) : List (List Nat) × List Cell := (s.power.temps, s.mem)

theorem readings_setDieB (d : Nat) (b : DieBounds) (s : State) : readings (setDieB d b s) = readings s := rfl

theorem readings_event (p n : Nat) (s : State) : readings (event p n s) = readings s := by
  rw [readings, event_power, event_mem]
  rfl

theorem readings_gradHigh (l : List Nat) (s : State) : readings (gradHigh l s) = readings s :=
  foldl_keeps readings (fun t d => readings_setDieB d _ t) l s

theorem readings_gradMove (s : State) : readings (gradMove s) = readings s := by
  unfold gradMove
  split
  · split
    · rw [readings_event, readings_setDieB]
    · rfl
  · rfl

theorem readings_gradDown (s : State) : readings (gradDown s) = readings s := by
  rw [gradDown_eq, readings_gradMove, readings_gradHigh]

theorem readings_gradUp (s : State) (d : Nat) : readings (gradUp s d) = readings s := by
  unfold gradUp
  dsimp only
  split
  · exact readings_setDieB _ _ _
  · exact readings_setDieB _ _ _

/-- The dies above TJ_TARGET. -/
def hotDies (s : State) : List Nat :=
  (List.range 8).filter fun d => match dieDeg s d with | some t => decide (deg (tjTarget s) < t) | none => false

/-- The state in which the time of the hot dies is counted. -/
def hotCounted (l : List Nat) (s : State) : State := l.foldl (fun t d => addProg (pPwrtherm d) 5 100 t) s

theorem hotCounted_keeps (l : List Nat) (s : State) : (hotCounted l s).power = s.power ∧ (hotCounted l s).now = s.now
    ∧ (hotCounted l s).mem = s.mem ∧ rd (hotCounted l s) pBlocker 0x108 = rd s pBlocker 0x108 :=
  ⟨foldl_keeps State.power (fun t d => addProg_power _ _ _ t) l s, foldl_keeps State.now (fun t d => addProg_now _ _ _ t) l s,
    foldl_keeps State.mem (fun t d => addProg_mem _ _ _ t) l s,
    foldl_keeps (rd · pBlocker 0x108) (fun t d => rd_addProg_off _ _ t (by decide) (by decide) (by decide)) l s⟩

/-- The gradient bounds after a check of the readings that stand. -/
def gradBounds (s : State) : State := if gradWarn s < spread s then gradDown s else (List.range 8).foldl gradUp s

theorem readings_gradBounds (s : State) : readings (gradBounds s) = readings s := by
  unfold gradBounds
  split
  · exact readings_gradDown s
  · exact foldl_keeps readings readings_gradUp _ s

/-- In RUN, outside HOLD: the readings are taken, the bounds move, and the gate and the clocks follow. -/
theorem gradientCheck_runs (l : List (List Nat)) {s : State} (hup : s.power.up = true) (hh : s.inHold = false) (hp : phase s = 5) :
    gradientCheck l s = setClocks (gradGate (gradBounds (hotCounted (hotDies (withTemps l s)) (withTemps l s)))) := by
  rw [gradientCheck, if_neg (by simp [hup])]
  have hrun : ¬((withTemps l s).inHold = true ∨ phase (withTemps l s) ≠ 5) := by
    rintro (h | h)
    · exact absurd (h.symm.trans hh) (by decide)
    · exact h hp
  exact if_neg hrun

/-- What the bounds are after a check. -/
theorem gradBounds_facts (l : List Nat) (s : State) :
    (gradBounds (hotCounted l s)).power.temps = s.power.temps ∧ (gradBounds (hotCounted l s)).mem = s.mem
      ∧ ∀ d, gradWarn s < spread s → gradDie s = some d → msSince s (dieB s d).gradAt = true →
        (dieB (gradBounds (hotCounted l s)) d).grad = max 332 ((dieB s d).grad - 32)
          ∧ (dieB (gradBounds (hotCounted l s)) d).gradAt = some s.now ∧ bitOf (rd (gradBounds (hotCounted l s)) (pPwrtherm d) 0x10) 1 = true := by
  obtain ⟨hpower, hnow, hmem, hcfg⟩ := hotCounted_keeps l s
  generalize hotCounted l s = u at hpower hnow hmem hcfg ⊢
  have htemps := congrArg PowerSt.temps hpower
  have hread := readings_gradBounds u
  simp only [readings, Prod.mk.injEq] at hread
  refine ⟨hread.1.trans htemps, hread.2.trans hmem, fun d hw hd hms => ?_⟩
  have hwarn : gradWarn u < spread u := by rwa [gradWarn, hcfg, spread_congr htemps]
  rw [gradBounds, if_pos hwarn]
  have h := gradDown_lowers (s := u) ((gradDie_congr htemps).trans hd) (by rw [msSince_congr hnow, dieB_congr hpower]; exact hms)
  rwa [dieB_congr hpower, hnow] at h

/-! ### A control period (R735, R742, R747) -/

/-- The measured input, memory and the power state. -/
def meters (s : State) : Word × Word × List Cell × PowerSt := (rd s pBlocker 0x110, rd s pBlocker 0x118, s.mem, s.power)

theorem meters_wr (p : Nat) {o : Nat} (v : Word) (s : State) (ho : o < 0x1000) (h0 : 0x110 ≠ o) (h8 : 0x118 ≠ o) : meters (wr p o v s) = meters s := by
  rw [meters, rd_wr_off _ _ ho (by decide) h0, rd_wr_off _ _ ho (by decide) h8, wr_mem, wr_power]
  rfl

theorem meters_event (p n : Nat) (s : State) : meters (event p n s) = meters s := by
  rw [meters, rd_event _ _ _ (by decide) (by decide) (by decide), rd_event _ _ _ (by decide) (by decide) (by decide), event_mem, event_power]
  rfl

theorem meters_addProg (p : Nat) {i : Nat} (n : Nat) (s : State) (hi : i < 8) : meters (addProg p i n s) = meters s := by
  rw [meters, rd_addProg_off _ _ _ hi (by decide) (by decide), rd_addProg_off _ _ _ hi (by decide) (by decide), addProg_mem, addProg_power]
  rfl

theorem meters_satInc (p : Nat) {o : Nat} (n : Nat) (s : State) (ho : o < 0x1000) (h0 : 0x110 ≠ o) (h8 : 0x118 ≠ o) :
    meters (satInc p o n s) = meters s := meters_wr p _ s ho h0 h8

theorem meters_tickFree (n : Nat) (s : State) : meters (tickFree n s) = meters s := rfl

theorem meters_setGated (d : Nat) (on : Bool) (s : State) : meters (setGated d on s) = meters s := by
  unfold setGated
  dsimp only
  split
  · rw [meters_event, meters_wr _ _ _ (by decide) (by decide) (by decide)]
  · rw [meters_wr _ _ _ (by decide) (by decide) (by decide)]

theorem meters_countGated (d us : Nat) (s : State) : meters (countGated d us s) = meters s := by
  rw [countGated, meters_addProg _ _ _ (by decide), meters_satInc _ _ _ (by decide) (by decide) (by decide)]

theorem meters_periodGate (excess : Bool) (s : State) (d : Nat) : meters (periodGate excess s d) = meters s := by
  unfold periodGate
  split
  · rw [meters_countGated, meters_setGated]
  · split
    · rw [meters_countGated, meters_setGated, meters_tickFree]
    · exact meters_setGated d false s

theorem meters_setClocks (s : State) : meters (setClocks s) = meters s := by
  rw [meters, rd_setClocks _ (by decide) (by decide) (by decide) (by decide), rd_setClocks _ (by decide) (by decide) (by decide) (by decide),
    setClocks_mem, setClocks_power]
  rfl

/-- One die's part of a control period. -/
def periodDie (m : BlkMeas) (s : State) (d : Nat) : State :=
  freeBounds (memHotStep (m.hot.contains d) (wr (pPwrtherm d) 0x114 (BitVec.ofNat 32 (m.dies.getD d 0 % 65536)) s) d) d

theorem freeBounds_eq (s : State) (d : Nat) :
    ∃ a c, freeBounds s d = setDieB d { dieB s d with therm := a, cap := c } (tickFree 2 s) := ⟨_, _, rfl⟩

theorem memHotStep_eq (hot : Bool) (s : State) (d : Nat) : ∃ b, memHotStep hot s d = setDieB d b s := by
  unfold memHotStep
  dsimp only
  split
  · exact ⟨_, rfl⟩
  · split
    · exact ⟨_, rfl⟩
    · exact ⟨_, rfl⟩

/-- A hot die's bound falls by 32, at least to 332. -/
theorem memHot_memHotStep (s : State) (d : Nat) : (dieB (memHotStep true s d) d).memHot = max 332 ((dieB s d).memHot - 32) := by
  rw [memHotStep, if_pos rfl, dieB_setDieB_same]

theorem memHot_freeBounds (s : State) (d e : Nat) : (dieB (freeBounds s d) e).memHot = (dieB s e).memHot := by
  obtain ⟨a, c, h⟩ := freeBounds_eq s d
  rw [h]
  exact dieB_field DieBounds.memHot (s := tickFree 2 s) (b := { dieB s d with therm := a, cap := c }) rfl e

theorem memHot_periodDie {m : BlkMeas} {d : Nat} (hd : m.hot.contains d = true) (s : State) :
    (dieB (periodDie m s d) d).memHot = max 332 ((dieB s d).memHot - 32) := by
  rw [periodDie, memHot_freeBounds, hd, memHot_memHotStep, dieB_congr (wr_power ..)]

theorem dieB_memHotStep_ne (hot : Bool) (s : State) {d e : Nat} (h : e ≠ d) : dieB (memHotStep hot s e) d = dieB s d := by
  obtain ⟨b, hb⟩ := memHotStep_eq hot s e
  rw [hb, dieB_setDieB_ne _ _ h]

theorem memHot_periodDie_ne (m : BlkMeas) (s : State) {d e : Nat} (h : e ≠ d) : (dieB (periodDie m s e) d).memHot = (dieB s d).memHot := by
  rw [periodDie, memHot_freeBounds, dieB_memHotStep_ne _ _ h, dieB_congr (wr_power ..)]

/-- The measured input, memory and the input voltage. -/
def inputs (s : State) : Word × Word × List Cell × Nat :=
  ((meters s).1, (meters s).2.1, (meters s).2.2.1, (meters s).2.2.2.vin)

theorem inputs_of {t s : State} (h : meters t = meters s) : inputs t = inputs s := by rw [inputs, inputs, h]

theorem inputs_setDieB (d : Nat) (b : DieBounds) (s : State) : inputs (setDieB d b s) = inputs s := rfl

theorem inputs_periodDie (m : BlkMeas) (s : State) (d : Nat) : inputs (periodDie m s d) = inputs s := by
  rw [periodDie]
  obtain ⟨b, hb⟩ := memHotStep_eq (m.hot.contains d) (wr (pPwrtherm d) 0x114 (BitVec.ofNat 32 (m.dies.getD d 0 % 65536)) s) d
  rw [hb]
  obtain ⟨a, c, h⟩ := freeBounds_eq (setDieB d b (wr (pPwrtherm d) 0x114 (BitVec.ofNat 32 (m.dies.getD d 0 % 65536)) s)) d
  rw [h, inputs_setDieB, inputs_of (meters_tickFree _ _), inputs_setDieB, inputs_of (meters_wr _ _ _ (by decide) (by decide) (by decide))]

/-- The input as measured. -/
def measured (m : BlkMeas) (s : State) : State :=
  wr pBlocker 0x118 (BitVec.ofNat 32 (m.iin % 4096)) (wr pBlocker 0x110 (BitVec.ofNat 32 (m.pin % 65536)) { s with power := { s.power with vin := m.vin } })

/-- The bounds after the measurements. -/
def periodBounds (m : BlkMeas) (s : State) : State := (List.range 8).foldl (periodDie m) (measured m s)

/-- The shares, gates and clocks after the bounds. -/
def periodEnd (m : BlkMeas) (s : State) : State := setClocks ((List.range 8).foldl (periodGate m.excess) (setShares m s))

theorem blockerPeriod_runs (m : BlkMeas) {s : State} (hh : s.inHold = false) (hup : s.power.up = true) (hp : phase s = 5) :
    ∃ a b, blockerPeriod m s = addProg pBlocker 4 a (addProg pBlocker 7 b (addProg pBlocker 0 1 (periodEnd m (periodBounds m s)))) := by
  rw [blockerPeriod, if_neg (by simp [hh, hup, hp])]
  exact ⟨_, _, rfl⟩

theorem meters_periodEnd (m : BlkMeas) (s : State) : meters (periodEnd m s) = meters (setShares m s) := by
  rw [periodEnd, meters_setClocks]
  exact foldl_keeps meters (meters_periodGate m.excess) _ _

theorem setShares_eq (m : BlkMeas) (s : State) : ∃ l : List Nat, l.length = 11
    ∧ setShares m s = tickFree 9 { s with power := { s.power with shares := l } } := by
  refine ⟨_, ?_, rfl⟩
  rw [List.length_append, List.length_map, List.length_range]
  rfl

/-- What stands after the bounds of a period. -/
theorem periodBounds_facts (m : BlkMeas) (s : State) :
    inputs (periodBounds m s) = (BitVec.ofNat 32 (m.pin % 65536), BitVec.ofNat 32 (m.iin % 4096), s.mem, m.vin)
      ∧ ∀ d, d < 8 → m.hot.contains d = true → (dieB (periodBounds m s) d).memHot = max 332 ((dieB s d).memHot - 32) := by
  constructor
  · refine (foldl_keeps inputs (inputs_periodDie m) _ _).trans ?_
    rw [inputs, meters, measured, rd_wr_off _ _ (by decide) (by decide) (by decide), rd_wr_same, rd_wr_same, wr_mem, wr_mem, wr_power, wr_power]
  · intro d hd hhot
    refine (foldl_once (f := periodDie m) (g := fun t => (dieB t d).memHot) (R := fun _ => True) (v := fun n => max 332 (n - 32))
      (fun _ _ _ => trivial) (fun t _ => memHot_periodDie hhot t) (fun t e he => memHot_periodDie_ne m t he) (List.mem_range.mpr hd)
      List.nodup_range trivial).trans ?_
    have hb : dieB (measured m s) d = dieB s d := by
      rw [measured, dieB_congr (wr_power ..), dieB_congr (wr_power ..)]
      rfl
    rw [hb]

end Sys2Proof.Machine
end

section
/-! SUPPORT. Droops, the cap, phase models and energy (16_power.md R739, R740, R744, R748, R752, R753). -/

namespace Sys2Proof.Machine

/-! ### 64-bit counters -/

theorem rd64_add64_same (p : Nat) {o : Nat} (n : Nat) (s : State) (ho : o + 4 < 0x1000) : rd64 (add64 p o n s) p o = (rd64 s p o + n) % 2 ^ 64 := by
  have hlo : rdB (add64 p o n s) 0 p o = BitVec.ofNat 32 ((rd64 s p o + n) % 2 ^ 64) :=
    (rd_wr_off _ _ ho (by omega) (by omega)).trans (rd_wr_same _ _ _ _)
  have hhi : rdB (add64 p o n s) 0 p (o + 4) = BitVec.ofNat 32 ((rd64 s p o + n) % 2 ^ 64 / 0x100000000) := rd_wr_same _ _ _ _
  rw [rd64, rd64B, hlo, hhi, BitVec.toNat_ofNat, BitVec.toNat_ofNat]
  omega

theorem rd_add64_page {p q : Nat} {o x : Nat} (n : Nat) (s : State) (ho : o + 4 < 0x1000) (hx : x < 0x1000) (h : q ≠ p) :
    rd (add64 p o n s) q x = rd s q x := (rd_wr_page _ _ ho hx h).trans (rd_wr_page s _ (by omega) hx h)

/-! ### DROOP (R739) -/

/-- The threshold of a die's droops, in mV. -/
def droopThreshold (d : Nat) (s : State) : Nat :=
  if fld (rd s (pPwrtherm d + 1) 0x100) 7 0 = 0 then 40 else fld (rd s (pPwrtherm d + 1) 0x100) 7 0

/-- The state with a droop and its cycles counted. -/
def droopCounted (d c : Nat) (s : State) : State := add64 (pPwrtherm d + 1) 0x108 c (satInc (pPwrtherm d + 1) 0x104 1 s)

theorem droop_counts {d mv c : Nat} {s : State} (hd : d < 8) (hh : s.inHold = false) (hup : s.power.up = true)
    (hon : bitOf (rd s (pPwrtherm d + 1) 0x100) 9 = true) (hdeep : mv + droopThreshold d s ≤ fld (rd s (pPwrtherm d) 0x104) 9 0) :
    droop d mv c s = addProg (pPwrtherm d) 7 1 (wr (pPwrtherm d + 1) 0x110
      (BitVec.ofNat 32 (min (fld (rd (droopCounted d c s) (pPwrtherm d + 1) 0x110) 9 0) mv)) (droopCounted d c s)) := by
  have hrun : ¬(8 ≤ d ∨ s.inHold = true ∨ (!s.power.up) = true ∨ (!bitOf (rd s (pPwrtherm d + 1) 0x100) 9) = true
      ∨ fld (rd s (pPwrtherm d) 0x104) 9 0 < mv + droopThreshold d s) := by
    simp only [hh, hup, hon, Bool.not_true, Bool.false_eq_true, false_or, not_or, not_lt, not_le]
    exact ⟨hd, hdeep⟩
  exact if_neg hrun

theorem regsOnly_droopCounted (d c : Nat) (s : State) : RegsOnly (droopCounted d c s) s := (regsOnly_add64 _ _ _ _).trans (regsOnly_wr _ _ _ s)

theorem rd_droopCounted_off (d c : Nat) (s : State) {q x : Nat} (hx : x < 0x1000) (h4 : x ≠ 0x104) (h8 : x ≠ 0x108) (hc : x ≠ 0x10C) :
    rd (droopCounted d c s) q x = rd s q x := (rd_wr64_off _ _ (by decide) hx h8 hc).trans (rd_wr_off s _ (by decide) hx h4)

theorem droopCounted_events (d c : Nat) (s : State) :
    rd (droopCounted d c s) (pPwrtherm d + 1) 0x104 = sat32 ((rd s (pPwrtherm d + 1) 0x104).toNat + 1)
      ∧ rd64 (droopCounted d c s) (pPwrtherm d + 1) 0x108 = (rd64 s (pPwrtherm d + 1) 0x108 + c) % 2 ^ 64 := by
  constructor
  · exact (rd_wr64_off _ _ (by decide) (by decide) (by decide) (by decide)).trans (rd_wr_same s _ _ _)
  · rw [droopCounted, rd64_add64_same _ _ _ (by decide)]
    have hbefore : rd64 (satInc (pPwrtherm d + 1) 0x104 1 s) (pPwrtherm d + 1) 0x108 = rd64 s (pPwrtherm d + 1) 0x108 :=
      rd64_of (rd_wr_off s _ (by decide) (by decide) (by decide)) (rd_wr_off s _ (by decide) (by decide) (by decide))
    rw [hbefore]

/-- What a droop counts and keeps. -/
theorem droop_facts {d mv c : Nat} {s t : State} (ht : t = addProg (pPwrtherm d) 7 1 (wr (pPwrtherm d + 1) 0x110
      (BitVec.ofNat 32 (min (fld (rd (droopCounted d c s) (pPwrtherm d + 1) 0x110) 9 0) mv)) (droopCounted d c s))) :
    t = { s with regs := t.regs } ∧ rd t (pPwrtherm d + 1) 0x104 = sat32 ((rd s (pPwrtherm d + 1) 0x104).toNat + 1)
      ∧ rd64 t (pPwrtherm d + 1) 0x108 = (rd64 s (pPwrtherm d + 1) 0x108 + c) % 2 ^ 64
      ∧ rd t (pPwrtherm d + 1) 0x110 = BitVec.ofNat 32 (min (fld (rd s (pPwrtherm d + 1) 0x110) 9 0) mv) := by
  obtain ⟨hcount, hcycles⟩ := droopCounted_events d c s
  have hoff {x : Nat} (hx : x < 0x1000) (hlo : 0x80 ≤ x) (h : x ≠ 0x110) : rd t (pPwrtherm d + 1) x = rd (droopCounted d c s) (pPwrtherm d + 1) x := by
    rw [ht, rd_addProg_off _ _ _ (by decide) hx (.inr hlo), rd_wr_off _ _ (by decide) hx h]
  refine ⟨RegsOnly.eq ?_, (hoff (by decide) (by decide) (by decide)).trans hcount,
    (rd64_of (hoff (by decide) (by decide) (by decide)) (hoff (by decide) (by decide) (by decide))).trans hcycles, ?_⟩
  · rw [ht]
    exact (regsOnly_addProg _ _ _ _).trans ((regsOnly_wr _ _ _ _).trans (regsOnly_droopCounted d c s))
  · rw [ht, rd_addProg_off _ _ _ (by decide) (by decide) (by decide), rd_wr_same,
      rd_droopCounted_off _ _ _ (by decide) (by decide) (by decide) (by decide)]

/-! ### The cap (R740, R744) -/

/-- The word of THROTTLE_N's count and level. -/
def throttleWord (on : Bool) (n : Nat) : Word := if on then BitVec.ofNat 32 (1 + 4 * min (n + 1) 0x3FFFFFFF) else BitVec.ofNat 32 (4 * n)

theorem bitOf_throttleWord (on : Bool) (n : Nat) : bitOf (throttleWord on n) 0 = on := by
  cases on
  · simp only [throttleWord, bitOf, BitVec.toNat_ofNat, Bool.false_eq_true, if_false, beq_eq_false_iff_ne]
    omega
  · simp only [throttleWord, bitOf, BitVec.toNat_ofNat, if_true, beq_iff_eq]
    omega

/-- The state in which a change of THROTTLE_N has been taken. -/
def throttled (on : Bool) (s : State) : State :=
  event pBlocker 1 (wr pBlocker 0x170 (throttleWord on (fld (rd s pBlocker 0x170) 31 2)) { s with power := { s.power with throttle := on } })

/-- The assertions are counted. -/
def throttleCounted (on : Bool) (s : State) : State := if on then addProg pBlocker 6 1 s else s

theorem throttleCounted_keeps (on : Bool) (s : State) : (throttleCounted on s).power = s.power ∧ (throttleCounted on s).mem = s.mem
    ∧ rd (throttleCounted on s) pBlocker 0x170 = rd s pBlocker 0x170 ∧ EvtGrows (throttleCounted on s) s := by
  unfold throttleCounted
  split
  · exact ⟨addProg_power _ _ _ _, addProg_mem _ _ _ _, rd_addProg_off _ _ _ (by decide) (by decide) (by decide),
      evtGrows_addProg _ _ _ (by decide)⟩
  · exact ⟨rfl, rfl, rfl, .refl s⟩

theorem throttleN_changes {on : Bool} {s : State} (hup : s.power.up = true) (h : s.power.throttle ≠ on) :
    throttleN on s = setClocks (capSync (throttleCounted on (throttled on s))) := by
  rw [throttleN, if_neg (by simp [hup, h])]
  rfl

theorem throttled_facts (on : Bool) (s : State) : (throttled on s).power = { s.power with throttle := on }
    ∧ bitOf (rd (throttled on s) pBlocker 0x170) 0 = on ∧ bitOf (rd (throttled on s) pBlocker 0x10) 1 = true ∧ (throttled on s).mem = s.mem := by
  refine ⟨?_, ?_, bitOf_event (by decide) _ _, ?_⟩
  · rw [throttled, event_power, wr_power]
  · rw [throttled, rd_event _ _ _ (by decide) (by decide) (by decide), rd_wr_same, bitOf_throttleWord]
  · rw [throttled, event_mem, wr_mem]

/-- With THROTTLE_N asserted the cap is at most 1,200 W. -/
theorem capOf_throttled {s : State} (h : s.power.throttle = true) : (capOf s).1 ≤ 1200 := by
  unfold capOf
  dsimp only
  generalize (if s.mmc.cap < fld (rd s pBlocker 0x100) 12 0 then (s.mmc.cap, 1) else (fld (rd s pBlocker 0x100) 12 0, 0)) = b
  split
  · exact Nat.le_refl _
  · rename_i hc
    exact not_lt.mp fun hlt => hc ⟨h, hlt⟩

theorem fld_setCap (s : State) : fld (rd (setCap s) pBlocker 0x10C) 12 0 = (capOf s).1 % 8192 := by
  rw [setCap, rd_wr_same, fld_setFld_ne _ _ (by decide) (by decide) (by decide) (by decide), fld_setFld_ne _ _ (by decide) (by decide) (by decide) (by decide),
    fld_setFld_ne _ _ (by decide) (by decide) (by decide) (by decide), fld_setFld_same _ _ (by decide) (by decide)]
  rfl

theorem capSync_facts {s : State} (hh : s.inHold = false) (hup : s.power.up = true) :
    fld (rd (capSync s) pBlocker 0x10C) 12 0 = (capOf s).1 % 8192 ∧ (capSync s).power = s.power ∧ (capSync s).mem = s.mem := by
  rw [capSync, if_neg (by simp [hh, hup])]
  have hpower : (setCap s).power = s.power := wr_power ..
  have hmem : (setCap s).mem = s.mem := wr_mem ..
  dsimp only
  split
  · exact ⟨fld_setCap s, hpower, hmem⟩
  · rw [rd_event _ _ _ (by decide) (by decide) (by decide), event_power, event_mem]
    exact ⟨fld_setCap s, hpower, hmem⟩

/-! ### Phase models (R748) -/

theorem average_rounds (b : Bool) (x n : Nat) : ∃ r ≤ 15, average b x n = (15 * x + n + r) / 16 := by
  cases b
  · exact ⟨0, by decide, rfl⟩
  · exact ⟨15, by decide, rfl⟩

/-- The state with a phase's model set. -/
def withModel (slice tag : Nat) (m : PhaseModel) (s : State) : State :=
  { s with power := { s.power with models := sput (fun _ => ({} : PhaseModel)) s.power.models (slice * 256 + tag) m } }

theorem phaseModel_withModel_same (slice tag : Nat) (m : PhaseModel) (s : State) : phaseModel (withModel slice tag m s) slice tag = m :=
  sget_sput_same _ _ _ _

theorem phaseModel_withModel_ne {slice tag a b : Nat} (m : PhaseModel) (s : State) (ht : tag < 256) (hb : b < 256) (h : a ≠ slice ∨ b ≠ tag) :
    phaseModel (withModel slice tag m s) a b = phaseModel s a b := sget_sput_ne _ _ _ (by omega)

/-- The model of a phase after a sample. -/
def sampled (power sens r : Nat) (m : PhaseModel) : PhaseModel :=
  { pnom := min 65535 (average (nbit r 0) m.pnom power), sens := min 256 (average (nbit r 1) m.sens sens), samples := min 127 (m.samples + 1) }

theorem phaseModelUpdate_runs {slice tag : Nat} (power sens : Nat) {s : State} (hsl : slice < 64) (ht : tag < 256) (hh : s.inHold = false)
    (hp : phase s = 5) : phaseModelUpdate slice tag power sens s
      = tickFree 1 (withModel slice tag (sampled power sens (freeVal s).toNat (phaseModel s slice tag)) s) := by
  rw [phaseModelUpdate, if_neg (by simp [hh, hp]; omega)]
  rfl

theorem phaseModel_tickFree (n : Nat) (s : State) (a b : Nat) : phaseModel (tickFree n s) a b = phaseModel s a b := rfl

/-! ### Energy (R752, R753) -/

theorem find_map_cmd (l : List Cmd) (ring no : Nat) {f : Cmd → Cmd} (hf : ∀ c, (f c).ring = c.ring ∧ (f c).no = c.no) :
    (l.map fun c => if c.ring = ring ∧ c.no = no then f c else c).find? (fun c => c.ring == ring && c.no == no)
      = (l.find? fun c => c.ring == ring && c.no == no).map f := by
  induction l with
  | nil => rfl
  | cons a l ih =>
    by_cases h : a.ring = ring ∧ a.no = no
    · simp [h, hf]
    · have hb : (a.ring == ring && a.no == no) = false := by simpa using h
      rw [List.map_cons, if_neg h, List.find?_cons_of_neg (by simp [hb]), List.find?_cons_of_neg (by simp [hb]), ih]

/-- A change of a command that keeps its ring and number is what they find. -/
theorem findCmd_updCmd {ring no : Nat} {f : Cmd → Cmd} (hf : ∀ c, (f c).ring = c.ring ∧ (f c).no = c.no) (s : State) :
    findCmd (updCmd ring no f s) ring no = (findCmd s ring no).map f := find_map_cmd s.disp.cmds ring no hf

/-- What charging a command leaves: registers, memory, the module's fraction and the uncharged energy. -/
def uncharged (s : State) : List (Nat × Word) × List Cell × Nat × Nat := (s.regs, s.mem, s.power.moduleFrac, s.power.uncharged)

/-- The command with an energy charged. -/
def chargedCmd (e : Nat) (c : Cmd) : Cmd := { c with energy := c.energy + (c.frac + e) / 1000000, frac := (c.frac + e) % 1000000 }

theorem chargeCmd_found {ring no : Nat} (e : Nat) {s : State} {c : Cmd} (h : findCmd s ring no = some c) :
    findCmd (chargeCmd ring no e s) ring no = some (chargedCmd e c) ∧ uncharged (chargeCmd ring no e s) = uncharged s := by
  rw [chargeCmd, h]
  dsimp only
  constructor
  · refine (findCmd_updCmd (f := fun x => { x with energy := x.energy + (c.frac + e) / 1000000, frac := (c.frac + e) % 1000000 })
      (fun _ => ⟨rfl, rfl⟩) s).trans ?_
    rw [h]
    rfl
  · rfl

theorem unchargeE_facts (e : Nat) (s : State) : rd64 (unchargeE e s) pBlocker 0x120 = rd64 s pBlocker 0x120
    ∧ (unchargeE e s).power = { s.power with uncharged := (s.power.uncharged + e) % 1000000 } ∧ (unchargeE e s).mem = s.mem
    ∧ (unchargeE e s).disp = s.disp := by
  unfold unchargeE
  dsimp only
  generalize (s.power.uncharged + e) / 1000000 = n, (s.power.uncharged + e) % 1000000 = f
  refine ⟨rd64_of ?_ ?_, add64_power .., add64_mem .., add64_disp ..⟩
  · exact rd_wr64_off _ { s with power := { s.power with uncharged := f } } (by decide) (by decide) (by decide) (by decide)
  · exact rd_wr64_off _ { s with power := { s.power with uncharged := f } } (by decide) (by decide) (by decide) (by decide)

/-- The whole pJ count as µJ, the rest stays as a fraction. -/
theorem chargedCmd_zero {e : Nat} (c : Cmd) : chargedCmd 0 (chargedCmd e c) = chargedCmd e c := by
  have hdiv : ((c.frac + e) % 1000000 + 0) / 1000000 = 0 := by omega
  have hmod : ((c.frac + e) % 1000000 + 0) % 1000000 = (c.frac + e) % 1000000 := by omega
  unfold chargedCmd
  dsimp only
  rw [hdiv, hmod, Nat.add_zero]

/-- The module's energy and the dies', counted. -/
def energyCounted (total : Nat) (dies : List Nat) (s : State) : State :=
  (List.range 8).foldl (fun t d => add64 (pPwrtherm d) 0x120 (dies.getD d 0) t)
    (add64 pBlocker 0x120 ((s.power.moduleFrac + total) / 1000000)
      { s with power := { s.power with moduleFrac := (s.power.moduleFrac + total) % 1000000 } })

theorem energyCounted_facts (total : Nat) (dies : List Nat) (s : State) :
    rd64 (energyCounted total dies s) pBlocker 0x120 = (rd64 s pBlocker 0x120 + (s.power.moduleFrac + total) / 1000000) % 2 ^ 64
      ∧ (energyCounted total dies s).power = { s.power with moduleFrac := (s.power.moduleFrac + total) % 1000000 }
      ∧ (energyCounted total dies s).mem = s.mem ∧ (energyCounted total dies s).disp = s.disp ∧ (energyCounted total dies s).inHold = s.inHold := by
  unfold energyCounted
  generalize (s.power.moduleFrac + total) / 1000000 = n, (s.power.moduleFrac + total) % 1000000 = f
  refine ⟨?_, ?_, ?_, ?_, ?_⟩
  · refine (foldl_keeps (rd64 · pBlocker 0x120) (fun t d => ?_) _ _).trans (rd64_add64_same _ _ _ (by decide))
    exact rd64_of (rd_add64_page _ _ (by decide) (by decide) (pPwrtherm_ne_pBlocker d))
      (rd_add64_page _ _ (by decide) (by decide) (pPwrtherm_ne_pBlocker d))
  · exact (foldl_keeps State.power (fun t d => add64_power t _ _ _) _ _).trans (add64_power _ _ _ _)
  · exact (foldl_keeps State.mem (fun t d => add64_mem t _ _ _) _ _).trans (add64_mem _ _ _ _)
  · exact (foldl_keeps State.disp (fun t d => add64_disp t _ _ _) _ _).trans (add64_disp _ _ _ _)
  · exact (foldl_keeps State.inHold (fun t d => add64_inHold t _ _ _) _ _).trans (add64_inHold _ _ _ _)

/-- A lone charged command gets all of the energy but Holog's own. -/
theorem energyInterval_lone {total own ring no e : Nat} (dies : List Nat) {s : State} {c : Cmd} (hup : s.power.up = true) (hh : s.inHold = false)
    (hc : findCmd s ring no = some c) (hopen : c.status = none) (he : 0 < e) (hle : own + e ≤ total) :
    energyInterval total own [(ring, no, e)] dies s
      = unchargeE own (chargeCmd ring no 0 (chargeCmd ring no (total - own) (energyCounted total dies s))) := by
  have hrun : ¬((!s.power.up) = true ∨ total < own + (0 + e)) := by
    simp only [hup, Bool.not_true, Bool.false_eq_true, false_or, not_lt]
    omega
  have hshare : e + (total - own - (0 + e)) * e / (0 + e) = total - own := by
    rw [Nat.zero_add, Nat.mul_div_cancel _ he]
    omega
  have hrest : total - own - (0 + (total - own)) = 0 := by omega
  have hcharge : ¬(s.inHold = true ∨ 0 + e = 0) := by
    rintro (h | h)
    · exact absurd (h.symm.trans hh) (by decide)
    · omega
  rw [energyInterval]
  dsimp only
  generalize hlive : List.filter _ [(ring, no, e)] = live
  obtain rfl : [(ring, no, e)] = live := by simp [← hlive, hc, hopen]
  dsimp only [List.foldl_cons, List.foldl_nil, List.map_cons, List.map_nil, List.zip_cons_cons, List.zip_nil_left]
  refine (if_neg hrun).trans ((if_neg hcharge).trans ?_)
  simp only [List.map_cons, List.map_nil, List.zip_cons_cons, List.zip_nil_left, List.foldl_cons, List.foldl_nil, hshare, hrest]
  rfl

end Sys2Proof.Machine
end

section
/-! PROOFS. The statement on Blocker's clocks, caps, phase models and energy. -/

namespace Sys2Proof.Machine

/-- Settles O55: setting the other dies' clocks leaves what a die's clock is computed from; each of the other clauses follows what its command
writes. The bound of a clamped die is the model's reading (assumption log 60). -/
theorem blockerClocksCapsAndEnergy : Obligations.BlockerClocksCapsAndEnergy := by
  unfold Obligations.BlockerClocksCapsAndEnergy
  refine ⟨fun s hh hup hp d hd => ⟨tclkN_setClocks hh hup hp hd, dieClock_clamped⟩,
    fun s d x l hd hup hx => ⟨fun ht hc => ?clampOn, fun ht hc => ?clampOff⟩,
    fun s s1 l hs1 hup => ⟨fun hh => ?gradHold, fun hh hp => ?gradient⟩, fun s m hh hup hp => ?period,
    fun s d mv c hd hh hup hon hdeep => ⟨_, congrArg Host.Outcome.next (droop_counts hd hh hup hon hdeep), droop_facts rfl⟩,
    fun s on hup hne => ?throttle, fun s ht hb => ?stuck, fun s hh hup => capSync_facts hh hup, fun s w => ⟨fun hlo hhi => ?cap, fun hbad => ?capBad⟩,
    fun s sl tag p n hsl htag hh hp => ?model, fun s total own ring no e dies c hup hh hc hopen he hle => ?energy⟩
  case clampOn => exact ⟨clamped d l s, congrArg Host.Outcome.next (clamp105_begins hd hup hx ht hc), clamped_facts l s hd⟩
  case clampOff =>
    refine ⟨_, congrArg Host.Outcome.next (clamp105_ends hd hup hx ht hc), ?_, rfl⟩
    rw [dieB_setDieB_same]
  case gradHold =>
    subst hs1
    refine congrArg Host.Outcome.next ((if_neg (by simp [hup])).trans (if_pos (.inl hh)))
  case gradient =>
    obtain ⟨htemps, hmem, hdie⟩ := gradBounds_facts (hotDies (withTemps l s)) (withTemps l s)
    subst hs1
    exact ⟨_, congrArg Host.Outcome.next (gradientCheck_runs l hup hh hp), htemps, hmem, hdie⟩
  case period =>
    obtain ⟨a, b, hrun⟩ := blockerPeriod_runs m hh hup hp
    obtain ⟨hin, hhot⟩ := periodBounds_facts m s
    obtain ⟨l, hl, hshares⟩ := setShares_eq m (periodBounds m s)
    have hmeters : meters (blockerPeriod m s) = meters (setShares m (periodBounds m s)) := by
      rw [hrun, meters_addProg _ _ _ (by decide), meters_addProg _ _ _ (by decide), meters_addProg _ _ _ (by decide), meters_periodEnd]
    rw [hshares] at hmeters
    simp only [meters, Prod.mk.injEq] at hmeters
    obtain ⟨h110, h118, hmem, hpower⟩ := hmeters
    simp only [inputs, meters, Prod.mk.injEq] at hin
    obtain ⟨hin110, hin118, hinmem, hvin⟩ := hin
    refine ⟨_, rfl, h110.trans hin110, h118.trans hin118, ?_, ?_, hmem.trans hinmem, fun d hd hh => ?_⟩
    · exact (congrArg PowerSt.vin hpower).trans hvin
    · exact (congrArg (fun p : PowerSt => p.shares.length) hpower).trans hl
    · rw [dieB, hpower]
      exact hhot d hd hh
  case throttle =>
    obtain ⟨hpower, hbit, hevent, hmem⟩ := throttled_facts on s
    obtain ⟨hpower', hmem', hword, hgrows⟩ := throttleCounted_keeps on (throttled on s)
    refine ⟨throttleCounted on (throttled on s), congrArg Host.Outcome.next (throttleN_changes hup hne), hpower'.trans hpower, ?_,
      hgrows.bit hevent, hmem'.trans hmem, fun hon => capOf_throttled ?_⟩
    · rw [hword, hbit]
    · rw [hpower', hpower, hon]
  case stuck =>
    refine ⟨event pBlocker 2 (wr pBlocker 0x170 (rd s pBlocker 0x170 ||| 2) s), congrArg Host.Outcome.next (if_neg (by simp [ht, hb])), ?_, ?_,
      bitOf_event (by decide) _ _, ?_⟩
    · rw [event_power, wr_power]
    · rw [rd_event _ _ _ (by decide) (by decide) (by decide), rd_wr_same, bitOf_or]
      exact Bool.or_eq_true_iff.mpr (.inr rfl)
    · rw [event_mem, wr_mem]
  case cap => exact congrArg Host.Outcome.next (if_neg (by omega))
  case capBad =>
    refine ⟨_, congrArg Host.Outcome.next (if_pos hbad), bitOf_event (by decide) _ _, rd_event _ _ _ (by decide) (by decide) (by decide),
      event_power _ _ _⟩
  case model =>
    refine ⟨_, congrArg Host.Outcome.next (phaseModelUpdate_runs p n hsl htag hh hp), rfl, ?_, ?_, ?_, fun a b hb hne => ?_⟩
    · rw [phaseModel_tickFree, phaseModel_withModel_same, sampled]
    · obtain ⟨r, hr, h⟩ := average_rounds (nbit (freeVal s).toNat 0) (phaseModel s sl tag).pnom p
      refine ⟨r, hr, ?_⟩
      rw [phaseModel_tickFree, phaseModel_withModel_same, sampled, h]
    · obtain ⟨r, hr, h⟩ := average_rounds (nbit (freeVal s).toNat 1) (phaseModel s sl tag).sens n
      refine ⟨r, hr, ?_⟩
      rw [phaseModel_tickFree, phaseModel_withModel_same, sampled, h]
    · rw [phaseModel_tickFree, phaseModel_withModel_ne _ _ htag hb hne]
  case energy =>
    obtain ⟨hcount, hpower, hmem, hdisp, -⟩ := energyCounted_facts total dies s
    have hc' : findCmd (energyCounted total dies s) ring no = some c := by rw [findCmd, hdisp]; exact hc
    obtain ⟨hfirst, hside⟩ := chargeCmd_found (total - own) hc'
    obtain ⟨hsecond, hside'⟩ := chargeCmd_found 0 hfirst
    rw [chargedCmd_zero] at hsecond
    have hcharged := hside'.trans hside
    refine ⟨_, congrArg Host.Outcome.next (energyInterval_lone dies hup hh hc hopen he hle), ?_⟩
    generalize chargeCmd ring no 0 (chargeCmd ring no (total - own) (energyCounted total dies s)) = u at hsecond hcharged ⊢
    simp only [uncharged, Prod.mk.injEq] at hcharged
    obtain ⟨hregs, hmem', hfrac, hun⟩ := hcharged
    obtain ⟨hcount', hpower', hmem'', hdisp'⟩ := unchargeE_facts own u
    refine ⟨hcount'.trans ((rd64_of (rd_congr hregs _ _) (rd_congr hregs _ _)).trans hcount), ?_, ?_, hmem''.trans (hmem'.trans hmem),
      chargedCmd (total - own) c, ?_, rfl, rfl⟩
    · rw [hpower', hfrac, hpower]
    · rw [hpower', hun, hpower]
    · rw [findCmd, hdisp']
      exact hsecond

end Sys2Proof.Machine
end

section
/-! SUPPORT. The boot ROM, device reset and the host link (15_recovery.md R715, R716; 16_power.md R722; 17_firmware.md R778 to R799;
18_interfaces.md R811, R827): what each leaves in BOOT_STAT, and what a device reset empties. -/

namespace Sys2Proof.Machine

/-! ### BOOT_STAT (R808) -/

theorem quiet_setBootStat (ph code die : Nat) (s : State) : Quiet (setBootStat ph code die s) s := quiet_wr _ _ _ s

theorem fld_bootWord (ph code die : Nat) : fld (BitVec.ofNat 32 (ph % 8 + 0x100 * (code % 256) + 0x10000 * (die % 16))) 2 0 = ph % 8 := by
  simp only [fld, BitVec.toNat_ofNat]
  omega

theorem fld_bootCode (ph code die : Nat) : fld (BitVec.ofNat 32 (ph % 8 + 0x100 * (code % 256) + 0x10000 * (die % 16))) 15 8 = code % 256 := by
  simp only [fld, BitVec.toNat_ofNat]
  omega

theorem rd_setBootStat (ph code die : Nat) (s : State) :
    rd (setBootStat ph code die s) pBoot 0x100 = BitVec.ofNat 32 (ph % 8 + 0x100 * (code % 256) + 0x10000 * (die % 16)) := rd_wr_same _ _ _ _

theorem rd_setBootStat_off (ph code die : Nat) (s : State) {q x : Nat} (hx : x < 0x1000) (h : x ≠ 0x100) :
    rd (setBootStat ph code die s) q x = rd s q x := rd_wr_off s _ (by decide) hx h

theorem rd_setBootStat_page (ph code die : Nat) (s : State) {q x : Nat} (hx : x < 0x1000) (h : q ≠ pBoot) :
    rd (setBootStat ph code die s) q x = rd s q x := rd_wr_page s _ (by decide) hx h

theorem phase_of {t : State} {w : Word} (h : rd t pBoot 0x100 = w) : phase t = fld w 2 0 := by rw [phase, h]

theorem phase_congr {t s : State} (h : rd t pBoot 0x100 = rd s pBoot 0x100) : phase t = phase s := phase_of h

theorem phase_setBootStat (ph code die : Nat) (s : State) : phase (setBootStat ph code die s) = ph % 8 :=
  (phase_of (rd_setBootStat ph code die s)).trans (fld_bootWord ph code die)

/-- A refusal to start leaves its code and die, and its event. -/
theorem bootStop_facts (code die : Nat) (s : State) :
    rd (bootStop code die s) pBoot 0x100 = BitVec.ofNat 32 (6 + 0x100 * (code % 256) + 0x10000 * (die % 16))
      ∧ bitOf (rd (bootStop code die s) pBoot 0x10) 1 = true ∧ (bootStop code die s).mem = s.mem := by
  refine ⟨?_, bitOf_event (by decide) _ _, ?_⟩
  · rw [bootStop, rd_event _ _ _ (by decide) (by decide) (by decide), rd_setBootStat]
  · rw [bootStop, event_mem, setBootStat, wr_mem]

theorem quiet_bootStop (code die : Nat) (s : State) : Quiet (bootStop code die s) s := (quiet_event _ _ _).trans (quiet_setBootStat _ _ _ s)

/-! ### The boot window opens (R781, R784) -/

theorem quiet_maybeWait (s : State) : Quiet (maybeWait s) s := by
  unfold maybeWait
  split
  · exact quiet_setBootStat _ _ _ s
  · exact .refl s

theorem rd_maybeWait_off (s : State) {q x : Nat} (hx : x < 0x1000) (h : x ≠ 0x100) : rd (maybeWait s) q x = rd s q x := by
  unfold maybeWait
  split
  · exact rd_setBootStat_off _ _ _ s hx h
  · rfl

theorem rd_maybeWait_page (s : State) {q x : Nat} (hx : x < 0x1000) (h : q ≠ pBoot) : rd (maybeWait s) q x = rd s q x := by
  unfold maybeWait
  split
  · exact rd_setBootStat_page _ _ _ s hx h
  · rfl

theorem phase_maybeWait {s : State} (h : phase s = 1) : phase (maybeWait s) = 1 ∨ phase (maybeWait s) = 2 := by
  unfold maybeWait
  split
  · exact .inr (phase_setBootStat 2 0 0 s)
  · exact .inl h

/-- With every site found and the link up the ROM waits for the image. -/
theorem phase_maybeWait_opens {s : State} (hp : phase s = 1) (hh : s.inHold = false) (hf : s.boot.toFind = [])
    (hl : bitOf (rd s pHostif 0x100) 13 = true) : phase (maybeWait s) = 2 := by
  rw [maybeWait, if_pos ⟨hp, by simp [hh], hf, hl⟩]
  exact phase_setBootStat 2 0 0 s

/-! ### The ROM (R782, R783, R790, R799) -/

theorem rd_wrNorN (a : Nat) (l : List Byte) (s : State) (q x : Nat) : rd (wrNorN a l s) q x = rd s q x := by
  rw [wrNorN_eq]
  rfl

theorem rd_norProgram (a : Nat) (l : List Byte) (s : State) {q x : Nat} (hx : x < 0x1000) (h : 0x80 ≤ x) : rd (norProgram a l s) q x = rd s q x := by
  rw [norProgram, rd_addProg_off _ _ _ (by decide) hx (.inr h), rd_wrNorN]

theorem rd_norErase (a n : Nat) (s : State) {q x : Nat} (hx : x < 0x1000) (h : 0x80 ≤ x) : rd (norErase a n s) q x = rd s q x :=
  (rd_addProg_off pJournal (i := 0) _ (eraseNor a n s) (by decide) hx (.inr h)).trans (rd_congr rfl q x)

theorem quietNor_norErase (a n : Nat) (s : State) : QuietNor (norErase a n s) s :=
  (quiet_addProg pJournal 0 (n / 4096) (eraseNor a n s)).nor_of.trans (quietNor_set _ s)

/-- A half of the boot counts that is entered is erased first. -/
def bootHalf (s : State) : State :=
  if s.nor.bootEntries % 8192 % 4096 = 0 then norErase (0x10000 + 8 * (s.nor.bootEntries % 8192)) 0x8000 s else s

/-- The NOR with the boots counted. -/
def withBoots (n : Nat) (s : State) : State := { s with nor := { s.nor with boots := n, bootEntries := s.nor.bootEntries + 1 } }

theorem countBoot_eq (s : State) : countBoot s = withBoots (s.nor.boots + 1) (norProgram (0x10000 + 8 * (s.nor.bootEntries % 8192))
    (leBytes 4 (s.nor.boots + 1) ++ leBytes 4 (0xFFFFFFFF - (s.nor.boots + 1) % 0x100000000)) (bootHalf s)) := rfl

theorem quietNor_countBoot (s : State) : QuietNor (countBoot s) s := by
  have hhalf : QuietNor (bootHalf s) s := by
    unfold bootHalf
    split
    · exact quietNor_norErase _ _ s
    · exact .refl s
  rw [countBoot_eq]
  exact (quietNor_set _ _).trans ((quietNor_norProgram _ _ _).trans hhalf)

theorem rd_countBoot (s : State) {q x : Nat} (hx : x < 0x1000) (h : 0x80 ≤ x) : rd (countBoot s) q x = rd s q x := by
  have hhalf : rd (bootHalf s) q x = rd s q x := by
    unfold bootHalf
    split
    · exact rd_norErase _ _ s hx h
    · rfl
  rw [countBoot_eq]
  exact (rd_congr rfl q x).trans ((rd_norProgram _ _ _ hx h).trans hhalf)

theorem countBoot_boots (s : State) : (countBoot s).nor.boots = s.nor.boots + 1 := by rw [countBoot_eq, withBoots]

/-- What the ROM and a device reset's last steps leave: the commands, the tiles, the Felt, the transfers, protection, HOLD and the time. -/
structure RomSide (t s : State) : Prop where
  disp : t.disp = s.disp
  tiles : t.tiles = s.tiles
  felt : t.felt = s.felt
  xfer : t.xfer = s.xfer
  prot : t.prot = s.prot
  committed : t.committed = s.committed
  inHold : t.inHold = s.inHold
  now : t.now = s.now

theorem RomSide.refl (s : State) : RomSide s s := ⟨rfl, rfl, rfl, rfl, rfl, rfl, rfl, rfl⟩

theorem RomSide.trans {t u s : State} (h : RomSide t u) (k : RomSide u s) : RomSide t s :=
  ⟨h.disp.trans k.disp, h.tiles.trans k.tiles, h.felt.trans k.felt, h.xfer.trans k.xfer, h.prot.trans k.prot,
    h.committed.trans k.committed, h.inHold.trans k.inHold, h.now.trans k.now⟩

theorem Quiet.romSide {t s : State} (h : Quiet t s) : RomSide t s :=
  ⟨h.disp, h.tiles, h.felt, h.xfer, h.prot, h.committed, h.inHold, h.now⟩

theorem QuietNor.romSide {t s : State} (h : QuietNor t s) : RomSide t s := by
  have k : Quiet t { s with nor := t.nor } := h
  exact ⟨k.disp, k.tiles, k.felt, k.xfer, k.prot, k.committed, k.inHold, k.now⟩

theorem romSide_boot (b : BootSt) (s : State) : RomSide { s with boot := b } s := ⟨rfl, rfl, rfl, rfl, rfl, rfl, rfl, rfl⟩
theorem romSide_org (o : OrgSt) (s : State) : RomSide { s with org := o } s := ⟨rfl, rfl, rfl, rfl, rfl, rfl, rfl, rfl⟩
theorem romSide_setMemCtl (d : Nat) (m : MemCtl) (s : State) : RomSide (setMemCtl d m s) s := ⟨rfl, rfl, rfl, rfl, rfl, rfl, rfl, rfl⟩

theorem RomSide.foldl {α : Type} {f : State → α → State} (hf : ∀ t x, RomSide (f t x) t) (l : List α) (s : State) : RomSide (l.foldl f s) s := by
  induction l generalizing s with
  | nil => exact .refl s
  | cons x l ih => exact (ih _).trans (hf s x)

/-- What the part gives, before the packages are known. -/
def withPart (o : OrgSt) (s : State) : State := { s with org := o }

/-- A die's controller with the packages of the part. -/
def packagesOf (v : Nat) (s : State) (d : Nat) : State :=
  setMemCtl d { memCtl s d with present := if v = 1 then [(memCtl s d).present.getD 0 true, false] else (memCtl s d).present } s

theorem takePart_eq (s : State) : ∃ o, takePart s
    = (List.range 8).foldl (packagesOf ((s.boot.part.straps.map fun e => e.2).headD 0)) (withPart o s) := ⟨_, rfl⟩

theorem takePart_side (s : State) : RomSide (takePart s) s ∧ (takePart s).regs = s.regs ∧ (takePart s).nor = s.nor := by
  obtain ⟨o, h⟩ := takePart_eq s
  rw [h]
  generalize (s.boot.part.straps.map fun e => e.2).headD 0 = v, List.range 8 = l
  refine ⟨(RomSide.foldl (fun t d => romSide_setMemCtl d _ t) l _).trans (romSide_org o s), ?_, ?_⟩
  · exact foldl_keeps State.regs (f := packagesOf v) (fun t d => setMemCtl_regs t d _) l (withPart o s)
  · exact foldl_keeps State.nor (f := packagesOf v) (fun t d => setMemCtl_nor t d _) l (withPart o s)

/-- The ROM begins. -/
def romBegun (s : State) : State := setBootStat 1 0 0 { s with boot := { s.boot with romAt := s.now } }

/-- The ROM's checks passed: the part is taken over and the boot counted. -/
def romCounted (s : State) : State := wr pBoot 0x160 (BitVec.ofNat 32 (takePart (countBoot s)).nor.boots) (takePart (countBoot s))

/-- The sites that wait for discovery. -/
def withSites (l : List Nat) (s : State) : State := { s with boot := { s.boot with toFind := l } }

/-- The ROM stops at a breach, or counts the boot and waits. -/
def romEnd (b : Option (Nat × Nat)) (s : State) : State :=
  match b with
  | some x => bootStop x.1 x.2 s
  | none => maybeWait (withSites ((List.range 2).filter fun k => (romCounted s).org.csPresent.getD k false) (romCounted s))

theorem romRun_eq (s : State) : romRun s = romEnd (romBreach s.boot.part) (romBegun s) := by
  unfold romRun romEnd
  extract_lets boot s0 s1 s2
  have hpart : romBreach s0.boot.part = romBreach s.boot.part := rfl
  have h0 : s0 = romBegun s := rfl
  have h2 : s2 = romCounted s0 := rfl
  rw [hpart]
  cases romBreach s.boot.part with
  | none =>
    clear_value s2
    subst h2
    clear_value s0
    subst h0
    rfl
  | some x => rfl

theorem romRun_stops {s : State} {c d : Nat} (h : romBreach s.boot.part = some (c, d)) : romRun s = bootStop c d (romBegun s) := by
  rw [romRun_eq, h, romEnd]

theorem romRun_passes {s : State} (h : romBreach s.boot.part = none) : ∃ l, romRun s = maybeWait (withSites l (romCounted (romBegun s))) := by
  rw [romRun_eq, h, romEnd]
  exact ⟨_, rfl⟩

theorem withSites_regs (l : List Nat) (s : State) : (withSites l s).regs = s.regs := rfl
theorem withSites_nor (l : List Nat) (s : State) : (withSites l s).nor = s.nor := rfl

theorem romCounted_boots (s : State) : (romCounted s).nor.boots = s.nor.boots + 1 := by
  obtain ⟨-, -, hnor⟩ := takePart_side (countBoot s)
  rw [romCounted, wr_nor, hnor, countBoot_boots]

theorem rd_romCounted_boots (s : State) : rd (romCounted s) pBoot 0x160 = BitVec.ofNat 32 (s.nor.boots + 1) := by
  obtain ⟨-, -, hnor⟩ := takePart_side (countBoot s)
  rw [romCounted, rd_wr_same, hnor, countBoot_boots]

theorem rd_romCounted_off (s : State) {x : Nat} (hx : x < 0x1000) (h : 0x80 ≤ x) (h' : x ≠ 0x160) :
    rd (romCounted s) pBoot x = rd s pBoot x := by
  obtain ⟨-, hregs, -⟩ := takePart_side (countBoot s)
  rw [romCounted, rd_wr_off _ _ (by decide) hx h', rd_congr hregs, rd_countBoot _ hx h]

theorem romSide_romCounted (s : State) : RomSide (romCounted s) s :=
  (quiet_wr _ _ _ _).romSide.trans ((takePart_side _).1.trans (quietNor_countBoot s).romSide)

theorem phase_romBegun (s : State) : phase (romBegun s) = 1 := phase_setBootStat 1 0 0 _

theorem romBegun_nor (s : State) : (romBegun s).nor = s.nor := wr_nor ..

theorem romSide_romRun (s : State) : RomSide (romRun s) s := by
  have hbegun : RomSide (romBegun s) s := (quiet_setBootStat _ _ _ _).romSide.trans (romSide_boot _ s)
  cases h : romBreach s.boot.part with
  | some x =>
    rw [romRun_stops h]
    exact (quiet_bootStop _ _ _).romSide.trans hbegun
  | none =>
    obtain ⟨l, hl⟩ := romRun_passes h
    rw [hl]
    exact (quiet_maybeWait _).romSide.trans ((romSide_boot _ _).trans ((romSide_romCounted _).trans hbegun))

/-- The ROM's run leaves BOOT_CAUSE. -/
theorem rd_romRun_cause (s : State) : rd (romRun s) pBoot 0x164 = rd s pBoot 0x164 := by
  have hbegun : rd (romBegun s) pBoot 0x164 = rd s pBoot 0x164 := rd_setBootStat_off _ _ _ _ (by decide) (by decide)
  cases h : romBreach s.boot.part with
  | some x =>
    rw [romRun_stops h, bootStop, rd_event _ _ _ (by decide) (by decide) (by decide), rd_setBootStat_off _ _ _ _ (by decide) (by decide), hbegun]
  | none =>
    obtain ⟨l, hl⟩ := romRun_passes h
    rw [hl, rd_maybeWait_off _ (by decide) (by decide), rd_congr (withSites_regs _ _), rd_romCounted_off _ (by decide) (by decide) (by decide),
      hbegun]

/-- The ROM that finds no breach counts the boot and goes on. -/
theorem romRun_counts {s : State} (h : romBreach s.boot.part = none) :
    (phase (romRun s) = 1 ∨ phase (romRun s) = 2) ∧ (romRun s).nor.boots = s.nor.boots + 1
      ∧ rd (romRun s) pBoot 0x160 = BitVec.ofNat 32 (s.nor.boots + 1) := by
  obtain ⟨l, hl⟩ := romRun_passes h
  rw [hl]
  have hphase : phase (withSites l (romCounted (romBegun s))) = 1 := by
    rw [phase_congr (rd_congr (withSites_regs _ _) _ _), phase_congr (rd_romCounted_off _ (by decide) (by decide) (by decide)), phase_romBegun]
  refine ⟨phase_maybeWait hphase, ?_, ?_⟩
  · rw [(quiet_maybeWait _).nor, withSites_nor, romCounted_boots, romBegun_nor]
  · rw [rd_maybeWait_off _ (by decide) (by decide), rd_congr (withSites_regs _ _), rd_romCounted_boots, romBegun_nor]

/-! ### Power-on and device reset (R715, R716, R722) -/

theorem rd_setCap_page (s : State) {q x : Nat} (hx : x < 0x1000) (h : q ≠ pBlocker) : rd (setCap s) q x = rd s q x :=
  rd_wr_page s _ (by decide) hx h

theorem quiet_setCap (s : State) : Quiet (setCap s) s := quiet_wr _ _ _ s

/-- A device reset empties what it does not keep. -/
theorem clearDevice_empties (s : State) : (clearDevice s).disp.cmds = [] ∧ (clearDevice s).tiles = {} ∧ (clearDevice s).felt = {}
    ∧ (clearDevice s).xfer = {} ∧ (clearDevice s).prot = {} ∧ (clearDevice s).committed = [] ∧ (clearDevice s).inHold = false
    ∧ (clearDevice s).now = 0 := ⟨rfl, rfl, rfl, rfl, rfl, rfl, rfl, rfl⟩

/-- BOOT_STAT is not kept: its phase is RESET. -/
theorem phase_clearDevice (s : State) : phase (clearDevice s) = 0 := by
  have hnot : keptReg (regKey 0 pBoot 0x100) = false := by decide
  have hword : rd (clearDevice s) pBoot 0x100 = regReset (regKey 0 pBoot 0x100) :=
    (sget_filter regReset keptReg s.regs _).trans (if_neg (by simp [hnot]))
  rw [phase_of hword]
  rfl

/-- The device after a reset, before the ROM. -/
def restarted (cause : Nat) (link : Word) (s : State) : State :=
  setCap (wr pBoot 0x164 (BitVec.ofNat 32 cause) (wr pHostif 0x100 (if cause = 1 then link &&& 0xFFFFDFFF else link)
    (wr pBoot 0x124 (rd s pBoot 0x124 &&& 0x3F) (wr pBoot 0x128 (rd s pBoot 0x128 &&& 0xFF) s))))

theorem deviceReset_eq (cause : Nat) (l : List (Nat × Nat)) (s : State) : ∃ u, deviceReset cause l s
    = if cause = 1 then restarted cause (rd s pHostif 0x100) (clearDevice u) else romRun (restarted cause (rd s pHostif 0x100) (clearDevice u)) :=
  ⟨_, rfl⟩

theorem quiet_restarted (cause : Nat) (link : Word) (s : State) : Quiet (restarted cause link s) s :=
  (quiet_setCap _).trans ((quiet_wr _ _ _ _).trans ((quiet_wr _ _ _ _).trans ((quiet_wr _ _ _ _).trans (quiet_wr _ _ _ s))))

theorem rd_restarted_cause (cause : Nat) (link : Word) (s : State) : rd (restarted cause link s) pBoot 0x164 = BitVec.ofNat 32 cause := by
  rw [restarted, rd_setCap_page _ (by decide) (by decide), rd_wr_same]

theorem phase_restarted (cause : Nat) (link : Word) (s : State) : phase (restarted cause link s) = phase s := by
  refine phase_congr ?_
  rw [restarted, rd_setCap_page _ (by decide) (by decide), rd_wr_off _ _ (by decide) (by decide) (by decide),
    rd_wr_page _ _ (by decide) (by decide) (by decide), rd_wr_off _ _ (by decide) (by decide) (by decide),
    rd_wr_off _ _ (by decide) (by decide) (by decide)]

/-- What a device reset leaves (R715, R716). -/
theorem deviceReset_facts (c : Nat) (l : List (Nat × Nat)) (s : State) :
    (deviceReset c l s).disp.cmds = [] ∧ (deviceReset c l s).tiles = {} ∧ (deviceReset c l s).felt = {} ∧ (deviceReset c l s).xfer = {}
      ∧ (deviceReset c l s).prot = {} ∧ (deviceReset c l s).committed = [] ∧ (deviceReset c l s).inHold = false ∧ (deviceReset c l s).now = 0
      ∧ rd (deviceReset c l s) pBoot 0x164 = BitVec.ofNat 32 c ∧ (c = 1 → phase (deviceReset c l s) = 0) := by
  obtain ⟨u, hu⟩ := deviceReset_eq c l s
  rw [hu]
  generalize rd s pHostif 0x100 = link
  obtain ⟨hcmds, htiles, hfelt, hxfer, hprot, hcommitted, hhold, hnow⟩ := clearDevice_empties u
  have hphase := phase_clearDevice u
  generalize clearDevice u = v at *
  have hside : RomSide (if c = 1 then restarted c link v else romRun (restarted c link v)) v := by
    split
    · exact (quiet_restarted c link v).romSide
    · exact (romSide_romRun _).trans (quiet_restarted c link v).romSide
  have hcause : rd (if c = 1 then restarted c link v else romRun (restarted c link v)) pBoot 0x164 = BitVec.ofNat 32 c := by
    split
    · exact rd_restarted_cause c link v
    · rw [rd_romRun_cause, rd_restarted_cause]
  refine ⟨?_, hside.tiles.trans htiles, hside.felt.trans hfelt, hside.xfer.trans hxfer, hside.prot.trans hprot,
    hside.committed.trans hcommitted, hside.inHold.trans hhold, hside.now.trans hnow, hcause, fun h1 => ?_⟩
  · rw [hside.disp, hcmds]
  · rw [if_pos h1, phase_restarted, hphase]

end Sys2Proof.Machine
end

section
/-! SUPPORT. Discovery, the host link, the image and START (17_firmware.md R784, R788 to R794, R798; 18_interfaces.md R811, R827). -/

namespace Sys2Proof.Machine

/-! ### Power-on and PERST_N (R722, R780, R781) -/

theorem bitOf_linkDown (v : Word) : bitOf (v &&& 0xFFFFDFFF) 13 = false := by
  rw [bitOf_eq_getLsbD, BitVec.getLsbD_and]
  exact Bool.and_eq_false_iff.mpr (.inr rfl)

/-- PERST_N in HOLD: the host link is down at once. -/
def perstLost (s : State) : State := wr pHostif 0x100 (rd s pHostif 0x100 &&& 0xFFFFDFFF) { s with boot := { s.boot with perst := true } }

theorem perstLost_facts (s : State) : (perstLost s).power = s.power ∧ (perstLost s).inHold = s.inHold ∧ (perstLost s).boot.perst = true
    ∧ bitOf (rd (perstLost s) pHostif 0x100) 13 = false ∧ (perstLost s).mem = s.mem := by
  refine ⟨wr_power .., wr_inHold .., ?_, ?_, wr_mem ..⟩
  · rw [perstLost, wr_boot]
  · rw [perstLost, rd_wr_same, bitOf_linkDown]

/-- The state in which the ROM starts after power-on. -/
def poweredOn (x : Part) (v : Nat) (s : State) : State :=
  { s with
    power := { s.power with efuse := .on, up := true, vin := v, retries := 0 }
    mmc := { s.mmc with psStat := setFld s.mmc.psStat 2 1 s.power.retries }
    boot := { s.boot with part := x, fresh := true } }

/-- The registers the ROM finds after power-on: fuses, cause, cap. -/
def fused (x : Part) (s : State) : State :=
  setCap (wr pBlocker 0x104 (BitVec.ofNat 32 s.mmc.cap) (wr pBoot 0x164 0 (wr pBoot 0x124 (BitVec.ofNat 32 (x.svn % 64))
    (wr pBoot 0x128 (BitVec.ofNat 32 (x.programmed % 16 + 16 * (x.revoked % 16))) s))))

theorem quiet_fused (x : Part) (s : State) : Quiet (fused x s) s :=
  (quiet_setCap _).trans ((quiet_wr _ _ _ _).trans ((quiet_wr _ _ _ _).trans ((quiet_wr _ _ _ _).trans (quiet_wr _ _ _ s))))

theorem rd_fused_cause (x : Part) (s : State) : rd (fused x s) pBoot 0x164 = 0 := by
  rw [fused, rd_setCap_page _ (by decide) (by decide), rd_wr_off _ _ (by decide) (by decide) (by decide), rd_wr_same]

theorem powerOn_starts (x : Part) {v : Nat} {s : State} (hup : s.power.up = false) (hf : s.power.efuse = .off) (hlo : 40000 ≤ v) (hhi : v ≤ 60000) :
    powerOn x v s = romRun (fused x (poweredOn x v s)) := by
  rw [powerOn, if_neg (by simp [hup, hf, hlo, hhi])]
  rfl

/-- BIF_N as sampled, with PERST_N deasserted. -/
def bifSampled (b : Bool) (s : State) : State :=
  wr pHostif 0x100 (setFld (rd s pHostif 0x100) 9 9 (b2n b)) { s with boot := { s.boot with perst := false } }

theorem perstDeassert_starts (b : Bool) {s : State} (hup : s.power.up = true) (hperst : s.boot.perst = true) (hp : phase s = 0)
    (hh : s.inHold = false) : perstDeassert b s = romRun (bifSampled b s) := by
  have hphase : phase (bifSampled b s) = 0 :=
    (phase_congr (rd_wr_page { s with boot := { s.boot with perst := false } } _ (by decide) (by decide) (by decide))).trans hp
  have hhold : (bifSampled b s).inHold = false := (wr_inHold ..).trans hh
  have hrun : s.boot.perst = true ∧ phase (bifSampled b s) = 0 ∧ (!(bifSampled b s).inHold) = true := ⟨hperst, hphase, by rw [hhold]; rfl⟩
  rw [perstDeassert, if_neg (by simp [hup])]
  exact if_pos hrun

/-! ### CHIPLET_DISCOVERY (R784, R827) -/

/-- The site's discovery has ended. -/
def siteFound (k : Nat) (s : State) : State :=
  { s with
    boot := { s.boot with toFind := setDel k s.boot.toFind }
    host := { s.host with siteSlice := sput (fun _ => 0) s.host.siteSlice k (fld (rd s (pUcie k) 0x100) 12 7) } }

theorem contains_setDel (a : Nat) (l : List Nat) : (setDel a l).contains a = false := by simpa using not_mem_setDel a l

section
variable {s : State} {k : Nat} (hf : s.boot.toFind.contains k = true) (hp : phase s = 1) (hh : s.inHold = false)
include hf hp hh

theorem chipletDiscovery_silent (cxl raw : Bool) (rates : List Nat) (id : List Word) : chipletDiscovery k false cxl raw rates id s
    = maybeWait (setUState (pChiplet k) .faulted false (wr (pUcie k) 0x104 1 (siteFound k s))) := by
  rw [chipletDiscovery, if_neg (by simpa [hp, hh] using hf), Bool.not_false]
  exact if_pos (.inl rfl)

theorem chipletDiscovery_answers (cxl : Bool) {rates : List Nat} (id : List Word) (hr : ucieRate s k rates ≠ 0) :
    chipletDiscovery k true cxl true rates id s
    = maybeWait (wrWords (pUcie k + 1) 0x100 ((List.range 4).map fun i => id.getD i 0) (wr (pUcie k) 0x104
      (BitVec.ofNat 32 (3 + 4 * b2n (!(cxl && !bitOf (rd s (pUcie k) 0x100) 0)) + 8 * ucieRate s k rates + 0x200 * 64)) (siteFound k s))) := by
  have hgo : ¬((!true) = true ∨ (!(cxl && !bitOf (rd (siteFound k s) (pUcie k) 0x100) 0 || true)) = true ∨ ucieRate (siteFound k s) k rates = 0) := by
    simp only [Bool.not_true, Bool.or_true, Bool.false_eq_true, false_or]
    exact hr
  rw [chipletDiscovery, if_neg (by simpa [hp, hh] using hf)]
  exact if_neg hgo

end

theorem rd_setUState_off (p : Nat) (st : UState) (c : Bool) (s : State) {q x : Nat} (hx : x < 0x1000) (h : x ≠ 0x10) (hq : q ≠ pIntr) :
    rd (setUState p st c s) q x = rd s q x := by
  unfold setUState
  split
  · rfl
  · dsimp only
    split
    · rfl
    · exact rd_event _ _ _ hx h hq

theorem pUcie_ne_pIntr (k : Nat) : pUcie k ≠ pIntr := by
  unfold pUcie pIntr pageOf
  omega

/-- A site that does not answer is FAULTED. -/
theorem siteSilent_facts (k : Nat) (s : State) :
    (unitSt (maybeWait (setUState (pChiplet k) .faulted false (wr (pUcie k) 0x104 1 (siteFound k s)))) (pChiplet k)).state = .faulted
      ∧ rd (maybeWait (setUState (pChiplet k) .faulted false (wr (pUcie k) 0x104 1 (siteFound k s)))) (pUcie k) 0x104 = 1
      ∧ (maybeWait (setUState (pChiplet k) .faulted false (wr (pUcie k) 0x104 1 (siteFound k s)))).boot.toFind.contains k = false := by
  refine ⟨?_, ?_, ?_⟩
  · rw [unitSt_congr (quiet_maybeWait _).units, unitSt_setUState]
  · rw [rd_maybeWait_off _ (by decide) (by decide), rd_setUState_off _ _ _ _ (by decide) (by decide) (pUcie_ne_pIntr k), rd_wr_same]
  · rw [(quiet_maybeWait _).boot, setUState_boot, wr_boot]
    exact contains_setDel k _

/-- A site that answers shows its mode, rate and identity. -/
theorem siteAnswers_facts {k : Nat} (hk : k < 2) (w : Word) (id : List Word) (s : State) {t : State}
    (ht : t = maybeWait (wrWords (pUcie k + 1) 0x100 ((List.range 4).map fun i => id.getD i 0) (wr (pUcie k) 0x104 w (siteFound k s)))) :
    rd t (pUcie k + 1) 0x100 = id.getD 0 0 ∧ t.boot.toFind.contains k = false ∧ rd t (pUcie k) 0x104 = w := by
  have hlen : ((List.range 4).map fun i => id.getD i 0).length = 4 := by rw [List.length_map, List.length_range]
  have hboot : pUcie k + 1 ≠ pBoot := by
    have hall : ∀ k < 2, pUcie k + 1 ≠ pBoot := by decide
    exact hall k hk
  subst ht
  refine ⟨?_, ?_, ?_⟩
  · rw [rd_maybeWait_page _ (by decide) hboot]
    exact rd_wrWords_at (pUcie k + 1) 0x100 _ _ (by rw [hlen]; decide) (i := 0) (by rw [hlen]; decide)
  · rw [(quiet_maybeWait _).boot, (quiet_wrWords _ _ _ _).boot, wr_boot]
    exact contains_setDel k _
  · rw [rd_maybeWait_off _ (by decide) (by decide), rd_wrWords_page (by omega) (by decide) _ _ _ (by rw [hlen]; decide), rd_wr_same]

/-! ### The host link (R811, R850) -/

/-- The word of HOSTIF's link state. -/
def linkWord (r w : Nat) (f b c0 c1 c2 : Bool) : Word :=
  BitVec.ofNat 32 (r % 8 + 8 * (w % 32) + 0x100 * b2n f + 0x200 * b2n b + 0x400 * b2n (f && c0) + 0x800 * b2n (f && c1)
    + 0x1000 * b2n (f && c2) + 0x2000)

theorem linkFields (r w n8 n9 n10 n11 n12 : Nat) (h8 : n8 ≤ 1) (h9 : n9 ≤ 1) (h10 : n10 ≤ 1) (h11 : n11 ≤ 1) (h12 : n12 ≤ 1) :
    let v := BitVec.ofNat 32 (r % 8 + 8 * (w % 32) + 0x100 * n8 + 0x200 * n9 + 0x400 * n10 + 0x800 * n11 + 0x1000 * n12 + 0x2000)
    bitOf v 13 = true ∧ fld v 2 0 = r % 8 ∧ fld v 7 3 = w % 32 ∧ (n10 = 0 → n11 = 0 → n12 = 0 → fld v 12 10 = 0) := by
  simp only [bitOf, fld, BitVec.toNat_ofNat, beq_iff_eq]
  omega

theorem b2n_le (b : Bool) : b2n b ≤ 1 := by cases b <;> decide

theorem linkWord_fields (r w : Nat) (f b c0 c1 c2 : Bool) : bitOf (linkWord r w f b c0 c1 c2) 13 = true
    ∧ fld (linkWord r w f b c0 c1 c2) 2 0 = r % 8 ∧ fld (linkWord r w f b c0 c1 c2) 7 3 = w % 32
    ∧ (f = false → fld (linkWord r w f b c0 c1 c2) 12 10 = 0) := by
  obtain ⟨hup, hrate, hwidth, hcxl⟩ := linkFields r w (b2n f) (b2n b) (b2n (f && c0)) (b2n (f && c1)) (b2n (f && c2)) (b2n_le _) (b2n_le _)
    (b2n_le _) (b2n_le _) (b2n_le _)
  refine ⟨hup, hrate, hwidth, fun hf => hcxl ?_ ?_ ?_⟩ <;> rw [hf] <;> rfl

/-- The link's state after training, before the boot window may open. -/
def linkTrained (below : Bool) (w : Word) (s : State) : State :=
  if below then event pHostif 2 (wr pHostif 0x100 w s) else wr pHostif 0x100 w s

theorem hostLinkUp_eq (r w : Nat) (f c0 c1 c2 below : Bool) {s : State} (hup : s.power.up = true) (hperst : s.boot.perst = false) :
    ∃ u, Quiet u s ∧ (∀ x, x < 0x1000 → 0x80 ≤ x → rd u pBoot x = rd s pBoot x)
      ∧ hostLinkUp r w f c0 c1 c2 below s = maybeWait (linkTrained below (linkWord r w f (bitOf (rd s pHostif 0x100) 9) c0 c1 c2) u) := by
  refine ⟨if bitOf (rd s pHostif 0x100) 13 then addProg pHostif 4 1 s else s, ?_, fun x hx h => ?_, ?_⟩
  · split
    · exact quiet_addProg _ _ _ s
    · exact .refl s
  · split
    · exact rd_addProg_off _ _ s (by decide) hx (.inr h)
    · rfl
  · rw [hostLinkUp, if_neg (by simp [hup, hperst])]
    rfl

theorem linkTrained_facts (below : Bool) (w : Word) (s : State) : Quiet (linkTrained below w s) s
    ∧ rd (linkTrained below w s) pHostif 0x100 = w ∧ rd (linkTrained below w s) pBoot 0x100 = rd s pBoot 0x100
    ∧ (below = true → bitOf (rd (linkTrained below w s) pHostif 0x10) 2 = true) := by
  unfold linkTrained
  cases below
  · exact ⟨quiet_wr _ _ _ s, rd_wr_same s _ _ _, rd_wr_page s _ (by decide) (by decide) (by decide), fun h => absurd h (by decide)⟩
  · refine ⟨(quiet_event _ _ _).trans (quiet_wr _ _ _ s), ?_, ?_, fun _ => bitOf_event (by decide) _ _⟩
    · exact (rd_event _ _ _ (by decide) (by decide) (by decide)).trans (rd_wr_same s _ _ _)
    · exact (rd_event _ _ _ (by decide) (by decide) (by decide)).trans (rd_wr_page s _ (by decide) (by decide) (by decide))

/-! ### The image (R788 to R791, R798) -/

/-- The image's digest is shown and Holog's start noted. -/
def imageTaken (s : State) : State := { digestShown s with boot := { s.boot with test := bitOf (rd s pBoot 0x104) 0, startAt := s.now } }

theorem digestShown_mem (s : State) : (digestShown s).mem = s.mem := by
  unfold digestShown
  dsimp only
  exact (quiet_wrWords _ _ _ s).mem

theorem imageTaken_mem (s : State) : (imageTaken s).mem = s.mem := by
  unfold imageTaken
  dsimp only
  exact digestShown_mem s

theorem imageCheck_passes {s : State} (h : imageCode (addProg pBoot 0 1 s) = 0) :
    imageCheck s = setBootStat 4 0 0 (imageTaken (addProg pBoot 0 1 s)) := by
  unfold imageCheck
  dsimp only
  rw [h]
  rfl

theorem imageCheck_stops {s : State} (h : imageCode (addProg pBoot 0 1 s) ≠ 0) :
    imageCheck s = bootStop (imageCode (addProg pBoot 0 1 s)) 0 (addProg pBoot 0 1 s) := by
  unfold imageCheck
  dsimp only
  split
  next h0 => exact absurd h0 h
  next => rfl

/-- The image that passes starts Holog; one that fails stops the boot with its code. -/
theorem imageCheck_facts (s : State) : phase (imageCheck s) = (if imageCode (addProg pBoot 0 1 s) = 0 then 4 else 6)
    ∧ fld (rd (imageCheck s) pBoot 0x100) 15 8 = imageCode (addProg pBoot 0 1 s) % 256 ∧ (imageCheck s).mem = s.mem := by
  by_cases h : imageCode (addProg pBoot 0 1 s) = 0
  · rw [imageCheck_passes h, if_pos h, h, phase_setBootStat, rd_setBootStat, fld_bootCode, (quiet_setBootStat _ _ _ _).mem, imageTaken_mem,
      addProg_mem]
    exact ⟨rfl, rfl, rfl⟩
  · obtain ⟨hword, -, hmem⟩ := bootStop_facts (imageCode (addProg pBoot 0 1 s)) 0 (addProg pBoot 0 1 s)
    rw [imageCheck_stops h, if_neg h, phase_of hword, hword, hmem, addProg_mem]
    exact ⟨fld_bootWord 6 _ 0, fld_bootCode 6 _ 0, rfl⟩

theorem bootLoad_checks {s : State} (hw : windowOpen s = true) (hh : s.inHold = false) : bootLoad s = imageCheck s := by
  rw [bootLoad, if_neg (by simp [hw]), if_neg (by simp [hh])]

theorem bootLoad_waits {s : State} (hw : windowOpen s = true) (hh : s.inHold = true) : bootLoad s = setBootStat 3 0 0 s := by
  rw [bootLoad, if_neg (by simp [hw]), if_pos hh]

/-- The fused minimum takes the image's. -/
def svnRaised (s : State) : State :=
  wr pBoot 0x124 (setFld (rd s pBoot 0x124) 5 0 (fld (rd s pBoot 0x124) 13 8))
    { s with boot := { s.boot with part := { s.boot.part with svn := fld (rd s pBoot 0x124) 13 8 } } }

theorem raiseSvn_fused {s : State} (hp : phase s = 5) (hlt : fld (rd s pBoot 0x124) 5 0 < fld (rd s pBoot 0x124) 13 8) :
    raiseSvn false s = event pBoot 5 s ∧ raiseSvn true s = svnRaised s := by
  have hgo : ¬(phase s ≠ 5 ∨ fld (rd s pBoot 0x124) 13 8 ≤ fld (rd s pBoot 0x124) 5 0) := by
    rintro (h | h)
    · exact h hp
    · omega
  exact ⟨(if_neg hgo).trans (if_pos rfl), (if_neg hgo).trans (if_neg (by decide))⟩

theorem fld_svnRaised (s : State) : fld (rd (svnRaised s) pBoot 0x124) 5 0 = fld (rd s pBoot 0x124) 13 8 := by
  have hlt : fld (rd s pBoot 0x124) 13 8 < 2 ^ (13 - 8 + 1) := Nat.mod_lt _ (by decide)
  rw [svnRaised, rd_wr_same, fld_setFld_same _ _ (by decide) (by decide)]
  exact Nat.mod_eq_of_lt hlt

/-! ### START (R792 to R794) -/

theorem rd_setDieClock_page (s : State) (d : Nat) {q x : Nat} (hx : x < 0x1000) (h80 : 0x80 ≤ x) (hq : q ≠ pPwrtherm d) :
    rd (setDieClock s d) q x = rd s q x := by
  have hset (v : Word) (c : Prop) [Decidable c] : rd (wr (pPwrtherm d) 0x100 v (if c then tickFree 1 s else s)) q x = rd s q x := by
    rw [rd_wr_page _ _ (by decide) hx hq]
    split
    · rw [rd_tickFree]
    · rfl
  unfold setDieClock
  dsimp only
  split
  · rw [hset]
  · rw [rd_addProg_off _ _ _ (by decide) hx (.inr h80), setVolt, rd_wr_page _ _ (by decide) hx hq, rd_tickFree, hset]

/-- Setting the clocks leaves the registers of other pages. -/
theorem rd_setClocks_page (s : State) {q x : Nat} (hx : x < 0x1000) (h80 : 0x80 ≤ x) (hx' : x ≠ 0x10C) (hq : ∀ d, q ≠ pPwrtherm d) (hi : q ≠ pIntr) :
    rd (setClocks s) q x = rd s q x := by
  unfold setClocks
  split
  · rfl
  · rw [rd_powerLimited _ hx (by omega) hx' hi]
    exact foldl_keeps (rd · q x) (fun t d => rd_setDieClock_page t d hx h80 (hq d)) _ s

theorem evtGrows_setVolt (d : Nat) (s : State) : EvtGrows (setVolt d s) s :=
  (evtGrows_wr _ _ _ (by decide) (by decide)).trans (.of_regs rfl)

theorem evtGrows_setDieClock (s : State) (d : Nat) : EvtGrows (setDieClock s d) s := by
  have hset (v : Word) (c : Prop) [Decidable c] : EvtGrows (wr (pPwrtherm d) 0x100 v (if c then tickFree 1 s else s)) s := by
    refine (evtGrows_wr _ _ _ (by decide) (by decide)).trans ?_
    split
    · exact .of_regs rfl
    · exact .refl s
  unfold setDieClock
  dsimp only
  split
  · exact hset _ _
  · exact ((evtGrows_addProg _ _ _ (by decide)).trans (evtGrows_setVolt d _)).trans (hset _ _)

theorem evtGrows_setClocks (s : State) : EvtGrows (setClocks s) s := by
  have hfold := EvtGrows.foldl evtGrows_setDieClock (List.range 8) s
  unfold setClocks
  split
  · exact .refl s
  · unfold powerLimited
    dsimp only
    have hcap (v : Word) := (evtGrows_wr pBlocker (o := 0x10C) v _ (by decide) (by decide)).trans hfold
    split
    · exact (evtGrows_event _ _ _).trans (hcap _)
    · exact hcap _

theorem setDieClock_boot (s : State) (d : Nat) : (setDieClock s d).boot = s.boot := by
  have hset (v : Word) (c : Prop) [Decidable c] : (wr (pPwrtherm d) 0x100 v (if c then tickFree 1 s else s)).boot = s.boot := by
    rw [wr_boot]
    split
    · rw [tickFree_boot]
    · rfl
  unfold setDieClock
  dsimp only
  split
  · rw [hset]
  · rw [addProg_boot, setVolt, wr_boot, tickFree_boot, hset]

theorem setClocks_boot (s : State) : (setClocks s).boot = s.boot := by
  have hfold := foldl_keeps State.boot setDieClock_boot (List.range 8) s
  unfold setClocks
  split
  · rfl
  · unfold powerLimited
    dsimp only
    split
    · rw [event_boot, wr_boot, hfold]
    · rw [wr_boot, hfold]

/-- The state in which Holog's own heartbeat may begin. -/
def started (s : State) : State := { s with boot := { s.boot with fresh := false }, recov := { s.recov with hbLast := none } }

theorem journalUp_boot (s : State) : (journalUp s).boot = s.boot := by
  unfold journalUp
  dsimp only
  split
  · rw [event_boot, wr_boot]
  · rfl

theorem quiet_imageShown (s : State) : Quiet (imageShown s) s :=
  (quiet_wr _ _ _ _).trans ((quiet_wr _ _ _ _).trans ((quiet_wr _ _ _ _).trans ((quiet_wr _ _ _ _).trans (quiet_wr _ _ _ s))))

/-- The end of START: RUN. -/
def inRun (us : Word) (s : State) : State :=
  setClocks (event pBoot 0 (setBootStat 5 0 0 (wr pBoot 0x168 us (wr pWatchdog 0x100 0 (imageShown (journalUp (started s)))))))

theorem inRun_facts (us : Word) (s : State) : phase (inRun us s) = 5 ∧ bitOf (rd (inRun us s) pBoot 0x10) 0 = true
    ∧ rd (inRun us s) pWatchdog 0x100 = 0 ∧ (inRun us s).boot.fresh = false := by
  have hboot : (journalUp (started s)).boot = (started s).boot := journalUp_boot _
  have hfresh : (imageShown (journalUp (started s))).boot.fresh = false := by
    rw [(quiet_imageShown _).boot, hboot]
    rfl
  unfold inRun
  generalize imageShown (journalUp (started s)) = u at hfresh
  refine ⟨?_, (evtGrows_setClocks _).bit (bitOf_event (by decide) _ _), ?_, ?_⟩
  · refine (phase_congr (rd_setClocks_page _ (by decide) (by decide) (by decide) (fun d => ?_) (by decide))).trans ?_
    · unfold pBoot pPwrtherm pageOf
      omega
    · exact (phase_congr (rd_event _ _ _ (by decide) (by decide) (by decide))).trans (phase_setBootStat 5 0 0 _)
  · rw [rd_setClocks_page _ (by decide) (by decide) (by decide) (fun d => ?_) (by decide), rd_event _ _ _ (by decide) (by decide) (by decide),
      rd_setBootStat_page _ _ _ _ (by decide) (by decide), rd_wr_off _ _ (by decide) (by decide) (by decide), rd_wr_same]
    unfold pWatchdog pPwrtherm pageOf
    omega
  · rw [setClocks_boot, event_boot, (quiet_setBootStat _ _ _ _).boot, wr_boot, wr_boot, hfresh]

theorem bringUp_runs (pk : List (List Bool)) (pa : List Nat) (ds : List (Nat × Word)) {s : State} (hp : phase s = 4) (hh : s.inHold = false) :
    ∃ us u, bringUp none pk pa ds s = inRun us u := by
  rw [bringUp, if_neg (by simp [hp, hh])]
  exact ⟨_, _, rfl⟩

end Sys2Proof.Machine
end

section
/-! PROOFS. The statement on reset, boot and the host link. -/

namespace Sys2Proof.Machine

/-- Settles O56: every way into the ROM ends in the one run of it, whose two ends are a stop and the wait for the image; a device reset goes
through the state it clears. That POWER_ON runs the ROM whatever PERST_N is, is the model's own reading (assumption log 55). -/
theorem resetBootAndHostLink : Obligations.ResetBootAndHostLink := by
  unfold Obligations.ResetBootAndHostLink
  refine ⟨fun s x v => ⟨fun hup hf hlo hhi => ?power, fun hup => ?powered⟩, fun s => ⟨fun c d hb => ?breach, romRun_counts⟩,
    fun s l hup hh => ⟨?reset, ?perst⟩, fun s l hup hh => ⟨?resetHeld, ?perstHeld⟩, fun s c l => deviceReset_facts c l s,
    fun s b hup hperst hp hh => ?deassert, fun s k cxl raw rates id hk hf hp hh => ⟨?silent, fun hraw hr => ?answers⟩,
    fun s r w f a b c d hup hperst => ?linkUp, fun s hl => ?linkDown,
    fun s => ⟨fun hw hh => ⟨_, congrArg Host.Outcome.next (bootLoad_checks hw hh), imageCheck_facts s⟩, fun hw hh => ?loadHeld, fun hw => ?closed⟩,
    fun s hp hlt => ?svn, fun s pk pa ds hp hh => ⟨fun d => ?stackFails, ?runs, fun ht => ?timeout, fun ht => ?early⟩⟩
  case power =>
    refine ⟨_, congrArg Host.Outcome.next (powerOn_starts x hup hf hlo hhi), ?_, ?_, rd_fused_cause x _, ?_⟩
    · rw [(quiet_fused _ _).power, poweredOn]
    · rw [(quiet_fused _ _).boot, poweredOn]
    · rw [(quiet_fused _ _).mem, poweredOn]
  case powered => exact congrArg Host.Outcome.next (if_pos (.inl hup))
  case breach =>
    rw [romRun_stops hb]
    obtain ⟨hword, hevent, -⟩ := bootStop_facts c d (romBegun s)
    exact ⟨hword, hevent⟩
  case reset => exact congrArg Host.Outcome.next ((if_neg (by simp [hup])).trans (if_neg (by simp [hh])))
  case perst =>
    have hrun : execPerstN l s = .next (deviceResetReq 1 l { s with boot := { s.boot with perst := true } }) :=
      congrArg (fun t => Host.Outcome.next (deviceResetReq 1 l t)) (if_neg (by simp [hh]))
    exact hrun.trans (congrArg Host.Outcome.next ((if_neg (by simp [hup])).trans (if_neg (by simp [hh]))))
  case resetHeld =>
    exact ⟨_, congrArg Host.Outcome.next ((if_neg (by simp [hup])).trans (if_pos hh)), rfl, rfl⟩
  case perstHeld =>
    have hrun : execPerstN l s = .next (deviceResetReq 1 l (perstLost s)) :=
      congrArg (fun t => Host.Outcome.next (deviceResetReq 1 l t)) (if_pos hh)
    obtain ⟨hp, hhold, hperst, hlink, hmem⟩ := perstLost_facts s
    refine ⟨_, hrun.trans (congrArg Host.Outcome.next ((if_neg (by simp [hp, hup])).trans (if_pos (hhold.trans hh)))), hperst, rfl, hlink, hmem⟩
  case deassert =>
    refine ⟨_, congrArg Host.Outcome.next (perstDeassert_starts b hup hperst hp hh), rfl, ?_⟩
    rw [bifSampled, rd_wr_same, bitOf_setFld_same _ b (by decide)]
  case silent => exact ⟨_, congrArg Host.Outcome.next (chipletDiscovery_silent hf hp hh cxl raw rates id), siteSilent_facts k s⟩
  case answers =>
    subst hraw
    obtain ⟨hid, hfound, hstat⟩ := siteAnswers_facts hk
      (BitVec.ofNat 32 (3 + 4 * b2n (!(cxl && !bitOf (rd s (pUcie k) 0x100) 0)) + 8 * ucieRate s k rates + 0x200 * 64)) id s rfl
    exact ⟨_, congrArg Host.Outcome.next (chipletDiscovery_answers hf hp hh cxl id hr), hid, hfound, hstat⟩
  case linkUp =>
    obtain ⟨u, hu, hword, hrun⟩ := hostLinkUp_eq r w f a b c d hup hperst
    obtain ⟨hbit, hrate, hwidth, hcxl⟩ := linkWord_fields r w f (bitOf (rd s pHostif 0x100) 9) a b c
    generalize linkWord r w f (bitOf (rd s pHostif 0x100) 9) a b c = v at hrun hbit hrate hwidth hcxl
    obtain ⟨hquiet, hlink, hboot, hbelow⟩ := linkTrained_facts d v u
    generalize linkTrained d v u = t at hrun hquiet hlink hboot hbelow
    have hstat : rd (maybeWait t) pHostif 0x100 = v := (rd_maybeWait_page t (by decide) (by decide)).trans hlink
    refine ⟨_, congrArg Host.Outcome.next hrun, ?_, ?_, ?_, fun hf => ?_, fun hp hf hh => ?_, fun hd => ?_, ?_⟩
    · rw [hstat, hbit]
    · rw [hstat, hrate]
    · rw [hstat, hwidth]
    · rw [hstat, hcxl hf]
    · refine phase_maybeWait_opens ((phase_congr (hboot.trans (hword _ (by decide) (by decide)))).trans hp) ?_ ?_ ?_
      · rw [hquiet.inHold, hu.inHold, hh]
      · rw [hquiet.boot, hu.boot, hf]
      · rw [hlink, hbit]
    · rw [rd_maybeWait_off _ (by decide) (by decide), hbelow hd]
    · rw [(quiet_maybeWait _).mem, hquiet.mem, hu.mem]
  case linkDown =>
    refine ⟨_, congrArg Host.Outcome.next (if_neg (by simp [hl])), ?_, bitOf_event (by decide) _ _, ?_, ?_⟩
    · rw [rd_event _ _ _ (by decide) (by decide) (by decide), rd_wr_same, bitOf_linkDown]
    · rw [event_mem, wr_mem]
    · rw [event_host, wr_host]
  case loadHeld =>
    exact ⟨_, congrArg Host.Outcome.next (bootLoad_waits hw hh), phase_setBootStat 3 0 0 s, rfl⟩
  case closed => exact congrArg Host.Outcome.next (if_pos (by simp [hw]))
  case svn =>
    obtain ⟨hfails, hraises⟩ := raiseSvn_fused hp hlt
    refine ⟨congrArg Host.Outcome.next hfails, _, congrArg Host.Outcome.next hraises, fld_svnRaised s, rfl, rfl⟩
  case stackFails =>
    obtain ⟨hword, hevent, hmem⟩ := bootStop_facts 0x20 d s
    refine ⟨_, congrArg Host.Outcome.next (if_neg (by simp [hp, hh])), ?_, hevent, hmem⟩
    exact hword
  case runs =>
    obtain ⟨us, u, hrun⟩ := bringUp_runs pk pa ds hp hh
    exact ⟨_, congrArg Host.Outcome.next hrun, inRun_facts us u⟩
  case timeout =>
    obtain ⟨hword, hevent, hmem⟩ := bootStop_facts 0x21 0 s
    exact ⟨_, if_neg (by simp [hp, hh]; omega), hword, hevent, hmem⟩
  case early => exact if_pos (.inr (.inr ht))

end Sys2Proof.Machine
end
